-- ==== Sys2Proof/Word.lean ====
section
/-! DEFINITION. The words of the part: bytes, unit numbers, call ids, references, and the small types that both the commands
(Syntax) and the state (Machine/State) use. -/

namespace Sys2Proof

/-- A byte of a frame body or of a station port record (R59, R175). -/
abbrev Byte := BitVec 8

/-- A unit number as two bytes carry it, 0..65535 with meaning for 0..9999 (R59). -/
abbrev UnitNum := BitVec 16

/-- A call id: the originator's station address, then the call sequence number (R1, R59). -/
structure CallId where
  orig : Byte
  seq  : Byte
deriving DecidableEq, Repr

/-- A context reference, the index 0..3 of a call context (R100). -/
abbrev Ref := Fin 4

/-- A talk channel, 0..23 (R43). -/
abbrev Channel := Fin 24

/-- The two halves of a talk channel (R146): the originator sends in `forward`, the answerer in `ret` (the return half). -/
inductive Half where
  | forward | ret
deriving DecidableEq, Repr

/-- The three keys OKU debounces (R162). -/
inductive Key where
  | hook | doorKey | deskKey
deriving DecidableEq, Repr

/-- The two fault inputs and their outputs (R170). -/
inductive FaultKind where
  | strike | ringer
deriving DecidableEq, Repr

/-- The fourteen frame kinds (R60). -/
inductive FrameKind where
  | snapshot | reclaim | join | leave | seek | offer | ring | answer | refuse | claim | wait | release | open_ | opened
deriving DecidableEq, Repr

/-- What the identity of a queued frame adds to its kind: the call id or the unit number the frame carries (R47). -/
inductive FrameKey where
  | bare
  | call (c : CallId)
  | unit (u : UnitNum)
deriving DecidableEq, Repr

/-- The identity by which a block names one of its queued frames in a recall (R47, R56). -/
structure FrameId where
  kind : FrameKind
  key  : FrameKey
deriving DecidableEq, Repr

/-- A contention key: class, then sender address, sent most significant first (R50). -/
structure ArbKey where
  cls  : BitVec 2
  addr : Byte
deriving DecidableEq, Repr

/-- A hold record as a SNAPSHOT carries it (R16, R60). -/
structure SnapHold where
  cid   : CallId
  base  : Byte
  width : Byte
deriving DecidableEq, Repr

/-- A wait entry as a SNAPSHOT carries it (R16, R60). -/
structure SnapWait where
  cid    : CallId
  wanted : Byte
deriving DecidableEq, Repr

/-- A frame's kind and body fields (R60). A SNAPSHOT waiting in the transmit queue has empty lists until its carriage composes
them (R16). Field values are the bytes carried; the block that applies the frame judges them (R55). -/
inductive Frame where
  | snapshot (holds : List SnapHold) (waits : List SnapWait)
  | reclaim (c : CallId)
  | join (role : Byte) (unit : UnitNum) (capability : Byte)
  | leave
  | seek (unit : UnitNum)
  | offer (unit : UnitNum) (capability : Byte)
  | ring (c : CallId) (unit : UnitNum) (wanted role phase : Byte) (members : List Byte)
  | answer (c : CallId) (capability : Byte)
  | refuse (c : CallId) (reason : Byte)
  | claim (c : CallId) (base width : Byte)
  | wait (c : CallId) (wanted : Byte)
  | release (c : CallId) (cause : Byte)
  | open_ (c : CallId)
  | opened (c : CallId) (result : Byte)
deriving DecidableEq, Repr

end Sys2Proof
end

