-- ==== Sys2Proof/Config.lean ====
section
/-! DEFINITION. What the spec fixes for every part: timer lengths in milliseconds, capacities and allowances. There is no free
value: the spec leaves no value open after a command. -/

namespace Sys2Proof.Config

/-- Supply loss timer, 50 ms (R44). -/
def lossMs : Nat := 50
/-- Supply return timer, 20 ms (R44). -/
def returnMs : Nat := 20
/-- Learn timer, 1,000 ms (R66). -/
def learnMs : Nat := 1000
/-- Snapshot stagger, 2 ms for each unit of the own address (R70). -/
def staggerMs : Nat := 2
/-- Hold audit period before the address stagger, 900 s (R34). -/
def holdAuditMs : Nat := 900000
/-- Wait audit period before the address stagger, 120 s (R34). -/
def waitAuditMs : Nat := 120000
/-- Audit stagger, 100 ms for each unit of the own address (R34, R37). -/
def auditStaggerMs : Nat := 100
/-- Seek window, 40 ms (R94). -/
def seekMs : Nat := 40
/-- Alert limit, 90 s (R127). -/
def alertMs : Nat := 90000
/-- Path wait, 75 s (R127). -/
def pathWaitMs : Nat := 75000
/-- Settle limit of mode CARRIER, 500 ms (R150). -/
def carrierMs : Nat := 500
/-- Unmute delay, 60 ms (R152). -/
def unmuteMs : Nat := 60
/-- Mute to transmitters off, 10 ms (R156). -/
def muteMs : Nat := 10
/-- Carrier watch loss time, 2 s (R153). -/
def carrierLossMs : Nat := 2000
/-- Key debounce, 10 ms (R163). -/
def debounceMs : Nat := 10
/-- Reply wait of a door request, 2 s (R165). -/
def replyMs : Nat := 2000
/-- Ringer ON phase, 1 s (R169). -/
def ringOnMs : Nat := 1000
/-- Ringer OFF phase, 2 s (R169). -/
def ringOffMs : Nat := 2000

/-- Notice queue capacity (R180). -/
def noticeCap : Nat := 16
/-- Learning buffer capacity (R66). -/
def learnCap : Nat := 32
/-- Wait list capacity (R25). -/
def waitCap : Nat := 16
/-- Call-frame allowance of the transmit queue (R48). -/
def callFrames : Nat := 8
/-- Spoiled attempts at which a frame is dropped (R53). -/
def dropAttempts : Nat := 16
/-- Failed CLAIMs after which a WAIT is queued (R115). -/
def claimAttempts : Nat := 4
/-- Number of talk channels (R43). -/
def channels : Nat := 24
/-- Most members of a directory line or a RING (R83, R60). -/
def groupCap : Nat := 4
/-- Longest body a receiver takes before it spoils (R52). -/
def bodyCap : Nat := 160
/-- Highest station address (R1). -/
def maxAddress : Nat := 250
/-- Highest unit number with meaning (R59). -/
def maxUnit : Nat := 9999

end Sys2Proof.Config
end

