-- ==== Sys2Proof/Machine/Operands.lean ====
section
/-! DEFINITION. Operand forms: the byte layouts of frames (R59 to R61) with their check sequence, the kinds' classes and
identities (R47, R60), and the small conversions between bytes and fields that the other files use. -/

namespace Sys2Proof

/-- The byte of a number below 256. -/
def byte (n : Nat) : Byte := BitVec.ofNat 8 n

/-- A yes/no field: 01h or 00h (R175). -/
def flagByte (b : Bool) : Byte := if b then 1#8 else 0#8

/-- Two bytes, most significant first (R59, R175). -/
def wordBytes (u : BitVec 16) : List Byte := [u.extractLsb' 8 8, u.extractLsb' 0 8]

/-- The word of two bytes, most significant first (R59, R175). -/
def wordOf (hi lo : Byte) : BitVec 16 := hi ++ lo

/-- A call id as two bytes (R59, R175). -/
def CallId.bytes (c : CallId) : List Byte := [c.orig, c.seq]

/-- A station address lies in 1..250 (R1, R55). -/
def validAddr (a : Byte) : Bool := 1 ≤ a.toNat && a.toNat ≤ Config.maxAddress

/-- A width is 1, 2 or 4 (R2). -/
def validWidth (w : Nat) : Bool := w == 1 || w == 2 || w == 4

/-- A width or capability field read as a width, any value but 1, 2 and 4 as 1 (R86, R109, R128). -/
def normWidth (w : Byte) : Nat := if validWidth w.toNat then w.toNat else 1

/-- The members of a RING: an address that it carries more than once counts once (R128). They stand in the order of their first places
in the RING, which R128 leaves open (DESIGN CHOICE, notes/assumptions/38.md, unsafe). -/
def distinctMembers (ms : List Byte) : List Byte := ms.foldl (fun seen m => if seen.contains m then seen else seen ++ [m]) []

/-- Kind codes of the frame table (R60). -/
def FrameKind.code : FrameKind → Byte
  | .snapshot => 0x01#8 | .reclaim => 0x02#8 | .join => 0x11#8 | .leave => 0x12#8
  | .seek => 0x21#8 | .offer => 0x22#8 | .ring => 0x31#8 | .answer => 0x32#8 | .refuse => 0x33#8
  | .claim => 0x41#8 | .wait => 0x42#8 | .release => 0x43#8 | .open_ => 0x51#8 | .opened => 0x52#8

/-- Classes of the frame table (R60). -/
def FrameKind.cls : FrameKind → Nat
  | .snapshot => 0 | .reclaim => 0 | .join => 3 | .leave => 3
  | .seek => 3 | .offer => 3 | .ring => 2 | .answer => 2 | .refuse => 2
  | .claim => 1 | .wait => 1 | .release => 1 | .open_ => 2 | .opened => 2

/-- The kind of a frame. -/
def Frame.kind : Frame → FrameKind
  | .snapshot _ _ => .snapshot | .reclaim _ => .reclaim | .join _ _ _ => .join | .leave => .leave
  | .seek _ => .seek | .offer _ _ => .offer | .ring _ _ _ _ _ _ => .ring | .answer _ _ => .answer
  | .refuse _ _ => .refuse | .claim _ _ _ => .claim | .wait _ _ => .wait | .release _ _ => .release
  | .open_ _ => .open_ | .opened _ _ => .opened

/-- The class of a frame, from its kind (R47, R60). -/
def Frame.cls (f : Frame) : Nat := f.kind.cls

/-- What a frame's identity adds to its kind (R47). -/
def Frame.key : Frame → FrameKey
  | .snapshot _ _ => .bare | .leave => .bare
  | .join _ u _ => .unit u | .seek u => .unit u | .offer u _ => .unit u
  | .reclaim c => .call c | .ring c _ _ _ _ _ => .call c | .answer c _ => .call c | .refuse c _ => .call c
  | .claim c _ _ => .call c | .wait c _ => .call c | .release c _ => .call c
  | .open_ c => .call c | .opened c _ => .call c

/-- A frame's identity (R47). -/
def Frame.ident (f : Frame) : FrameId := ⟨f.kind, f.key⟩

/-- The body bytes of one SNAPSHOT hold (R60). -/
def SnapHold.bytes (h : SnapHold) : List Byte := h.cid.bytes ++ [h.base, h.width]

/-- The body bytes of one SNAPSHOT wait entry (R60). -/
def SnapWait.bytes (w : SnapWait) : List Byte := w.cid.bytes ++ [w.wanted]

/-- A frame's body (R60). -/
def Frame.body : Frame → List Byte
  | .snapshot hs ws =>
    byte hs.length :: (hs.flatMap SnapHold.bytes ++ byte ws.length :: ws.flatMap SnapWait.bytes)
  | .reclaim c => c.bytes
  | .join role u w => role :: (wordBytes u ++ [w])
  | .leave => []
  | .seek u => wordBytes u
  | .offer u w => wordBytes u ++ [w]
  | .ring c u w role phase ms => c.bytes ++ wordBytes u ++ [w, role, phase, byte ms.length] ++ ms
  | .answer c w => c.bytes ++ [w]
  | .refuse c r => c.bytes ++ [r]
  | .claim c b w => c.bytes ++ [b, w]
  | .wait c w => c.bytes ++ [w]
  | .release c x => c.bytes ++ [x]
  | .open_ c => c.bytes
  | .opened c r => c.bytes ++ [r]

/-- A frame suits its kind (R60): the counts lie in the table's ranges. -/
def Frame.suits : Frame → Bool
  | .snapshot hs ws => hs.length ≤ Config.channels && ws.length ≤ Config.waitCap
  | .ring _ _ _ _ _ ms => 1 ≤ ms.length && ms.length ≤ Config.groupCap
  | _ => true

/-- `n` holds read from the front of a SNAPSHOT body, with the rest (R60). -/
def parseHolds : Nat → List Byte → Option (List SnapHold × List Byte)
  | 0, bs => some ([], bs)
  | n + 1, a :: s :: b :: w :: bs =>
    match parseHolds n bs with
    | some (hs, rest) => some (⟨⟨a, s⟩, b, w⟩ :: hs, rest)
    | none => none
  | _ + 1, _ => none

/-- `n` wait entries, which must be all that is left of a SNAPSHOT body (R60). -/
def parseWaits : Nat → List Byte → Option (List SnapWait)
  | 0, [] => some []
  | 0, _ :: _ => none
  | n + 1, a :: s :: w :: bs =>
    match parseWaits n bs with
    | some ws => some (⟨⟨a, s⟩, w⟩ :: ws)
    | none => none
  | _ + 1, _ => none

/-- A SNAPSHOT body (R17, R60). -/
def parseSnapshot : List Byte → Option Frame
  | [] => none
  | h :: bs =>
    match parseHolds h.toNat bs with
    | some (hs, k :: rest) =>
      match parseWaits k.toNat rest with
      | some ws => some (.snapshot hs ws)
      | none => none
    | _ => none

/-- A RING body, whose member count agrees with its length (R60). -/
def parseRing : List Byte → Option Frame
  | a :: s :: u1 :: u0 :: w :: role :: phase :: m :: ms =>
    if ms.length = m.toNat then some (.ring ⟨a, s⟩ (wordOf u1 u0) w role phase ms) else none
  | _ => none

/-- The frame of a kind code and a body, where the code is one of the fourteen and the body's length suits it (R55, R60). -/
def parseFrame (code : Byte) (body : List Byte) : Option Frame :=
  let f : Option Frame :=
    if code = FrameKind.snapshot.code then parseSnapshot body
    else if code = FrameKind.ring.code then parseRing body
    else match body with
      | [] => if code = FrameKind.leave.code then some .leave else none
      | [a, b] =>
        if code = FrameKind.reclaim.code then some (.reclaim ⟨a, b⟩)
        else if code = FrameKind.seek.code then some (.seek (wordOf a b))
        else if code = FrameKind.open_.code then some (.open_ ⟨a, b⟩)
        else none
      | [a, b, c] =>
        if code = FrameKind.offer.code then some (.offer (wordOf a b) c)
        else if code = FrameKind.answer.code then some (.answer ⟨a, b⟩ c)
        else if code = FrameKind.refuse.code then some (.refuse ⟨a, b⟩ c)
        else if code = FrameKind.wait.code then some (.wait ⟨a, b⟩ c)
        else if code = FrameKind.release.code then some (.release ⟨a, b⟩ c)
        else if code = FrameKind.opened.code then some (.opened ⟨a, b⟩ c)
        else none
      | [a, b, c, d] =>
        if code = FrameKind.join.code then some (.join a (wordOf b c) d)
        else if code = FrameKind.claim.code then some (.claim ⟨a, b⟩ c d)
        else none
      | _ => none
  f.filter Frame.suits

/-- One bit of the check register: polynomial x^16 + x^12 + x^5 + 1 (R59). -/
def crcBit (r : BitVec 16) : BitVec 16 := if r.msb then (r <<< 1) ^^^ 0x1021#16 else r <<< 1

/-- One byte into the check register (R59). R59 gives the polynomial, the preset and the bytes' order, and no order of a byte's bits:
most significant bit first is the model's choice (DESIGN CHOICE, notes/assumptions/34.md, unsafe). -/
def crcByte (r : BitVec 16) (b : Byte) : BitVec 16 :=
  let r0 := r ^^^ (b ++ 0#8)
  crcBit (crcBit (crcBit (crcBit (crcBit (crcBit (crcBit (crcBit r0)))))))

/-- The check sequence: register preset to FFFFh, result as computed (R59). -/
def checkSequence (bs : List Byte) : BitVec 16 := bs.foldl crcByte 0xFFFF#16

/-- Header and body, bytes 0 to 2 + L (R59). -/
def headerAndBody (sender : Byte) (f : Frame) : List Byte :=
  f.kind.code :: sender :: byte f.body.length :: f.body

/-- The frame as it is sent after the arbitration field (R59). -/
def frameBytes (sender : Byte) (f : Frame) : List Byte :=
  headerAndBody sender f ++ wordBytes (checkSequence (headerAndBody sender f))

/-- The spoil mark's conditions at a receiver, on the bytes received until the band went idle (R52): sender differs from the
arbitration field's, body length above 160, or the check sequence wrong or never complete. -/
def receiverSpoils (arbAddr : Byte) : List Byte → Bool
  | code :: sender :: len :: rest =>
    sender ≠ arbAddr
      || len.toNat > Config.bodyCap
      || rest.length < len.toNat + 2
      || wordBytes (checkSequence (code :: sender :: len :: rest.take len.toNat)) ≠ (rest.drop len.toNat).take 2
  | _ => true

/-- The request codes of R175. -/
def requestCodes : List Byte :=
  [0x01#8, 0x02#8, 0x03#8, 0x10#8, 0x11#8, 0x12#8, 0x13#8, 0x20#8, 0x21#8, 0x22#8, 0x30#8, 0x31#8, 0x32#8, 0x33#8,
   0x34#8, 0x35#8]

end Sys2Proof
end

