-- ==== Sys2Proof/Syntax.lean ====
section
/-! DEFINITION. The commands: one constructor for each row of spec/opcode_table.json, with the row's operands. Commands are
riser events, timer expiries, line changes, station port requests and power-on reset. -/

namespace Sys2Proof

/-- A command, in the table's order. A frame's operands are its body fields as the riser carried them (R60); a request's operand
is its field bytes as the transaction carried them, so their number is the length byte L (R173). -/
inductive Instr where
  /-- RESET_N asserted and released (R81). -/
  | powerOnReset
  /-- Riser supply falls below the loss threshold (R44). -/
  | supplyFalls
  /-- Riser supply rises above the threshold (R44). -/
  | supplyRises
  /-- The loss timer expires (R44). -/
  | supplyLossTimerExpiry
  /-- The return timer expires (R44). -/
  | returnTimerExpiry
  /-- One idle gap after entry into LEARNING; `aHigher` is whether RISER_A is the higher line (R45). -/
  | polarityFound (aHigher : Bool)
  /-- An opening begins; `other` is the lowest key any other station sends in it, and `unreached` is how many of this
  station's newest queue entries had not reached RIF when it began (R49, R50). -/
  | opening (other : Option ArbKey) (unreached : Nat)
  /-- A byte read back differs from the byte sent (R57). -/
  | readBackMismatch
  /-- A spoil mark is seen in a closing window; `arbAddr` and `received` are the arbitration field's address and the bytes
  this station received, read where it was not the sender (R52, R53). -/
  | frameSpoiled (arbAddr : Byte) (received : List Byte)
  /-- The recall of the named frame reaches RIF, or its held answer reaches the requesting block (R56). -/
  | recallAnswered (id : FrameId)
  /-- A frame of unknown kind, out-of-range sender or unsuited length is taken (R55). -/
  | unsuitedFrameTaken (sender kind : Byte) (body : List Byte)
  /-- A SNAPSHOT is taken (R67, R72). -/
  | snapshotTaken (sender : Byte) (holds : List SnapHold) (waits : List SnapWait)
  /-- A RECLAIM is taken (R11). -/
  | reclaimTaken (sender : Byte) (c : CallId)
  /-- A JOIN is taken (R70, R86). -/
  | joinTaken (sender role : Byte) (unit : UnitNum) (capability : Byte)
  /-- A LEAVE is taken (R77, R89). -/
  | leaveTaken (sender : Byte)
  /-- A SEEK is taken (R94). -/
  | seekTaken (sender : Byte) (unit : UnitNum)
  /-- An OFFER is taken (R88). -/
  | offerTaken (sender : Byte) (unit : UnitNum) (capability : Byte)
  /-- A RING is taken (R107, R128). -/
  | ringTaken (sender : Byte) (c : CallId) (unit : UnitNum) (wanted role phase : Byte) (members : List Byte)
  /-- An ANSWER is taken (R109, R135, R136). -/
  | answerTaken (sender : Byte) (c : CallId) (capability : Byte)
  /-- A REFUSE is taken (R108). -/
  | refuseTaken (sender : Byte) (c : CallId) (reason : Byte)
  /-- A CLAIM is taken (R6). -/
  | claimTaken (sender : Byte) (c : CallId) (base width : Byte)
  /-- A WAIT is taken (R26). -/
  | waitTaken (sender : Byte) (c : CallId) (wanted : Byte)
  /-- A RELEASE is taken (R9). -/
  | releaseTaken (sender : Byte) (c : CallId) (cause : Byte)
  /-- An OPEN is taken (R167). -/
  | openTaken (sender : Byte) (c : CallId)
  /-- An OPENED is taken (R166). -/
  | openedTaken (sender : Byte) (c : CallId) (result : Byte)
  /-- The learn timer expires (R68). -/
  | learnTimerExpiry
  /-- The snapshot stagger timer expires (R71). -/
  | staggerTimerExpiry
  /-- The audit of the hold or wait entry of `c` expires (R35). -/
  | auditExpiry (c : CallId)
  /-- The window of the seek record for `unit` expires (R95). -/
  | seekWindowExpiry (unit : UnitNum)
  /-- The ring timer of a context expires (R110). -/
  | ringTimerExpiry (ref : Ref)
  /-- The wait timer of a context expires (R117). -/
  | waitTimerExpiry (ref : Ref)
  /-- The talk timer of a context expires (R118). -/
  | talkTimerExpiry (ref : Ref)
  /-- The alert limit of a context expires (R133). -/
  | alertLimitExpiry (ref : Ref)
  /-- The path wait of a context expires (R137). -/
  | pathWaitExpiry (ref : Ref)
  /-- The detector of one half of one channel now senses carrier or none (R146). -/
  | carrierDetectorChange (half : Half) (channel : Channel) (present : Bool)
  /-- The settle timer of a path record expires (R150, R151). -/
  | settleTimerExpiry (ref : Ref)
  /-- The unmute timer of a path record expires (R152). -/
  | unmuteTimerExpiry (ref : Ref)
  /-- The loss timer of one channel of a path record expires (R153). -/
  | carrierLossTimerExpiry (ref : Ref) (channel : Channel)
  /-- The mute timer of a path record expires (R156). -/
  | muteTimerExpiry (ref : Ref)
  /-- A key's input takes a level (R163). -/
  | keyInputChange (key : Key) (active : Bool)
  /-- A key's debounce timer expires (R163). -/
  | debounceTimerExpiry (key : Key)
  /-- The reply wait of a context's door request expires (R166). -/
  | replyWaitExpiry (ref : Ref)
  /-- The strike pulse expires (R168). -/
  | strikePulseExpiry
  /-- The ringer's cadence phase expires (R169). -/
  | ringerPhaseExpiry
  /-- The sample that completes a run of active samples of one fault input (R170, R171). -/
  | faultQualifies (kind : FaultKind)
  /-- CONFIGURE request (R178). -/
  | configure (fields : List Byte)
  /-- JOIN request (R64). -/
  | join (fields : List Byte)
  /-- RESTART request (R75). -/
  | restart (fields : List Byte)
  /-- DIAL request (R103). -/
  | dial (fields : List Byte)
  /-- ANSWER request (R134). -/
  | answer (fields : List Byte)
  /-- HANGUP request (R122, R141). -/
  | hangup (fields : List Byte)
  /-- OPEN_DOOR request (R165). -/
  | openDoor (fields : List Byte)
  /-- SET_DND request (R179). -/
  | setDnd (fields : List Byte)
  /-- CLEAR_FAULT request (R172). -/
  | clearFault (fields : List Byte)
  /-- PURGE request (R98). -/
  | purge (fields : List Byte)
  /-- READ_NOTICE request (R181). -/
  | readNotice (fields : List Byte)
  /-- The last byte of a READ_NOTICE answer has been clocked out (R181). -/
  | noticeRemoved
  /-- READ_STATUS request (R184). -/
  | readStatus (fields : List Byte)
  /-- The last byte of a READ_STATUS answer has been clocked out (R184). -/
  | overflowFlagCleared
  /-- READ_SLOTS request (R23). -/
  | readSlots (fields : List Byte)
  /-- READ_WAITS request (R42). -/
  | readWaits (fields : List Byte)
  /-- READ_LINE request (R98). -/
  | readLine (fields : List Byte)
  /-- READ_CONTEXT request (R185). -/
  | readContext (fields : List Byte)
  /-- A request whose code names no request of R175 (R174). -/
  | unknownRequest (code : Byte) (fields : List Byte)
  /-- SEL rises before the request phase is complete (R173). -/
  | transactionDiscarded
  /-- The millisecond's sample of STRIKE_FLT and RINGER_FLT (R170). -/
  | faultSample (strikeActive ringerActive : Bool)
deriving DecidableEq, Repr

end Sys2Proof
end

