-- ==== Sys2Proof/WellFormed.lean ====
section
/-! DEFINITION. Which commands are well formed: a taken frame has a sender and counts that suit its kind (a frame that has not
is an UNSUITED_FRAME_TAKEN, R55), a request's fields fit its length byte (R173), and an unknown request's code is unknown. -/

namespace Sys2Proof

/-- A frame of this sender and fields is taken by the blocks and not ignored (R55). -/
def takenFrameWf (sender : Byte) (f : Frame) : Bool := validAddr sender && f.suits

/-- A request's field bytes fit the one length byte (R173). -/
def fieldsWf (fields : List Byte) : Bool := fields.length ≤ 255

/-- The command could be given: its operands are in the ranges its row and its rule give. -/
def Instr.wf : Instr → Bool
  | .powerOnReset => true
  | .supplyFalls => true
  | .supplyRises => true
  | .supplyLossTimerExpiry => true
  | .returnTimerExpiry => true
  | .polarityFound _ => true
  | .opening _ _ => true
  | .readBackMismatch => true
  | .frameSpoiled _ received => received.length ≤ Config.bodyCap + 5
  | .recallAnswered _ => true
  | .unsuitedFrameTaken sender kind body => !(validAddr sender && (parseFrame kind body).isSome)
  | .snapshotTaken s hs ws => takenFrameWf s (.snapshot hs ws)
  | .reclaimTaken s c => takenFrameWf s (.reclaim c)
  | .joinTaken s r u w => takenFrameWf s (.join r u w)
  | .leaveTaken s => takenFrameWf s .leave
  | .seekTaken s u => takenFrameWf s (.seek u)
  | .offerTaken s u w => takenFrameWf s (.offer u w)
  | .ringTaken s c u w r p ms => takenFrameWf s (.ring c u w r p ms)
  | .answerTaken s c w => takenFrameWf s (.answer c w)
  | .refuseTaken s c r => takenFrameWf s (.refuse c r)
  | .claimTaken s c b w => takenFrameWf s (.claim c b w)
  | .waitTaken s c w => takenFrameWf s (.wait c w)
  | .releaseTaken s c x => takenFrameWf s (.release c x)
  | .openTaken s c => takenFrameWf s (.open_ c)
  | .openedTaken s c r => takenFrameWf s (.opened c r)
  | .learnTimerExpiry => true
  | .staggerTimerExpiry => true
  | .auditExpiry c => validAddr c.orig
  | .seekWindowExpiry u => u.toNat ≤ Config.maxUnit
  | .ringTimerExpiry _ => true
  | .waitTimerExpiry _ => true
  | .talkTimerExpiry _ => true
  | .alertLimitExpiry _ => true
  | .pathWaitExpiry _ => true
  | .carrierDetectorChange _ _ _ => true
  | .settleTimerExpiry _ => true
  | .unmuteTimerExpiry _ => true
  | .carrierLossTimerExpiry _ _ => true
  | .muteTimerExpiry _ => true
  | .keyInputChange _ _ => true
  | .debounceTimerExpiry _ => true
  | .replyWaitExpiry _ => true
  | .strikePulseExpiry => true
  | .ringerPhaseExpiry => true
  | .faultQualifies _ => true
  | .configure fs => fieldsWf fs
  | .join fs => fieldsWf fs
  | .restart fs => fieldsWf fs
  | .dial fs => fieldsWf fs
  | .answer fs => fieldsWf fs
  | .hangup fs => fieldsWf fs
  | .openDoor fs => fieldsWf fs
  | .setDnd fs => fieldsWf fs
  | .clearFault fs => fieldsWf fs
  | .purge fs => fieldsWf fs
  | .readNotice fs => fieldsWf fs
  | .noticeRemoved => true
  | .readStatus fs => fieldsWf fs
  | .overflowFlagCleared => true
  | .readSlots fs => fieldsWf fs
  | .readWaits fs => fieldsWf fs
  | .readLine fs => fieldsWf fs
  | .readContext fs => fieldsWf fs
  | .unknownRequest code fs => fieldsWf fs && !(requestCodes.contains code)
  | .transactionDiscarded => true
  | .faultSample _ _ => true

end Sys2Proof
end

