-- ==== Sys2Proof/Machine/State.lean ====
section
/-! DEFINITION. The state of one station, block by block as the spec names it, as plain data, and the state after reset. Times
are readings of the clock `now` in milliseconds; a timer is `none` while stopped and its expiry while running. -/

namespace Sys2Proof.Machine

/-- A timer: stopped, or running to an expiry time. -/
abbrev Timer := Option Nat

/-- Station roles (R61). -/
inductive Role where
  | entry | unit | desk
deriving DecidableEq, Repr

/-- Station states (R62). -/
inductive StationState where
  | unconfigured | configured | learning | joined | leaving | isolated
deriving DecidableEq, Repr

/-- Settle modes (R150, R151). -/
inductive SettleMode where
  | carrier | timed40 | timed80 | timed160
deriving DecidableEq, Repr

/-- Attention modes (R182). -/
inductive AttnMode where
  | single | split
deriving DecidableEq, Repr

/-- The configuration record (R177). Times are in seconds. -/
structure ConfigRecord where
  role         : Role
  address      : Byte
  unit         : UnitNum
  capability   : Byte
  lower        : UnitNum
  upper        : UnitNum
  ringTime     : Nat
  forward      : Bool
  waitLimit    : Nat
  talkLimit    : Nat
  settle       : SettleMode
  strikePulse  : Nat
  faultSamples : Nat
  attn         : AttnMode
deriving DecidableEq, Repr

/-- The power-on record (R177). -/
def ConfigRecord.powerOn : ConfigRecord :=
  { role := .unit, address := 0#8, unit := 0#16, capability := 1#8, lower := 1#16, upper := 9999#16, ringTime := 30,
    forward := true, waitLimit := 30, talkLimit := 180, settle := .carrier, strikePulse := 5, faultSamples := 6,
    attn := .single }

/-! ### RIF -/

/-- Supply status (R44). -/
inductive Supply where
  | lost | present
deriving DecidableEq, Repr

/-- Polarity status (R45). -/
inductive Polarity where
  | unknown | normal | swapped
deriving DecidableEq, Repr

/-- Carriage of a queue entry (R47). -/
inductive Carriage where
  | waiting | carrying
deriving DecidableEq, Repr

/-- A transmit queue entry (R47). Class, queuing block and identity follow from the frame. -/
structure Entry where
  frame    : Frame
  attempts : Nat
  carriage : Carriage
deriving DecidableEq, Repr

/-- RIF's answers to a recall (R56). -/
inductive RecallAnswer where
  | recalled | tooLate
deriving DecidableEq, Repr

/-- Where an asked recall stands: on its way to RIF, held there until the carriage ends, or answered and on its way back. -/
inductive RecallStatus where
  | asked | held
  | answered (a : RecallAnswer)
deriving DecidableEq, Repr

/-- An outstanding recall (R56). -/
structure Recall where
  id     : FrameId
  status : RecallStatus
deriving DecidableEq, Repr

/-- RIF has not answered the recall yet: it is on its way there, or held there (R56). -/
def Recall.isOpen (r : Recall) : Bool :=
  match r.status with
  | .asked => true
  | .held => true
  | .answered _ => false

/-- The riser interface (R44, R45, R47, R56). `spoilMark` is the mark this station drove in the latest spoiled closing window (R52). -/
structure Rif where
  supply      : Supply
  lossTimer   : Timer
  returnTimer : Timer
  polarity    : Polarity
  queue       : List Entry
  recalls     : List Recall
  spoilMark   : Bool
deriving DecidableEq, Repr

/-! ### SMU -/

/-- An item's audit (R24, R34 to R36). -/
inductive Audit where
  | armed (expiry : Nat)
  | overdue
  | reclaimQueued
deriving DecidableEq, Repr

/-- A time at which an item came into the copy: the clock, and the number of the event, which orders events of one clock reading. -/
structure Stamp where
  ms    : Nat
  event : Nat
deriving DecidableEq, Repr

/-- A hold record (R1). -/
structure Hold where
  cid   : CallId
  base  : Nat
  width : Nat
  age   : Stamp
  audit : Audit
deriving DecidableEq, Repr

/-- A wait entry (R24). -/
structure WaitEntry where
  cid    : CallId
  wanted : Nat
  age    : Stamp
  audit  : Audit
deriving DecidableEq, Repr

/-- The copy: hold records by ascending base and the wait list, oldest first (R1, R24). The channel entries are read from the holds. -/
structure Smu where
  holds : List Hold
  waits : List WaitEntry
deriving DecidableEq, Repr

/-! ### STC -/

/-- Learn outcomes (R81). -/
inductive LearnOutcome where
  | none | snapshot | empty
deriving DecidableEq, Repr

/-- The station controller (R62, R63, R66, R81, R82). -/
structure Stc where
  state    : StationState
  locked   : Bool
  buffer   : List (Byte × Frame)
  learn    : Timer
  stagger  : Timer
  outcome  : LearnOutcome
  sequence : Byte
deriving DecidableEq, Repr

/-! ### UDIR -/

/-- A member entry of a directory line (R83). -/
structure Member where
  addr : Byte
  cap  : Byte
deriving DecidableEq, Repr

/-- A valid directory line: its tag and members in the order learned (R83). -/
structure DirLine where
  unit    : UnitNum
  members : List Member
deriving DecidableEq, Repr

/-- State of a seek record (R92). -/
inductive SeekState where
  | pending | queued
  | opened (expiry : Nat)
deriving DecidableEq, Repr

/-- A seek record (R92). -/
structure Seek where
  unit  : UnitNum
  state : SeekState
  refs  : List Ref
deriving DecidableEq, Repr

/-- The pending OFFER (R97). -/
inductive OfferState where
  | none | pending | queued
deriving DecidableEq, Repr

/-- The unit directory (R83, R92, R97). An invalid line is `none`. -/
structure Udir where
  lines : Vector (Option DirLine) 64
  seeks : List Seek
  offer : OfferState
deriving DecidableEq, Repr

/-! ### CENG -/

/-- Side of a context (R100). -/
inductive Side where
  | origin | answer
deriving DecidableEq, Repr

/-- Context states of both sides (R102, R127). -/
inductive CtxState where
  | seeking | ringing | claiming | waiting | settling | talk | clearing | alerting | answering | awaitPath
deriving DecidableEq, Repr

/-- Why the last CLAIM failed (R100). -/
inductive ClaimReason where
  | notFree | malformed | duplicate | dropped
deriving DecidableEq, Repr

/-- State of the forward to the desk group (R100). -/
inductive Forward where
  | none | seeking | queued | narrowing
deriving DecidableEq, Repr

/-- End causes (R61). -/
inductive Cause where
  | hungUp | peerHungUp | noAnswer | busy | dnd | unknownUnit | congested | pathTimeout | pathFault | noCarrier | carrierLost
  | timeLimit | reclaimed | lostPath | sendFailed | isolated | restart | cancelled | answeredElsewhere | forwarded | stale
deriving DecidableEq, Repr

/-- What a context in CLEARING waits for: `release` its RELEASE's fate (R123); `pathOff` PATH's "transmitters off" (R121 step 4,
R140 step 3); `ringFate` the fate of its direct RING (R121 step 5); `frameRecall` the recall of a CLAIM or WAIT after its end
(R120); `answerRecall` the recall of its ANSWER (R140). -/
inductive Awaits where
  | nothing | release | pathOff | ringFate | frameRecall | answerRecall
deriving DecidableEq, Repr

/-- A live call context (R100, R127). `awaits`, `endPosted` and `alertedAt` hold what R113, R120, R121, R123, R134 and R140 imply. -/
structure Ctx where
  side       : Side
  cid        : CallId
  state      : CtxState
  peerUnit   : UnitNum := 0#16
  members    : List Byte := []
  refused    : List (Byte × Byte) := []
  answerer   : Option Byte := none
  origAddr   : Byte := 0#8
  origRole   : Byte := 0#8
  wanted     : Nat := 0
  path       : Option (Nat × Nat) := none
  trimmed    : Bool := false
  attempts   : Nat := 0
  lastReason : Option ClaimReason := none
  ringPhase  : Nat := 0
  announced  : Bool := false
  forward    : Forward := .none
  reversible : Bool := false
  superseded : Bool := false
  cause      : Option Cause := none
  ring       : Timer := none
  wait       : Timer := none
  talk       : Timer := none
  alert      : Timer := none
  pathWait   : Timer := none
  awaits     : Awaits := .nothing
  endPosted  : Bool := false
  alertedAt  : Nat := 0
deriving DecidableEq, Repr

/-! ### PATH -/

/-- What an enabled transmitter sends (R147). -/
inductive Content where
  | stream | silence
deriving DecidableEq, Repr

/-- A transmit enable that is ON (R147). -/
structure Enable where
  ref     : Ref
  half    : Half
  content : Content
deriving DecidableEq, Repr

/-- Stage of a path record (R147). -/
inductive Stage where
  | settle | unmute | opened | mute
deriving DecidableEq, Repr

/-- A path record (R147). Place k of `loss` is the loss timer of channel base + k. -/
structure PathRec where
  base        : Nat
  width       : Nat
  sendHalf    : Half
  trimmed     : Bool
  stage       : Stage
  settleTimer : Timer
  unmuteTimer : Timer
  muteTimer   : Timer
  loss        : Vector Timer 4
  order       : Stamp
deriving DecidableEq, Repr

/-- The path unit (R146, R147). `fwd` and `ret` are the carrier detectors' reports, true for PRESENT; `gate` is true for OPEN. -/
structure Path where
  enables : Vector (Option Enable) 24
  recs    : Vector (Option PathRec) 4
  owner   : Option Ref
  gate    : Bool
  rate    : Nat
  fwd     : Vector Bool 24
  ret     : Vector Bool 24
deriving DecidableEq, Repr

/-! ### OKU -/

/-- A debounced key: its state (true for ACTIVE) and its debounce timer (R162). -/
structure KeyState where
  active : Bool
  timer  : Timer
deriving DecidableEq, Repr

/-- The ringer state (R162). -/
inductive Ringer where
  | silent
  | cadence (on : Bool) (expiry : Nat)
deriving DecidableEq, Repr

/-- One fault input: its counter, its sticky status (true for SET), and its latest sample (true for active) (R162, R172). -/
structure FaultInput where
  counter : Nat
  sticky  : Bool
  sample  : Bool
deriving DecidableEq, Repr

/-- The output and key unit (R162). `strike` is `none` for IDLE and the pulse expiry for ENERGIZED; `door` holds the reply wait
expiry of a PENDING door request record. -/
structure Oku where
  hook        : KeyState
  doorKey     : KeyState
  deskKey     : KeyState
  strike      : Timer
  ringer      : Ringer
  alerting    : Vector Bool 4
  strikeFault : FaultInput
  ringerFault : FaultInput
  door        : Vector Timer 4
deriving DecidableEq, Repr

/-! ### SPORT -/

/-- Results of a door request (R183). -/
inductive DoorResult where
  | energized | fault | notInTalk | noReply
deriving DecidableEq, Repr

/-- Fault kinds of the FAULT notice (R183). -/
inductive FaultNotice where
  | strike | ringer | conflict
deriving DecidableEq, Repr

/-- Reasons of the STATION notice (R62). -/
inductive StationReason where
  | configured | joinRequested | learned | restartRequested | left | riserLost | riserReturned | conflict
deriving DecidableEq, Repr

/-- Reasons of the LEARN_RESTART notice (R66). -/
inductive LearnReason where
  | overflow | joinDropped
deriving DecidableEq, Repr

/-- The new state and its detail in a CALL_STATE notice (R126, R145, R183). -/
inductive CallDetail where
  | seeking (unit : UnitNum)
  | ringing (phase members : Nat) (forward : Bool)
  | claiming (answerer : Byte) (wanted : Nat)
  | waiting (position : Nat)
  | settling (base width : Nat) (trimmed : Bool)
  | answering (capability : Byte)
  | awaitPath
deriving DecidableEq, Repr

/-- A notice record (R180, R183). -/
inductive Notice where
  | incoming (ref : Ref) (c : CallId) (origAddr origRole : Byte) (unit : UnitNum) (phase wanted : Nat)
  | callState (ref : Ref) (c : CallId) (detail : CallDetail)
  | path (ref : Ref) (c : CallId) (base width : Nat) (trimmed owned : Bool)
  | callEnded (ref : Ref) (c : CallId) (cause : Option Cause)
  | door (ref : Option Ref) (c : CallId) (result : DoorResult) (sender : Byte)
  | fault (kind : FaultNotice) (energized : Bool)
  | station (previous new : StationState) (reason : StationReason)
  | divergence (sender : Byte) (copyHolds copyWaits snapHolds snapWaits : Nat)
  | learnRestart (reason : LearnReason)
  | sendFailed (ref : Ref) (c : CallId) (kind : FrameKind)
deriving DecidableEq, Repr

/-- Status byte of an answer (R175). -/
inductive Status where
  | accepted | notConfigured | locked | badValue | busy | notJoined | noContext | inCall | outOfRange | notPermitted | badRef
  | wrongState | stillPresent | unknownRequest
deriving DecidableEq, Repr

/-- An answer record: status and field bytes (R173, R175). -/
structure Answer where
  status : Status
  fields : List Byte
deriving DecidableEq, Repr

/-- The effect tied to the last byte of an answer: none, the removal of the notice given (R181), or the clearing of the overflow
flag unless a posting was dropped after the decode (R184). -/
inductive Tail where
  | nothing
  | removeNotice
  | clearOverflow (droppedSince : Bool)
deriving DecidableEq, Repr

/-- A decoded transaction: its answer record and what its last byte still does (R173). -/
structure Transaction where
  answer : Answer
  tail   : Tail
deriving DecidableEq, Repr

/-- The station port (R177, R179, R180, R182). -/
structure Sport where
  config      : ConfigRecord
  notices     : List Notice
  overflow    : Bool
  dnd         : Bool
  attn0       : Bool
  attn1       : Bool
  transaction : Option Transaction
deriving DecidableEq, Repr

/-- The inputs that stand outside the part: riser supply above the threshold, and the three key inputs (true for active). -/
structure Pins where
  supply  : Bool
  hook    : Bool
  doorKey : Bool
  deskKey : Bool
deriving DecidableEq, Repr

/-- One station: the clock, the event number, the pins, the eight blocks, and the commands that wait. -/
structure State where
  now     : Nat
  eventNo : Nat
  pins    : Pins
  rif     : Rif
  smu     : Smu
  stc     : Stc
  udir    : Udir
  ctxs    : Vector (Option Ctx) 4
  path    : Path
  oku     : Oku
  sport   : Sport
  pending : List Instr
deriving DecidableEq, Repr

/-- No command stops the machine with a fault: what the spec calls a fault is an effect on State (R80, R171). -/
inductive Fault where
deriving DecidableEq, Repr

/-- Why a command has no meaning. -/
inductive Refusal where
  /-- Raised by an arm of exec for a command that the model does not give a meaning yet; safe. No arm raises it. -/
  | notModelled (mnemonic : String)
deriving DecidableEq, Repr

/-- The state right after reset. Every block is as the spec gives it after power-on reset; the supply pin is below the threshold
and the key inputs are inactive, so no timer has started (DESIGN CHOICE, notes/assumptions/5.md, unsafe). -/
def State.reset : State where
  now := 0
  eventNo := 0
  pins := { supply := false, hook := false, doorKey := false, deskKey := false }
  rif := { supply := .lost, lossTimer := none, returnTimer := none, polarity := .unknown, queue := [], recalls := [],
           spoilMark := false }
  smu := { holds := [], waits := [] }
  stc := { state := .unconfigured, locked := false, buffer := [], learn := none, stagger := none, outcome := .none,
           sequence := 0#8 }
  udir := { lines := Vector.replicate 64 none, seeks := [], offer := .none }
  ctxs := Vector.replicate 4 none
  path := { enables := Vector.replicate 24 none, recs := Vector.replicate 4 none, owner := none, gate := false, rate := 1,
            fwd := Vector.replicate 24 false, ret := Vector.replicate 24 false }
  oku := { hook := { active := false, timer := none }, doorKey := { active := false, timer := none },
           deskKey := { active := false, timer := none }, strike := none, ringer := .silent,
           alerting := Vector.replicate 4 false,
           strikeFault := { counter := 0, sticky := false, sample := false },
           ringerFault := { counter := 0, sticky := false, sample := false },
           door := Vector.replicate 4 none }
  sport := { config := .powerOn, notices := [], overflow := false, dnd := false, attn0 := false, attn1 := false,
             transaction := none }
  pending := []

end Sys2Proof.Machine
end

