-- ==== Sys2Proof/Machine/Flags.lean ====
section
/-! DEFINITION. Flags, status lines and code tables: the codes of the coded fields (R61, R175, R183), the attention lines (R182),
and the views the spec gives of stored state (the STRIKE and RINGER outputs, the role limit). -/

namespace Sys2Proof.Machine

/-! ### Codes -/

/-- Role codes (R61). -/
def Role.code : Role → Byte
  | .entry => 0x00#8 | .unit => 0x01#8 | .desk => 0x02#8

/-- The role of a code, none for any other value (R61). -/
def Role.ofCode (b : Byte) : Option Role :=
  if b = 0x00#8 then some .entry else if b = 0x01#8 then some .unit else if b = 0x02#8 then some .desk else none

/-- End causes in the order of their codes, 01h to 15h (R61). -/
def causeTable : List Cause :=
  [.hungUp, .peerHungUp, .noAnswer, .busy, .dnd, .unknownUnit, .congested, .pathTimeout, .pathFault, .noCarrier, .carrierLost,
   .timeLimit, .reclaimed, .lostPath, .sendFailed, .isolated, .restart, .cancelled, .answeredElsewhere, .forwarded, .stale]

/-- Cause codes (R61). -/
def Cause.code : Cause → Byte
  | .hungUp => 0x01#8 | .peerHungUp => 0x02#8 | .noAnswer => 0x03#8 | .busy => 0x04#8 | .dnd => 0x05#8
  | .unknownUnit => 0x06#8 | .congested => 0x07#8 | .pathTimeout => 0x08#8 | .pathFault => 0x09#8 | .noCarrier => 0x0A#8
  | .carrierLost => 0x0B#8 | .timeLimit => 0x0C#8 | .reclaimed => 0x0D#8 | .lostPath => 0x0E#8 | .sendFailed => 0x0F#8
  | .isolated => 0x10#8 | .restart => 0x11#8 | .cancelled => 0x12#8 | .answeredElsewhere => 0x13#8 | .forwarded => 0x14#8
  | .stale => 0x15#8

/-- The cause of a code, none for an unknown value (R61). -/
def Cause.ofCode (b : Byte) : Option Cause := causeTable.find? (fun x => x.code = b)

/-- An end cause field, 00h for none (R175). -/
def causeByte : Option Cause → Byte
  | some x => x.code
  | none => 0x00#8

/-- The cause with which a taken RELEASE ends the other party's context: PEER_HUNG_UP for HUNG_UP or an unknown value, and the
frame's cause otherwise (R120, R139). -/
def peerCause (b : Byte) : Cause :=
  match Cause.ofCode b with
  | none => .peerHungUp
  | some .hungUp => .peerHungUp
  | some x => x

/-- REFUSE reasons (R61). -/
def refuseDnd : Byte := 0x01#8
/-- REFUSE reason IN_CALL (R61). -/
def refuseInCall : Byte := 0x02#8
/-- REFUSE reason NO_CONTEXT (R61). -/
def refuseNoContext : Byte := 0x03#8
/-- REFUSE reason WRONG_ROLE (R61). -/
def refuseWrongRole : Byte := 0x04#8

/-- Result codes of OPENED and of the DOOR notice (R61, R183). -/
def DoorResult.code : DoorResult → Byte
  | .energized => 0x01#8 | .fault => 0x02#8 | .notInTalk => 0x03#8 | .noReply => 0x04#8

/-- The result an OPENED carries, none for a value R166 ignores. -/
def DoorResult.ofOpened (b : Byte) : Option DoorResult :=
  if b = 0x01#8 then some .energized else if b = 0x02#8 then some .fault
  else if b = 0x03#8 then some .notInTalk else none

/-- Status bytes (R175). -/
def Status.code : Status → Byte
  | .accepted => 0x00#8 | .notConfigured => 0x01#8 | .locked => 0x02#8 | .badValue => 0x03#8 | .busy => 0x04#8
  | .notJoined => 0x05#8 | .noContext => 0x06#8 | .inCall => 0x07#8 | .outOfRange => 0x08#8 | .notPermitted => 0x09#8
  | .badRef => 0x0A#8 | .wrongState => 0x0B#8 | .stillPresent => 0x0C#8 | .unknownRequest => 0x0D#8

/-- Station state codes (R175). -/
def StationState.code : StationState → Byte
  | .unconfigured => 0x00#8 | .configured => 0x01#8 | .learning => 0x02#8 | .joined => 0x03#8 | .leaving => 0x04#8
  | .isolated => 0x05#8

/-- Context state codes (R175). -/
def CtxState.code : CtxState → Byte
  | .seeking => 0x01#8 | .ringing => 0x02#8 | .claiming => 0x03#8 | .waiting => 0x04#8 | .settling => 0x05#8
  | .talk => 0x06#8 | .clearing => 0x07#8 | .alerting => 0x08#8 | .answering => 0x09#8 | .awaitPath => 0x0A#8

/-- Side codes (R175). -/
def Side.code : Side → Byte
  | .origin => 0x01#8 | .answer => 0x02#8

/-- Polarity codes (R175). -/
def Polarity.code : Polarity → Byte
  | .unknown => 0x00#8 | .normal => 0x01#8 | .swapped => 0x02#8

/-- Supply status codes (R175). -/
def Supply.code : Supply → Byte
  | .lost => 0x00#8 | .present => 0x01#8

/-- Learn outcome codes (R175). -/
def LearnOutcome.code : LearnOutcome → Byte
  | .none => 0x00#8 | .snapshot => 0x01#8 | .empty => 0x02#8

/-- Audit state codes (R175). -/
def Audit.code : Audit → Byte
  | .armed _ => 0x00#8 | .overdue => 0x01#8 | .reclaimQueued => 0x02#8

/-- Path stage codes, 00h NONE for no record (R175). -/
def stageByte : Option Stage → Byte
  | none => 0x00#8 | some .settle => 0x01#8 | some .unmute => 0x02#8 | some .opened => 0x03#8 | some .mute => 0x04#8

/-- Last claim reason codes (R185). -/
def claimReasonByte : Option ClaimReason → Byte
  | none => 0x00#8 | some .notFree => 0x01#8 | some .malformed => 0x02#8 | some .duplicate => 0x03#8
  | some .dropped => 0x04#8

/-- Forward codes (R185). -/
def Forward.code : Forward → Byte
  | .none => 0x00#8 | .seeking => 0x01#8 | .queued => 0x02#8 | .narrowing => 0x03#8

/-- STATION reason codes (R183). -/
def StationReason.code : StationReason → Byte
  | .configured => 0x01#8 | .joinRequested => 0x02#8 | .learned => 0x03#8 | .restartRequested => 0x04#8 | .left => 0x05#8
  | .riserLost => 0x06#8 | .riserReturned => 0x07#8 | .conflict => 0x08#8

/-- LEARN_RESTART reason codes (R183). -/
def LearnReason.code : LearnReason → Byte
  | .overflow => 0x01#8 | .joinDropped => 0x02#8

/-- FAULT kind codes (R183). -/
def FaultNotice.code : FaultNotice → Byte
  | .strike => 0x01#8 | .ringer => 0x02#8 | .conflict => 0x03#8

/-- Notice kind codes (R183). -/
def Notice.code : Notice → Byte
  | .incoming .. => 0x01#8 | .callState .. => 0x02#8 | .path .. => 0x03#8 | .callEnded .. => 0x04#8 | .door .. => 0x05#8
  | .fault .. => 0x06#8 | .station .. => 0x07#8 | .divergence .. => 0x08#8 | .learnRestart .. => 0x09#8
  | .sendFailed .. => 0x0A#8

/-! ### Attention lines -/

/-- Call-class notices; every other kind is station-class (R182). -/
def Notice.callClass : Notice → Bool
  | .incoming .. => true | .callState .. => true | .path .. => true | .callEnded .. => true | .door .. => true
  | .fault .. => false | .station .. => false | .divergence .. => false | .learnRestart .. => false | .sendFailed .. => false

/-- ATTN0 as the mode and the queue give it (R182). -/
def attn0Of (m : AttnMode) (q : List Notice) : Bool :=
  match m with
  | .single => !q.isEmpty
  | .split => q.any Notice.callClass

/-- ATTN1 as the mode and the queue give it (R182). -/
def attn1Of (m : AttnMode) (q : List Notice) : Bool :=
  match m with
  | .single => false
  | .split => q.any (fun n => !n.callClass)

/-- The lines recomputed from the queue and the mode (R182). -/
def Sport.recompute (p : Sport) : Sport :=
  { p with attn0 := attn0Of p.config.attn p.notices, attn1 := attn1Of p.config.attn p.notices }

/-- A posting dropped while a READ_STATUS answer is being clocked out keeps the overflow flag set (R184). -/
def markDropped : Option Transaction → Option Transaction
  | some ⟨a, .clearOverflow _⟩ => some ⟨a, .clearOverflow true⟩
  | t => t

/-! ### Views -/

/-- STRIKE is on while the strike state is ENERGIZED (R168). -/
def Oku.strikeOn (o : Oku) : Bool := o.strike.isSome

/-- RINGER is on in an ON phase of the cadence while the ringer fault status is CLEAR (R169). -/
def Oku.ringerOn (o : Oku) : Bool :=
  match o.ringer with
  | .silent => false
  | .cadence on _ => on && !o.ringerFault.sticky

/-- The role limit of live contexts (R101). -/
def Role.limit : Role → Nat
  | .entry => 2 | .unit => 2 | .desk => 4

/-- States in which the record is locked (R63). -/
def StationState.locks : StationState → Bool
  | .unconfigured => false | .configured => false | .learning => true | .joined => true | .leaving => true | .isolated => true

/-- States in which RIF accepts queue requests (R46, R58). -/
def StationState.sends : StationState → Bool
  | .unconfigured => false | .configured => false | .learning => true | .joined => true | .leaving => true | .isolated => false

end Sys2Proof.Machine
end

