-- ==== Sys2Proof/Machine/Ops.lean ====
section
/-! DEFINITION. The shared operations: the clock and event number, contexts, notices, and RIF's transmit queue with its recalls.
A block has no exception entry; reports between blocks are calls of these operations and of the block files'. -/

namespace Sys2Proof.Machine

/-! ### Clock and events -/

/-- The clock at a timer's expiry: the reading is at least the expiry (notes/assumptions/1.md). -/
def State.at (s : State) (expiry : Nat) : State := { s with now := max s.now expiry }

/-- A new event that can make holds, wait entries, contexts or path records (notes/assumptions/4.md). -/
def State.newEvent (s : State) : State := { s with eventNo := s.eventNo + 1 }

/-- The present time as an age start or settle order. -/
def State.stamp (s : State) : Stamp := ⟨s.now, s.eventNo⟩

/-- A stamp is older: by the clock, then by the event (R35, R154). -/
def Stamp.older (a b : Stamp) : Bool := a.ms < b.ms || (a.ms == b.ms && a.event < b.event)

/-! ### Contexts -/

/-- The four context references in ascending order. -/
def refs : List Ref := [0, 1, 2, 3]

/-- One operation for each context reference, ascending. -/
def State.eachRef (s : State) (f : State → Ref → State) : State := f (f (f (f s 0) 1) 2) 3

/-- Context i, none when free (R100). -/
def State.ctx (s : State) (i : Ref) : Option Ctx := s.ctxs[i]

/-- Context i set whole. -/
def State.setCtx (s : State) (i : Ref) (c : Option Ctx) : State := { s with ctxs := s.ctxs.set i c }

/-- A change of a live context; a free one stays free. -/
def State.modifyCtx (s : State) (i : Ref) (f : Ctx → Ctx) : State :=
  match s.ctx i with
  | some c => s.setCtx i (some (f c))
  | none => s

/-- One operation for each live context, ascending, each reading the state the one before left. -/
def State.eachCtx (s : State) (f : State → Ref → Ctx → State) : State :=
  s.eachRef fun s i =>
    match s.ctx i with
    | some c => f s i c
    | none => s

/-- The lowest free context (R101). -/
def State.freeRef (s : State) : Option Ref := refs.find? fun i => (s.ctx i).isNone

/-- The number of live contexts (R101). -/
def State.liveCount (s : State) : Nat := refs.countP fun i => (s.ctx i).isSome

/-- Context i is live and outside CLEARING. -/
def State.outsideClearing (s : State) (i : Ref) : Bool :=
  match s.ctx i with
  | some c => c.state ≠ .clearing
  | none => false

/-- The live context of a side that carries a call id (R82, R128). -/
def State.findCtx (s : State) (side : Side) (c : CallId) : Option Ref :=
  refs.find? fun i =>
    match s.ctx i with
    | some x => x.side = side && x.cid = c
    | none => false

/-- The live context that carries a call id, on either side. -/
def State.findCall (s : State) (c : CallId) : Option Ref :=
  refs.find? fun i =>
    match s.ctx i with
    | some x => x.cid = c
    | none => false

/-- An operation on the context of a side that carries a call id. -/
def State.atCall (s : State) (side : Side) (c : CallId) (f : State → Ref → State) : State :=
  match s.findCtx side c with
  | some i => f s i
  | none => s

/-- An operation on the context of either side that carries a call id. -/
def State.atParty (s : State) (c : CallId) (f : State → Ref → State) : State :=
  match s.findCall c with
  | some i => f s i
  | none => s

/-! ### Configuration -/

/-- This station's own address (R47). -/
def State.own (s : State) : Byte := s.sport.config.address

/-- This station's role. -/
def State.role (s : State) : Role := s.sport.config.role

/-! ### Notices -/

/-- A posting: the notice joins the queue and the lines are recomputed, or it is dropped and sets the overflow flag where the
queue holds 16 (R180, R182). -/
def State.post (s : State) (n : Notice) : State :=
  if s.sport.notices.length < Config.noticeCap then
    { s with sport := { s.sport with notices := s.sport.notices ++ [n] }.recompute }
  else
    { s with sport := { s.sport with overflow := true, transaction := markDropped s.sport.transaction } }

/-! ### Transmit queue -/

/-- The categories of the allowances (R48). SEEK and OFFER share one place. -/
inductive Category where
  | snapshot | reclaim | shared | stc | call
deriving DecidableEq, Repr

/-- The category of a frame (R48). -/
def frameCategory (f : Frame) : Category :=
  match f.kind with
  | .snapshot => .snapshot | .reclaim => .reclaim | .seek => .shared | .offer => .shared | .join => .stc | .leave => .stc
  | .ring => .call | .answer => .call | .refuse => .call | .claim => .call | .wait => .call | .release => .call
  | .open_ => .call | .opened => .call

/-- The allowances (R48). -/
def Category.allowance : Category → Nat
  | .snapshot => 1 | .reclaim => 1 | .shared => 1 | .stc => 1 | .call => Config.callFrames

/-- The frames of a category in the queue. -/
def Rif.count (r : Rif) (k : Category) : Nat := r.queue.countP fun e => frameCategory e.frame = k

/-- RIF answers ACCEPTED to a queue request for this frame (R48); FULL otherwise, and in the states that send nothing (R58). -/
def State.accepts (s : State) (f : Frame) : Bool :=
  s.stc.state.sends && s.rif.count (frameCategory f) < (frameCategory f).allowance

/-- A queue request: the frame joins at the end where RIF accepts it (R47, R48). The requester handles FULL by `State.accepts`. -/
def State.queueFrame (s : State) (f : Frame) : State :=
  if s.accepts f then
    { s with rif := { s.rif with queue := s.rif.queue ++ [⟨f, 0, .waiting⟩] } }
  else s

/-- A frame of this identity is in the queue. -/
def State.queued (s : State) (id : FrameId) : Bool := s.rif.queue.any fun e => e.frame.ident = id

/-- A frame of this kind is in the queue. -/
def State.kindQueued (s : State) (k : FrameKind) : Bool := s.rif.queue.any fun e => e.frame.kind = k

/-- The recall is of this identity and RIF has not answered it: it is the recall of the frame now queued under the identity. -/
def Recall.opens (r : Recall) (id : FrameId) : Bool := r.id = id && r.isOpen

/-- A block asks for a recall of one of its queued frames (R56). It is on its way to RIF until RECALL_ANSWERED; a frame already
under recall is not asked twice. An answer still on its way back concerns an earlier frame of the identity and bars no recall of
the frame now queued (notes/assumptions/7.md). -/
def State.askRecall (s : State) (id : FrameId) : State :=
  if s.queued id && !(s.rif.recalls.any fun r => r.opens id) then
    { s with rif := { s.rif with recalls := s.rif.recalls ++ [⟨id, .asked⟩] } }
  else s

/-- The oldest recall of an identity leaves the list: its answer has reached the block. -/
def State.forgetRecall (s : State) (id : FrameId) : State :=
  { s with rif := { s.rif with recalls := s.rif.recalls.eraseP fun r => r.id = id } }

/-- The unanswered recall of an identity leaves the list: the drop of its frame stands as the answer (R56, R124). -/
def State.forgetOpenRecall (s : State) (id : FrameId) : State :=
  { s with rif := { s.rif with recalls := s.rif.recalls.eraseP fun r => r.opens id } }

/-- The unanswered recall of an identity takes a status. -/
def State.markRecall (s : State) (id : FrameId) (st : RecallStatus) : State :=
  { s with rif := { s.rif with recalls := s.rif.recalls.map fun r => if r.opens id then { r with status := st } else r } }

/-- A recall of an identity is outstanding. -/
def State.recallOut (s : State) (id : FrameId) : Bool := s.rif.recalls.any fun r => r.id = id

/-- RIF has answered "recalled" for a frame of this kind, and the answer has not reached its block: the block still counts the
frame's place as taken (R35, R36, R93). -/
def State.placeHeld (s : State) (k : FrameKind) : Bool :=
  s.rif.recalls.any fun r => r.id.kind = k && r.status = .answered .recalled

/-- The entry in carriage, if any (R47). -/
def State.carrying (s : State) : Option Entry := s.rif.queue.find? fun e => e.carriage = .carrying

/-- The entry in carriage leaves the queue; the others close up (R47). -/
def State.dropCarrying (s : State) : State :=
  { s with rif := { s.rif with queue := s.rif.queue.eraseP fun e => e.carriage = .carrying } }

/-- A change of the entry in carriage. -/
def State.modifyCarrying (s : State) (f : Entry → Entry) : State :=
  { s with rif := { s.rif with queue := s.rif.queue.map fun e => if e.carriage = .carrying then f e else e } }

/-- The oldest entry of an identity leaves the queue (R56). -/
def State.dropQueued (s : State) (id : FrameId) : State :=
  { s with rif := { s.rif with queue := s.rif.queue.eraseP fun e => e.frame.ident = id } }

/-- The queue is emptied with no answer to any block (R58). -/
def State.emptyQueue (s : State) : State := { s with rif := { s.rif with queue := [], recalls := [] } }

/-- The station takes carried frames, contends and sends (R46). -/
def State.onRiser (s : State) : Bool :=
  match s.stc.state with
  | .joined => true
  | .leaving => true
  | .learning => s.rif.polarity ≠ .unknown
  | _ => false

/-- The frame bytes this station has on the riser, while it carries a frame (R51, R59). -/
def State.sending (s : State) : Option (List Byte) := s.carrying.map fun e => frameBytes s.own e.frame

end Sys2Proof.Machine
end

