-- ==== Sys2Proof/Machine/Directory.lean ====
section
/-! DEFINITION. The unit directory: lines, lookups, seek records, the shared SEEK/OFFER place and the pending OFFER (R83 to R99). -/

namespace Sys2Proof.Machine

/-! ### Lines -/

/-- The line of a unit number (R83). -/
def lineIndex (u : UnitNum) : Fin 64 := ⟨u.toNat % 64, Nat.mod_lt _ (by decide)⟩

/-- One change for every line. -/
def mapLines (f : Option DirLine → Option DirLine) (v : Vector (Option DirLine) 64) : Vector (Option DirLine) 64 :=
  ⟨(v.toList.map f).toArray, by simp⟩

/-- A station leaves a line; a line with no member left becomes invalid (R87 step 2, R89). -/
def withoutMember (a : Byte) : Option DirLine → Option DirLine
  | none => none
  | some l =>
    let ms := l.members.filter fun m => m.addr ≠ a
    if ms.isEmpty then none else some { l with members := ms }

/-- A station leaves whatever line lists it (R87 step 2, R89). -/
def removeStation (a : Byte) (v : Vector (Option DirLine) 64) : Vector (Option DirLine) 64 := mapLines (withoutMember a) v

/-- The members of a unit's line, none where the line is invalid or has another tag (R91, R95). -/
def membersOf (v : Vector (Option DirLine) 64) (u : UnitNum) : Option (List Member) :=
  match v[lineIndex u] with
  | some l => if l.unit = u then some l.members else none
  | none => none

/-- The line of a unit filled for a sender (R87). -/
def fillLine (v : Vector (Option DirLine) 64) (u : UnitNum) (a cap : Byte) : Vector (Option DirLine) 64 :=
  match membersOf v u with
  | some ms =>
    if (ms.any fun m => m.addr = a) then
      v.set (lineIndex u) (some ⟨u, ms.map fun (m : Member) => if m.addr = a then ({ m with cap := cap } : Member) else m⟩)
    else
      let v' := removeStation a v
      if ms.length < Config.groupCap then v'.set (lineIndex u) (some ⟨u, ms ++ [⟨a, cap⟩]⟩) else v'
  | none => (removeStation a v).set (lineIndex u) (some ⟨u, [⟨a, cap⟩]⟩)

/-- A capability field as recorded: 1, 2 and 4 as carried, any other value as 1 (R86). -/
def recordedCap (w : Byte) : Byte := byte (normWidth w)

/-- A JOIN body names a unit its sender serves: UNIT with 1..9999, or DESK with 0 (R86). -/
def joinServes (role : Byte) (u : UnitNum) : Bool :=
  match Role.ofCode role with
  | some .unit => 1 ≤ u.toNat && u.toNat ≤ Config.maxUnit
  | some .desk => u.toNat == 0
  | _ => false

/-- The directory effect of a JOIN (R86). -/
def State.directoryJoin (s : State) (a role : Byte) (u : UnitNum) (w : Byte) : State :=
  let lines :=
    if joinServes role u then fillLine s.udir.lines u a (recordedCap w) else removeStation a s.udir.lines
  { s with udir := { s.udir with lines := lines } }

/-- The directory effect of an OFFER (R88). -/
def State.directoryOffer (s : State) (a : Byte) (u : UnitNum) (w : Byte) : State :=
  if u.toNat ≤ Config.maxUnit then
    { s with udir := { s.udir with lines := fillLine s.udir.lines u a (recordedCap w) } }
  else s

/-- The directory effect of a LEAVE (R89). -/
def State.directoryLeave (s : State) (a : Byte) : State :=
  { s with udir := { s.udir with lines := removeStation a s.udir.lines } }

/-- Every line invalid (R98, R99). -/
def State.purgeLines (s : State) : State := { s with udir := { s.udir with lines := Vector.replicate 64 none } }

/-- Seek records removed, windows stopped, pending OFFER NONE (R99). -/
def State.closeSeeks (s : State) : State := { s with udir := { s.udir with seeks := [], offer := .none } }

/-! ### Bounds and lookups -/

/-- The bounds check of a dialled unit (R90). -/
def ConfigRecord.inRange (r : ConfigRecord) (u : UnitNum) : Bool :=
  u = 0#16 || (r.lower.toNat ≤ u.toNat && u.toNat ≤ r.upper.toNat)

/-- The members other than this station of a unit's line: a HIT where there is one, else a miss (R91, R95). -/
def State.lookup (s : State) (u : UnitNum) : Option (List Byte) :=
  match membersOf s.udir.lines u with
  | some ms =>
    let others := (ms.map Member.addr).filter fun a => a ≠ s.own
    if others.isEmpty then none else some others
  | none => none

/-! ### Seek records and the shared place -/

/-- The first PENDING record takes a state (R93). -/
def queueFirstPending : List Seek → List Seek
  | [] => []
  | r :: rs => if r.state = .pending then { r with state := .queued } :: rs else r :: queueFirstPending rs

/-- The shared place is handed out where it is free: to the pending OFFER first, else to the oldest PENDING record (R93). A recalled
SEEK keeps the place until the answer reaches UDIR (R94, R96). RIF accepts exactly when no SEEK or OFFER is queued and the station
sends, so FULL does not arise here (notes/assumptions/13.md). -/
def State.handOut (s : State) : State :=
  if s.placeHeld .seek then s
  else if s.udir.offer = .pending then
    let f := Frame.offer s.sport.config.unit s.sport.config.capability
    if s.accepts f then { s.queueFrame f with udir := { s.udir with offer := .queued } } else s
  else
    match s.udir.seeks.find? fun r => r.state = .pending with
    | some r =>
      if s.accepts (.seek r.unit) then
        { s.queueFrame (.seek r.unit) with udir := { s.udir with seeks := queueFirstPending s.udir.seeks } }
      else s
    | none => s

/-- A context joins the seek for a unit (R92). -/
def State.joinSeek (s : State) (i : Ref) (u : UnitNum) : State :=
  if (s.udir.seeks.any fun r => r.unit = u) then
    { s with udir := { s.udir with seeks := s.udir.seeks.map fun r =>
        if r.unit = u then { r with refs := r.refs ++ [i] } else r } }
  else
    State.handOut { s with udir := { s.udir with seeks := s.udir.seeks ++ [⟨u, .pending, [i]⟩] } }

/-- A context leaves its seek record; a record left with no context is removed, and its queued SEEK recalled (R96). -/
def State.leaveSeek (s : State) (i : Ref) : State :=
  match s.udir.seeks.find? fun r => r.refs.contains i with
  | some r =>
    let rest := r.refs.filter fun j => j ≠ i
    if rest.isEmpty then
      let s' := { s with udir := { s.udir with seeks := s.udir.seeks.filter fun x => x.unit ≠ r.unit } }
      if r.state = .queued then s'.askRecall ⟨.seek, .unit r.unit⟩ else s'
    else
      { s with udir := { s.udir with seeks := s.udir.seeks.map fun x =>
          if x.unit = r.unit then { x with refs := rest } else x } }
  | none => s

/-- The record of a unit. -/
def Udir.seekOf (d : Udir) (u : UnitNum) : Option Seek := d.seeks.find? fun r => r.unit = u

/-- The record of a unit opens its window now (R94). -/
def State.openSeek (s : State) (u : UnitNum) : State :=
  { s with udir := { s.udir with seeks := s.udir.seeks.map fun r =>
      if r.unit = u then { r with state := .opened (s.now + Config.seekMs) } else r } }

/-- The record of a unit is removed (R95, R96). -/
def State.removeSeek (s : State) (u : UnitNum) : State :=
  { s with udir := { s.udir with seeks := s.udir.seeks.filter fun r => r.unit ≠ u } }

/-- The pending OFFER takes a state (R97). -/
def State.setOffer (s : State) (o : OfferState) : State := { s with udir := { s.udir with offer := o } }

/-- An OFFER becomes owed (R97). -/
def State.oweOffer (s : State) : State :=
  if s.udir.offer = .none then (s.setOffer .pending).handOut else s

/-- A SEEK is taken in JOINED or LEAVING (R94). A record opens on another station's SEEK while PENDING or QUEUED, its own queued
SEEK then being recalled, and on the own SEEK while QUEUED. The duty to answer is tested in addition. -/
def State.seekTaken (s : State) (sender : Byte) (u : UnitNum) : State :=
  if Config.maxUnit < u.toNat then s
  else if sender = s.own then
    match s.udir.seekOf u with
    | some r => (if r.state = .queued then s.openSeek u else s).handOut
    | none => s.handOut
  else
    let s1 :=
      match s.udir.seekOf u with
      | some r =>
        match r.state with
        | .pending => s.openSeek u
        | .queued => (s.askRecall ⟨.seek, .unit u⟩).openSeek u
        | .opened _ => s
      | none => s
    if s.stc.state = .joined ∧ s.role ≠ .entry ∧ s.sport.config.unit = u then s1.oweOffer else s1

/-- An OFFER is taken in JOINED or LEAVING; the own OFFER ends the pending one and frees the place (R88, R97). -/
def State.offerTaken (s : State) (sender : Byte) (u : UnitNum) (w : Byte) : State :=
  let s1 := s.directoryOffer sender u w
  if sender = s.own then (s1.setOffer .none).handOut else s1

end Sys2Proof.Machine
end

