-- ==== Sys2Proof/Machine/Outputs.lean ====
section
/-! DEFINITION. The output and key unit apart from the door request: keys, strike, ringer and fault inputs (R162 to R164,
R168 to R172). -/

namespace Sys2Proof.Machine

/-! ### Keys (R163) -/

/-- The debounced state of a key. -/
def Oku.key (o : Oku) : Key → KeyState
  | .hook => o.hook
  | .doorKey => o.doorKey
  | .deskKey => o.deskKey

/-- A key's state set. -/
def Oku.setKey (o : Oku) (k : Key) (x : KeyState) : Oku :=
  match k with
  | .hook => { o with hook := x }
  | .doorKey => { o with doorKey := x }
  | .deskKey => { o with deskKey := x }

/-- The level of a key's input. -/
def Pins.level (p : Pins) : Key → Bool
  | .hook => p.hook
  | .doorKey => p.doorKey
  | .deskKey => p.deskKey

/-- A key's input level set. -/
def Pins.setLevel (p : Pins) (k : Key) (b : Bool) : Pins :=
  match k with
  | .hook => { p with hook := b }
  | .doorKey => { p with doorKey := b }
  | .deskKey => { p with deskKey := b }

/-- A key against its input's level: at the debounced level no timer runs; away from it the timer starts at 10 ms unless it runs
already (R163). -/
def KeyState.follow (k : KeyState) (level : Bool) (now : Nat) : KeyState :=
  if level = k.active then { k with timer := none }
  else
    match k.timer with
    | some _ => k
    | none => { k with timer := some (now + Config.debounceMs) }

/-! ### Ringer (R169) -/

/-- The ringer as the alerting set stands: SILENT when the set is empty; from SILENT a cadence starts at an ON phase; a running
cadence runs on (R169). -/
def Oku.followAlerting (o : Oku) (now : Nat) : Oku :=
  if (refs.any fun i => o.alerting[i]) then
    match o.ringer with
    | .silent => { o with ringer := .cadence true (now + Config.ringOnMs) }
    | .cadence _ _ => o
  else { o with ringer := .silent }

/-- CENG reports a context alerting or no longer alerting (R131, R169). -/
def State.setAlerting (s : State) (i : Ref) (b : Bool) : State :=
  { s with oku := { s.oku with alerting := s.oku.alerting.set i b }.followAlerting s.now }

/-- The next phase of the cadence (R169). -/
def nextPhase (on : Bool) (now : Nat) : Ringer :=
  if on then .cadence false (now + Config.ringOffMs) else .cadence true (now + Config.ringOnMs)

/-! ### Door request records (R162, R166) -/

/-- A context's door request record set or removed. -/
def State.setDoor (s : State) (i : Ref) (t : Timer) : State := { s with oku := { s.oku with door := s.oku.door.set i t } }

/-- A context's door request record is PENDING. -/
def State.doorPending (s : State) (i : Ref) : Bool := (s.oku.door[i]).isSome

/-! ### Strike (R168) -/

/-- The strike energized or restarted for a full pulse from now (R168). -/
def State.energize (s : State) : State :=
  { s with oku := { s.oku with strike := some (s.now + 1000 * s.sport.config.strikePulse) } }

/-! ### Faults (R170, R171) -/

/-- A fault input. -/
def Oku.fault (o : Oku) : FaultKind → FaultInput
  | .strike => o.strikeFault
  | .ringer => o.ringerFault

/-- A fault input set. -/
def Oku.setFault (o : Oku) (k : FaultKind) (x : FaultInput) : Oku :=
  match k with
  | .strike => { o with strikeFault := x }
  | .ringer => { o with ringerFault := x }

/-- The output of a kind is energized (R171 step 3). -/
def Oku.outputOn (o : Oku) : FaultKind → Bool
  | .strike => o.strikeOn
  | .ringer => o.ringerOn

/-- The fault kind as the FAULT notice gives it (R183). -/
def faultNotice : FaultKind → FaultNotice
  | .strike => .strike
  | .ringer => .ringer

/-- A qualifying fault switches the strike off at once; the ringer's cadence runs on silently (R168, R169, R171 step 1). -/
def Oku.switchOff (o : Oku) : FaultKind → Oku
  | .strike => { o with strike := none }
  | .ringer => o

/-- A fault qualifies while its status is CLEAR: output off, status SET, FAULT notice (R171). -/
def State.qualify (s : State) (k : FaultKind) : State :=
  let o := s.oku.switchOff k
  State.post { s with oku := o.setFault k { o.fault k with sticky := true } } (.fault (faultNotice k) (s.oku.outputOn k))

/-- One sample of a fault input (R170): inactive resets the counter; active raises it up to the record's setting, and the sample
that reaches the setting qualifies the fault where the status is CLEAR. -/
def State.sampleFault (s : State) (k : FaultKind) (active : Bool) : State :=
  let x := s.oku.fault k
  if active then
    if x.counter + 1 < s.sport.config.faultSamples then
      { s with oku := s.oku.setFault k { x with counter := x.counter + 1, sample := true } }
    else
      let s1 := { s with oku := s.oku.setFault k { x with counter := s.sport.config.faultSamples, sample := true } }
      if x.sticky then s1 else s1.qualify k
  else { s with oku := s.oku.setFault k { x with counter := 0, sample := false } }

end Sys2Proof.Machine
end

