-- ==== Sys2Proof/Machine/SlotMap.lean ====
section
/-! DEFINITION. The slot map unit: questions, CLAIM and WAIT tests, removal, the grant scan, snapshots and audits (R1 to R42).
Only the operations of this file change the copy. -/

namespace Sys2Proof.Machine

/-- A block of channels: base and width. -/
abbrev Block := Nat × Nat

/-! ### Questions (R3, R4) -/

/-- The hold covers channel n (R1). -/
def Hold.covers (h : Hold) (n : Nat) : Bool := h.base ≤ n && n < h.base + h.width

/-- The call id holding channel n, or none (R1, R3). -/
def holderOf (hs : List Hold) (n : Nat) : Option CallId := (hs.find? fun h => h.covers n).map Hold.cid

/-- Channel n is FREE (R1). -/
def channelFree (hs : List Hold) (n : Nat) : Bool := (holderOf hs n).isNone

/-- The free count (R1). -/
def freeCount (hs : List Hold) : Nat := (List.range Config.channels).countP fun n => channelFree hs n

/-- Every channel of a block is free. -/
def blockFree (hs : List Hold) (base width : Nat) : Bool := (List.range width).all fun k => channelFree hs (base + k)

/-- The bases of the aligned blocks of a width, ascending. -/
def alignedBases (width : Nat) : List Nat := (List.range (Config.channels / width)).map fun k => k * width

/-- The lowest base of a width whose channels are all free (R4). -/
def lowestFree (hs : List Hold) (width : Nat) : Option Block :=
  ((alignedBases width).find? fun b => blockFree hs b width).map fun b => (b, width)

/-- The placement rule (R4): widths 4, 2, 1 not above W, at each the lowest free base; none when nothing is found or W is 0. -/
def placement (hs : List Hold) (wanted : Nat) : Option Block :=
  ([4, 2, 1].filter fun w => w ≤ wanted).findSome? fun w => lowestFree hs w

/-- The hold record of a call id (R3). -/
def Smu.holdOf (m : Smu) (c : CallId) : Option Hold := m.holds.find? fun h => h.cid = c

/-- The wait entry of a call id (R3). -/
def Smu.waitOf (m : Smu) (c : CallId) : Option WaitEntry := m.waits.find? fun w => w.cid = c

/-- The position of a call id's wait entry, counted from 1 (R24). -/
def Smu.position (m : Smu) (c : CallId) : Option Nat := (m.waits.findIdx? fun w => w.cid = c).map fun k => k + 1

/-- A call id has a hold record or a wait entry (R3). -/
def Smu.has (m : Smu) (c : CallId) : Bool := (m.holdOf c).isSome || (m.waitOf c).isSome

/-! ### Holds and audits -/

/-- The hold audit armed from now (R34). -/
def State.holdAudit (s : State) : Audit := .armed (s.now + Config.holdAuditMs + Config.auditStaggerMs * s.own.toNat)

/-- The wait audit armed from now (R34). -/
def State.waitAudit (s : State) : Audit := .armed (s.now + Config.waitAuditMs + Config.auditStaggerMs * s.own.toNat)

/-- A hold joins the records at its place by ascending base (R1). -/
def insertHold (h : Hold) : List Hold → List Hold
  | [] => [h]
  | x :: xs => if h.base < x.base then h :: x :: xs else x :: insertHold h xs

/-- A new hold, its age start now and its audit armed (R8, R15). -/
def State.newHold (s : State) (c : CallId) (b : Block) : Hold :=
  { cid := c, base := b.1, width := b.2, age := s.stamp, audit := s.holdAudit }

/-- A hold is made (R8). -/
def State.addHold (s : State) (c : CallId) (b : Block) : State :=
  { s with smu := { s.smu with holds := insertHold (s.newHold c b) s.smu.holds } }

/-- The audit of a call id's item is set (R35, R37). -/
def State.setAudit (s : State) (c : CallId) (a : Audit) : State :=
  { s with smu :=
    { holds := s.smu.holds.map fun h => if h.cid = c then { h with audit := a } else h
      waits := s.smu.waits.map fun w => if w.cid = c then { w with audit := a } else w } }

/-! ### Tests of CLAIM and WAIT -/

/-- The CLAIM test, none for success (R6). -/
def claimTest (m : Smu) (sender : Byte) (c : CallId) (base width : Nat) : Option ClaimReason :=
  if !validWidth width then some .malformed
  else if base % width ≠ 0 || base + width > Config.channels then some .malformed
  else if c.orig ≠ sender then some .malformed
  else if (m.holdOf c).isSome then some .duplicate
  else if (m.waitOf c).isSome then some .duplicate
  else if !blockFree m.holds base width then some .notFree
  else none

/-- Why a WAIT is refused (R26). -/
inductive WaitReason where
  | malformed | duplicate | full
deriving DecidableEq, Repr

/-- The WAIT test, none for added (R26). -/
def waitTest (m : Smu) (sender : Byte) (c : CallId) (wanted : Nat) : Option WaitReason :=
  if !validWidth wanted then some .malformed
  else if c.orig ≠ sender then some .malformed
  else if (m.holdOf c).isSome then some .duplicate
  else if (m.waitOf c).isSome then some .duplicate
  else if m.waits.length ≥ Config.waitCap then some .full
  else none

/-! ### Grant scan and removal -/

/-- A new hold as the change report lists it (R12). -/
structure NewHold where
  cid     : CallId
  block   : Block
  trimmed : Bool
deriving DecidableEq, Repr

/-- What a grant scan leaves: the holds, the entries still waiting, and the grants in the order made (R30). -/
structure Scan where
  holds  : List Hold
  waits  : List WaitEntry
  grants : List NewHold
deriving DecidableEq, Repr

/-- The grant scan from the oldest entry: each is placed by the placement rule on the holds as they then stand, until no channel
is free or no entry is left (R30). `mk` makes the hold of a grant. -/
def scanFrom (mk : CallId → Block → Hold) : List Hold → List WaitEntry → Scan
  | hs, [] => ⟨hs, [], []⟩
  | hs, w :: ws =>
    match placement hs w.wanted with
    | none => ⟨hs, w :: ws, []⟩
    | some b =>
      let r := scanFrom mk (insertHold (mk w.cid b) hs) ws
      { r with grants := ⟨w.cid, b, b.2 < w.wanted⟩ :: r.grants }

/-- The grants the scan makes on the present copy. -/
def State.grants (s : State) : List NewHold := (scanFrom s.newHold s.smu.holds s.smu.waits).grants

/-- The copy after the grant scan (R30). -/
def State.grantScan (s : State) : State :=
  let r := scanFrom s.newHold s.smu.holds s.smu.waits
  { s with smu := { holds := r.holds, waits := r.waits } }

/-- A call id's hold record and wait entry leave the copy with their audits (R9 steps 1 and 2). -/
def State.removeItem (s : State) (c : CallId) : State :=
  { s with smu :=
    { holds := s.smu.holds.filter fun h => h.cid ≠ c
      waits := s.smu.waits.filter fun w => w.cid ≠ c } }

/-- A wait entry is appended, its age start now and its audit armed (R27). -/
def State.appendWait (s : State) (c : CallId) (wanted : Nat) : State :=
  { s with smu := { s.smu with waits := s.smu.waits ++ [⟨c, wanted, s.stamp, s.waitAudit⟩] } }

/-- The copy is emptied (R21). -/
def State.emptyCopy (s : State) : State := { s with smu := { holds := [], waits := [] } }

/-! ### Snapshots -/

/-- The holds as a SNAPSHOT carries them, ascending base (R16). -/
def Smu.snapHolds (m : Smu) : List SnapHold := m.holds.map fun h => ⟨h.cid, byte h.base, byte h.width⟩

/-- The wait entries as a SNAPSHOT carries them, oldest first (R16). -/
def Smu.snapWaits (m : Smu) : List SnapWait := m.waits.map fun w => ⟨w.cid, byte w.wanted⟩

/-- The SNAPSHOT composed from the copy as it stands (R16). -/
def Smu.compose (m : Smu) : Frame := .snapshot m.snapHolds m.snapWaits

/-- Holds in ascending base, each aligned, within the channels, and starting at or after the end of the one before (R18). -/
def snapBlocksValid : Nat → List SnapHold → Bool
  | _, [] => true
  | least, h :: hs =>
    validWidth h.width.toNat && h.base.toNat % h.width.toNat == 0 && h.base.toNat + h.width.toNat ≤ Config.channels
      && least ≤ h.base.toNat && snapBlocksValid (h.base.toNat + h.width.toNat) hs

/-- The contents are valid (R18). -/
def snapValid (hs : List SnapHold) (ws : List SnapWait) : Bool :=
  snapBlocksValid 0 hs
    && decide (hs.map SnapHold.cid ++ ws.map SnapWait.cid).Nodup
    && hs.all (fun h => validAddr h.cid.orig) && ws.all (fun w => validAddr w.cid.orig)
    && ws.all (fun w => validWidth w.wanted.toNat)
    && (ws.isEmpty || (hs.map fun h => h.width.toNat).sum == Config.channels)

/-- The snapshot equals the copy in blocks and wait order; ages and audits are not compared (R19). -/
def Smu.equalTo (m : Smu) (hs : List SnapHold) (ws : List SnapWait) : Bool := m.snapHolds == hs && m.snapWaits == ws

/-- The copy replaced whole by a valid snapshot; ages and audits from the time of installation (R20). -/
def State.installCopy (s : State) (hs : List SnapHold) (ws : List SnapWait) : State :=
  { s with smu :=
    { holds := hs.map fun h => s.newHold h.cid (h.base.toNat, h.width.toNat)
      waits := ws.map fun w => ⟨w.cid, w.wanted.toNat, s.stamp, s.waitAudit⟩ } }

/-! ### The RECLAIM slot -/

/-- The overdue items in the tie order of R35: holds by ascending base, then wait entries by position. -/
def Smu.overdue (m : Smu) : List (CallId × Stamp) :=
  (m.holds.filter fun h => h.audit = .overdue).map (fun h => (h.cid, h.age))
    ++ (m.waits.filter fun w => w.audit = .overdue).map (fun w => (w.cid, w.age))

/-- The first item with the oldest age start (R35). -/
def oldestOf : List (CallId × Stamp) → Option (CallId × Stamp)
  | [] => none
  | x :: xs =>
    match oldestOf xs with
    | some y => if y.2.older x.2 then some y else some x
    | none => some x

/-- The RECLAIM slot is free for a call id: RIF would accept the RECLAIM, and no answer "recalled" to the one before is on its way
(R35, R36). -/
def State.slotFree (s : State) (c : CallId) : Bool := s.accepts (.reclaim c) && !s.placeHeld .reclaim

/-- Where the RECLAIM slot is free, a RECLAIM is queued for a call id, and its item's audit becomes RECLAIM_QUEUED (R35). -/
def State.queueReclaim (s : State) (c : CallId) : State :=
  if s.slotFree c then (s.queueFrame (.reclaim c)).setAudit c .reclaimQueued else s

/-- Where the RECLAIM slot is free, the RECLAIM of the next overdue item is queued (R36). -/
def State.nextOverdue (s : State) : State :=
  match oldestOf s.smu.overdue with
  | some (c, _) => s.queueReclaim c
  | none => s

/-- A dropped RECLAIM re-arms the audit of whatever its call id has in the copy (R37). -/
def State.rearm (s : State) (c : CallId) : State :=
  s.setAudit c (.armed (s.now + Config.auditStaggerMs * s.own.toNat))

/-- The expiry of an audit that runs, of the item of a call id. -/
def Smu.auditExpiry (m : Smu) (c : CallId) : Option Nat :=
  match m.holdOf c, m.waitOf c with
  | some h, _ => match h.audit with | .armed e => some e | _ => none
  | none, some w => match w.audit with | .armed e => some e | _ => none
  | none, none => none

end Sys2Proof.Machine
end

