-- ==== Sys2Proof/Machine/TalkPath.lean ====
section
/-! DEFINITION. The path unit: transmit enables, path records, the port owner and the carrier watch (R146 to R161). PATH's reports
to CENG are returned to the caller, which lets CENG act on them. -/

namespace Sys2Proof.Machine

/-! ### Enables and detectors -/

/-- The half a side sends in (R146). -/
def Side.sendHalf : Side → Half
  | .origin => .forward
  | .answer => .ret

/-- The other half (R146). -/
def otherHalf : Half → Half
  | .forward => .ret
  | .ret => .forward

/-- The transmit enable of channel n, none for OFF (R147). -/
def Path.enable (p : Path) (n : Nat) : Option Enable :=
  match p.enables[n]? with
  | some e => e
  | none => none

/-- The record of context i (R147). -/
def Path.record (p : Path) (i : Ref) : Option PathRec := p.recs[i]

/-- The channels of a block. -/
def blockChannels (b : Block) : List Nat := (List.range b.2).map fun k => b.1 + k

/-- A record's block. -/
def PathRec.block (r : PathRec) : Block := (r.base, r.width)

/-- Every enable of a block set (R147). -/
def Path.setBlock (p : Path) (b : Block) (e : Option Enable) : Path :=
  { p with enables := (blockChannels b).foldl (fun v n => v.setIfInBounds n e) p.enables }

/-- Context i has an enable ON in its record's block. -/
def Path.lit (p : Path) (i : Ref) : Bool :=
  match p.record i with
  | some r => (blockChannels r.block).any fun n =>
      match p.enable n with
      | some e => e.ref = i
      | none => false
  | none => false

/-- The detector report of one half of channel n, true for PRESENT (R146). -/
def Path.detector (p : Path) (h : Half) (n : Nat) : Bool :=
  match h with
  | .forward => p.fwd[n]?.getD false
  | .ret => p.ret[n]?.getD false

/-- Every watched-half detector of a record's block reports PRESENT (R150). -/
def Path.allPresent (p : Path) (r : PathRec) : Bool :=
  (blockChannels r.block).all fun n => p.detector (otherHalf r.sendHalf) n

/-- A record set or removed. -/
def Path.setRec (p : Path) (i : Ref) (r : Option PathRec) : Path := { p with recs := p.recs.set i r }

/-- The content of a lit record's enables (R154). -/
def Path.setContent (p : Path) (i : Ref) (c : Content) : Path :=
  match p.record i with
  | some r => if p.lit i then p.setBlock r.block (some ⟨i, r.sendHalf, c⟩) else p
  | none => p

/-- PATH with everything off: no enable, no record, no owner, gate CLOSED, rate 1 (R158, R160). -/
def Path.clear (p : Path) : Path :=
  { p with enables := Vector.replicate 24 none, recs := Vector.replicate 4 none, owner := none, gate := false, rate := 1 }

/-! ### Port ownership (R154) -/

/-- The settle order of a record that can own the port: in SETTLE, UNMUTE or OPEN with its enables ON. -/
def Path.claimOrder (p : Path) (i : Ref) : Option Stamp :=
  match p.record i with
  | some r => if r.stage ≠ .mute && p.lit i then some r.order else none
  | none => none

/-- The earliest of two candidates; the first where they are equal. -/
def earlier (a b : Option (Stamp × Ref)) : Option (Stamp × Ref) :=
  match a, b with
  | some x, some y => if y.1.older x.1 then some y else some x
  | some x, none => some x
  | none, b => b

/-- The record the port belongs to by R154: earliest settle order, then lowest context index. -/
def Path.bestOwner (p : Path) : Option Ref :=
  let cand := fun i => (p.claimOrder i).map fun o => (o, i)
  (earlier (earlier (earlier (cand 0) (cand 1)) (cand 2)) (cand 3)).map Prod.snd

/-- The width and openness of a possible owner: rate 1 and gate CLOSED for none (R154, R155). -/
def Path.withOwner (p : Path) (o : Option Ref) : Path :=
  match o with
  | none => { p with owner := none, rate := 1, gate := false }
  | some i =>
    match p.record i with
    | some r => { p with owner := some i, rate := r.width, gate := decide (r.stage = .opened) }
    | none => { p with owner := none, rate := 1, gate := false }

/-- The owner changes: old enables SILENCE if its record remains, new enables STREAM, rate and gate of the new owner (R154). -/
def Path.changeOwner (p : Path) (o : Option Ref) : Path :=
  let p1 := match p.owner with | some i => p.setContent i .silence | none => p
  let p2 := match o with | some i => p1.setContent i .stream | none => p1
  p2.withOwner o

/-- The PATH notice of a context's record (R152, R161). -/
def State.postPath (s : State) (i : Ref) (owned : Bool) : State :=
  match s.ctx i, s.path.record i with
  | some c, some r => s.post (.path i c.cid r.base r.width r.trimmed owned)
  | _, _ => s

/-- PATH re-reckons the owner; a new owner in stage OPEN posts its PATH notice (R154, R161). -/
def State.reckonOwner (s : State) : State :=
  let o := s.path.bestOwner
  if o = s.path.owner then s
  else
    let s1 := { s with path := s.path.changeOwner o }
    match o with
    | some i =>
      match s1.path.record i with
      | some r => if r.stage = .opened then s1.postPath i true else s1
      | none => s1
    | none => s1

/-! ### Settle (R148 to R152) -/

/-- No loss timer running. -/
def noLoss : Vector Timer 4 := Vector.replicate 4 none

/-- The settle command meets the conditions of R148: station JOINED or LEAVING, the copy's hold for the context's call id has the
block named, and no channel of the block is ON for another context. -/
def State.settleMet (s : State) (i : Ref) (c : CallId) (b : Block) : Bool :=
  (s.stc.state = .joined || s.stc.state = .leaving)
    && (match s.smu.holdOf c with
        | some h => decide ((h.base, h.width) = b)
        | none => false)
    && (blockChannels b).all fun n =>
        match s.path.enable n with
        | some e => e.ref = i
        | none => true

/-- The loss timers as the carrier watch starts them: running to 2 s on the channels whose watched half is ABSENT (R153). -/
def Path.startWatch (p : Path) (r : PathRec) (now : Nat) : Vector Timer 4 :=
  let t := fun k => if k < r.width && !p.detector (otherHalf r.sendHalf) (r.base + k) then some (now + Config.carrierLossMs) else none
  ⟨#[t 0, t 1, t 2, t 3], rfl⟩

/-- The SETTLE stage completes: stage UNMUTE, the unmute delay and the carrier watch start (R152, R153). -/
def Path.completeSettle (p : Path) (r : PathRec) (now : Nat) : PathRec :=
  { r with stage := .unmute, settleTimer := none, unmuteTimer := some (now + Config.unmuteMs), loss := p.startWatch r now }

/-- The settle time of a mode (R150, R151). -/
def SettleMode.ms : SettleMode → Nat
  | .carrier => Config.carrierMs
  | .timed40 => 40
  | .timed80 => 80
  | .timed160 => 160

/-- A path record as a settle command makes it (R149), its settle stage already complete where mode CARRIER finds every detector
PRESENT at its creation (R150). -/
def State.newPathRec (s : State) (side : Side) (b : Block) (trimmed : Bool) : PathRec :=
  let r : PathRec :=
    { base := b.1, width := b.2, sendHalf := side.sendHalf, trimmed := trimmed, stage := .settle,
      settleTimer := some (s.now + s.sport.config.settle.ms), unmuteTimer := none, muteTimer := none, loss := noLoss,
      order := s.stamp }
  if s.sport.config.settle = .carrier && s.path.allPresent r then s.path.completeSettle r s.now else r

/-- A met settle command: the record is made, its block's enables go ON, and the owner is re-reckoned (R149, R154). Where one change
report ends the owner's call and settles a context, the new owner's PATH notice is posted here, at the first settling: before the
CALL_ENDED or CALL_STATE notice of any context of higher index that the report has yet to reach. That is the model's choice, and an
exception to the order that notes/assumptions/15.md gives (DESIGN CHOICE, notes/assumptions/40.md, unsafe). -/
def State.startSettle (s : State) (i : Ref) (side : Side) (b : Block) (trimmed : Bool) : State :=
  let p := (s.path.setRec i (some (s.newPathRec side b trimmed))).setBlock b (some ⟨i, side.sendHalf, .silence⟩)
  State.reckonOwner { s with path := p }

/-! ### Teardown and cuts (R156 to R158) -/

/-- A record with its settle, unmute and loss timers stopped. -/
def PathRec.stopped (r : PathRec) : PathRec := { r with settleTimer := none, unmuteTimer := none, loss := noLoss }

/-- Context i's enables are all OFF, or it has no record: a teardown is answered "transmitters off" at once (R156). -/
def State.pathDark (s : State) (i : Ref) : Bool := !s.path.lit i

/-- Context i's enables turn OFF and its record is removed; the owner is not yet re-reckoned. -/
def Path.remove (p : Path) (i : Ref) : Path :=
  match p.record i with
  | some r => (if p.lit i then p.setBlock r.block none else p).setRec i none
  | none => p

/-- The cut command: enables OFF, record removed (R158). The caller re-reckons the owner. -/
def State.cutPath (s : State) (i : Ref) : State := { s with path := s.path.remove i }

/-- The teardown command (R156): a dark record is removed at once; a lit one goes to MUTE with its enables in SILENCE and the mute
timer at 10 ms. Ownership passes on. -/
def State.teardown (s : State) (i : Ref) : State :=
  match s.path.record i with
  | some r =>
    if s.pathDark i then (s.cutPath i).reckonOwner
    else
      let p := s.path.setRec i (some { r.stopped with stage := .mute, muteTimer := some (s.now + Config.muteMs) })
      let p1 := p.setContent i .silence
      State.reckonOwner { s with path := p1 }
  | none => s

/-- Context i's record is in MUTE. -/
def Path.muting (p : Path) (i : Ref) : Bool :=
  match p.record i with
  | some r => decide (r.stage = .mute)
  | none => false

/-- A record of this block with an enable ON: the record a freed hold's cut acts on (R157). -/
def Path.litOn (p : Path) (b : Block) (i : Ref) : Bool :=
  match p.record i with
  | some r => decide (r.block = b) && p.lit i
  | none => false

/-- The contexts whose record on a freed block stands in MUTE: PATH reports "transmitters off" for them (R157). -/
def Path.mutingOn (p : Path) (b : Block) : List Ref := refs.filter fun i => p.litOn b i && p.muting i

/-- A freed hold: the records on its block are removed and every enable of it turns OFF (R13, R157). The caller re-reckons the owner
when CENG has acted on the report. -/
def State.freeBlock (s : State) (b : Block) : State :=
  let p := s.path
  let drop := fun (q : Path) (i : Ref) => if p.litOn b i then q.setRec i none else q
  { s with path := (drop (drop (drop (drop p 0) 1) 2) 3).setBlock b none }

/-- The installed copy backs context i's record: its call id holds the record's block (R20, R158). -/
def State.backed (s : State) (i : Ref) : Bool :=
  match s.ctx i, s.path.record i with
  | some c, some r =>
    match s.smu.holdOf c.cid with
    | some h => decide ((h.base, h.width) = r.block)
    | none => false
  | _, _ => false

/-- The contexts whose record in MUTE loses its enables to the installed copy: "transmitters off" is reported for them (R158). -/
def State.unbackedMuting (s : State) : List Ref := refs.filter fun i => s.path.lit i && s.path.muting i && !s.backed i

/-- One record against the installed copy (R158): where it is not backed its enables turn OFF; a record in MUTE is removed, any
other stops its timers and waits in its stage for the teardown command. -/
def State.cutUnbacked (s : State) (i : Ref) : State :=
  match s.path.record i with
  | some r =>
    if s.path.lit i && !s.backed i then
      let p := s.path.setBlock r.block none
      { s with path := p.setRec i (if r.stage = .mute then none else some r.stopped) }
    else s
  | none => s

/-- PATH at a snapshot installation (R20, R158). -/
def State.installPath (s : State) : State := (s.eachRef State.cutUnbacked).reckonOwner

/-- PATH at an emptying of the copy or an entry into ISOLATED (R158, R160). -/
def State.clearPath (s : State) : State := { s with path := s.path.clear }

/-! ### Channel audio port (R155) -/

/-- Slot k of PCM_IN: the channel and half it is sent in, while that channel's enable is ON with content STREAM. -/
def Path.pcmIn (p : Path) (k : Nat) : Option (Nat × Half) :=
  match p.owner with
  | some i =>
    match p.record i with
    | some r =>
      if k < p.rate then
        match p.enable (r.base + k) with
        | some e => if e.ref = i && e.content = .stream then some (r.base + k, r.sendHalf) else none
        | none => none
      else none
    | none => none
  | none => none

/-- Slot k of PCM_OUT: the channel and half it is received from while the gate is OPEN; none is silence. -/
def Path.pcmOut (p : Path) (k : Nat) : Option (Nat × Half) :=
  match p.owner with
  | some i =>
    match p.record i with
    | some r => if p.gate && k < p.rate then some (r.base + k, otherHalf r.sendHalf) else none
    | none => none
  | none => none

end Sys2Proof.Machine
end

