-- ==== Sys2Proof/Machine/Calls.lean ====
section
/-! DEFINITION. The call engine: contexts of both sides, their clearings and reversals, and what reports of the other blocks do
to them (R100 to R145, R73, R74), with the door request, which stands between CENG and OKU (R165 to R167). -/

namespace Sys2Proof.Machine

/-! ### Ending a context -/

/-- Every timer of a context stopped. -/
def Ctx.stopTimers (c : Ctx) : Ctx := { c with ring := none, wait := none, talk := none, alert := none, pathWait := none }

/-- The first cause stands (R119). -/
def Ctx.firstCause (c : Ctx) (x : Cause) : Ctx := { c with cause := some (c.cause.getD x) }

/-- A context's path recorded, trimmed when narrower than wanted (R100). -/
def Ctx.record (c : Ctx) (b : Block) : Ctx := { c with path := some b, trimmed := decide (b.2 < c.wanted) }

/-- What other blocks hold for a context ends as it ends or enters CLEARING: its seek, its place in the alerting set, its door
request (R96, R131, R166). -/
def State.dropDuties (s : State) (i : Ref) : State := ((s.leaveSeek i).setAlerting i false).setDoor i none

/-- CALL_ENDED is posted once for a context (R121, R123, R143). -/
def State.postEnd (s : State) (i : Ref) : State :=
  match s.ctx i with
  | some c => if c.endPosted then s else (s.post (.callEnded i c.cid c.cause)).setCtx i (some { c with endPosted := true })
  | none => s

/-- A context is freed; CALL_ENDED is posted if it has not been (R123, R143). -/
def State.freeCtx (s : State) (i : Ref) : State := (s.postEnd i).setCtx i none

/-- A context ends at once with a cause, or its first one, and is freed. -/
def State.endNow (s : State) (i : Ref) (x : Cause) : State :=
  ((s.modifyCtx i fun c => (c.stopTimers).firstCause x).dropDuties i).freeCtx i

/-- A context enters CLEARING with a cause, or its first one. A final clearing posts CALL_ENDED now (R113, R121, R140). A context that
leaves the forward seek has forward NONE from then on, as R109 gives for an ANSWER: R121 leaves the field unsaid, and the model's choice is
R109's value (DESIGN CHOICE, notes/assumptions/47.md, unsafe). -/
def State.enterClearing (s : State) (i : Ref) (x : Cause) (final : Bool) : State :=
  let s1 := (s.modifyCtx i fun c =>
    { (c.stopTimers).firstCause x with
      state := .clearing, reversible := !final, forward := if c.forward = .seeking then .none else c.forward }).dropDuties i
  if final then s1.postEnd i else s1

/-- What a clearing context waits for. -/
def State.setAwaits (s : State) (i : Ref) (a : Awaits) : State := s.modifyCtx i fun c => { c with awaits := a }

/-- A context in CLEARING queues its RELEASE with its cause; on FULL, SEND_FAILED is posted and it is freed (R121, R123, R140). Where
CALL_ENDED is still to be posted, after a reversible clearing, it comes second: R53 and R142 name the freeing first and R123 the
SEND_FAILED, and the model follows R123's order (DESIGN CHOICE, notes/assumptions/42.md, unsafe). -/
def State.queueRelease (s : State) (i : Ref) : State :=
  match s.ctx i with
  | some c =>
    let f := Frame.release c.cid (causeByte c.cause)
    if s.accepts f then (s.queueFrame f).setAwaits i .release
    else (s.post (.sendFailed i c.cid .release)).freeCtx i
  | none => s

/-- The RELEASE falls due (R121 step 5): it is queued for an announced call and at the answering side. A call whose RING was never
taken sends none: its context waits for the fate of a queued RING, or is freed. -/
def State.sendRelease (s : State) (i : Ref) : State :=
  match s.ctx i with
  | some c =>
    if c.announced ∨ c.side = .answer then s.queueRelease i
    else if s.queued ⟨.ring, .call c.cid⟩ then s.setAwaits i .ringFate
    else s.freeCtx i
  | none => s

/-- The teardown of a context's path: the RELEASE falls due when the transmitters are off, at once where they are (R121 step 4,
R140 step 3, R156). -/
def State.teardownThenRelease (s : State) (i : Ref) : State :=
  if s.pathDark i then (s.teardown i).sendRelease i else (s.teardown i).setAwaits i .pathOff

/-- CENG asks for a recall of any queued RING, CLAIM or WAIT of a call (R120, R121). -/
def State.recallCall (s : State) (c : CallId) : State :=
  ((s.askRecall ⟨.ring, .call c⟩).askRecall ⟨.claim, .call c⟩).askRecall ⟨.wait, .call c⟩

/-- The clearing of an ORIGIN context (R121; reversible by R113). -/
def State.clearOrigin (s : State) (i : Ref) (x : Cause) (final : Bool) : State :=
  match s.ctx i with
  | some c =>
    let s1 := (s.enterClearing i x final).recallCall c.cid
    if c.state = .settling ∨ c.state = .talk then s1.teardownThenRelease i else s1.sendRelease i
  | none => s

/-- A context waits in CLEARING for the recall of its ANSWER (R140 step 2). -/
def State.awaitAnswerRecall (s : State) (i : Ref) (c : CallId) : State :=
  if s.queued ⟨.answer, .call c⟩ then (s.askRecall ⟨.answer, .call c⟩).setAwaits i .answerRecall else s.freeCtx i

/-- The clearing of an ANSWER-side context by its own side (R140). -/
def State.clearAnswer (s : State) (i : Ref) (x : Cause) : State :=
  match s.ctx i with
  | some c =>
    match c.state with
    | .answering => (s.enterClearing i x true).awaitAnswerRecall i c.cid
    | .settling => (s.enterClearing i x true).teardownThenRelease i
    | .talk => (s.enterClearing i x true).teardownThenRelease i
    | .awaitPath => (s.enterClearing i x true).queueRelease i
    | .alerting => s.endNow i x
    | _ => s
  | none => s

/-- A final clearing on either side. -/
def State.clearCall (s : State) (i : Ref) (x : Cause) : State :=
  match s.ctx i with
  | some c => match c.side with | .origin => s.clearOrigin i x true | .answer => s.clearAnswer i x
  | none => s

/-- An ANSWER-side context ends without a RELEASE: from ANSWERING it waits, superseded, for the recall of its ANSWER; else it is
freed with its path cut (R132, R136, R139, R140). -/
def State.endAnswer (s : State) (i : Ref) (x : Cause) : State :=
  match s.ctx i with
  | some c =>
    match c.state with
    | .answering =>
      ((s.enterClearing i x true).modifyCtx i fun c => { c with superseded := true }).awaitAnswerRecall i c.cid
    | .clearing => s
    | _ => ((s.cutPath i).endNow i x).reckonOwner
  | none => s

/-- A context waiting for the recall of its ANSWER is marked superseded (R140). After its own ANSWER was taken and before "too late"
arrives, a context that queued no RELEASE is still marked, and one that queued it is not: R127 ends the marking at that taking and R140
with the recall, and the model's choice stands between (DESIGN CHOICE, notes/assumptions/39.md, unsafe). -/
def State.supersede (s : State) (i : Ref) : State :=
  s.modifyCtx i fun c => if c.awaits = .answerRecall then { c with superseded := true } else c

/-- A RELEASE of another station, or a RECLAIM that removed the call's item, ends an ORIGIN context outside CLEARING. Where a CLAIM
or WAIT of the call is queued, it waits in CLEARING for the recall's answer (R120). -/
def State.endOrigin (s : State) (i : Ref) (x : Cause) : State :=
  match s.ctx i with
  | some c =>
    let waits := s.queued ⟨.claim, .call c.cid⟩ || s.queued ⟨.wait, .call c.cid⟩
    let s1 := (((s.enterClearing i x true).cutPath i).recallCall c.cid).reckonOwner
    if waits then s1.setAwaits i .frameRecall else s1.freeCtx i
  | none => s

/-- A reversible clearing becomes final (R113). -/
def State.makeFinal (s : State) (i : Ref) : State := s.modifyCtx i fun c => { c with reversible := false }

/-! ### Settling and placing -/

/-- A CALL_STATE notice of a context (R126, R145). -/
def State.callState (s : State) (i : Ref) (d : CallDetail) : State :=
  match s.ctx i with
  | some c => s.post (.callState i c.cid d)
  | none => s

/-- A context enters SETTLING on a block (R118, R138). A settle command that fails its test is a "no carrier" report at once
(R149); a context that already has a record gets no second one. -/
def State.enterSettling (s : State) (i : Ref) (b : Block) (trimmed : Bool) : State :=
  match s.ctx i with
  | some c =>
    let s1 := (s.setCtx i (some { c.stopTimers with state := .settling, path := some b, trimmed := trimmed })).callState i
      (.settling b.1 b.2 trimmed)
    match s1.path.record i with
    | some _ => s1
    | none =>
      if s1.settleMet i c.cid b then s1.startSettle i c.side b trimmed else s1.clearCall i .noCarrier
  | none => s

/-- A context enters SETTLING on a block of which it judges the trimming itself (R100, R115, R137). -/
def State.settleOn (s : State) (i : Ref) (b : Block) : State :=
  match s.ctx i with
  | some c => s.enterSettling i b (decide (b.2 < c.wanted))
  | none => s

/-- A context enters WAITING at a position, its wait timer started (R116, R126). -/
def State.enterWaiting (s : State) (i : Ref) (pos : Nat) : State :=
  (s.modifyCtx i fun c =>
    { c.stopTimers with state := .waiting, wait := some (s.now + 1000 * s.sport.config.waitLimit) }).callState i (.waiting pos)

/-- A context queues WAIT; FULL clears it with SEND_FAILED (R114 to R116). -/
def State.queueWait (s : State) (i : Ref) : State :=
  match s.ctx i with
  | some c =>
    let f := Frame.wait c.cid (byte c.wanted)
    if s.accepts f then s.queueFrame f else s.clearOrigin i .sendFailed true
  | none => s

/-- A failed attempt counted (R115). -/
def Ctx.failClaim (c : Ctx) (r : ClaimReason) : Ctx := { c with attempts := c.attempts + 1, lastReason := some r }

/-- CENG chooses the call's next frame from the copy (R114). A CLAIM refused FULL is a failed attempt, after which it chooses
again below the fourth and queues WAIT at the fourth (R115); `fuel` bounds the attempts. -/
def State.chooseFrame : Nat → State → Ref → State
  | 0, s, i => s.queueWait i
  | fuel + 1, s, i =>
    match s.ctx i with
    | some c =>
      match s.smu.holdOf c.cid with
      | some h => s.settleOn i (h.base, h.width)
      | none =>
        match s.smu.position c.cid with
        | some p => s.enterWaiting i p
        | none =>
          match placement s.smu.holds c.wanted with
          | some b =>
            let f := Frame.claim c.cid (byte b.1) (byte b.2)
            if s.accepts f then s.queueFrame f
            else
              let c' := c.failClaim .dropped
              let s1 := s.setCtx i (some c')
              if c'.attempts < Config.claimAttempts then State.chooseFrame fuel s1 i else s1.queueWait i
          | none => s.queueWait i
    | none => s

/-- R114 for a context: at most four attempts are left. -/
def State.choose (s : State) (i : Ref) : State := State.chooseFrame Config.claimAttempts s i

/-- A failed attempt of a CLAIMING context, and the next choice (R115). -/
def State.claimFailed (s : State) (i : Ref) (r : ClaimReason) : State :=
  match s.ctx i with
  | some c =>
    let c' := c.failClaim r
    let s1 := s.setCtx i (some c')
    if c'.attempts < Config.claimAttempts then s1.choose i else s1.queueWait i
  | none => s

/-! ### Reversal (R113) -/

/-- A reversal keeps the role limit: at ENTRY and UNIT no other context is outside CLEARING (R101). -/
def State.reversalAllowed (s : State) (i : Ref) : Bool :=
  s.role = .desk || refs.all fun j => j = i || !s.outsideClearing j

/-- CENG asks for the recall of a reversible context's RELEASE, or, where R101 does not allow the reversal, the clearing becomes
final (R113). -/
def State.askReversal (s : State) (i : Ref) : State :=
  match s.ctx i with
  | some c => if s.reversalAllowed i then s.askRecall ⟨.release, .call c.cid⟩ else s.makeFinal i
  | none => s

/-- The RELEASE of a clearing context is recalled: a reversible clearing goes on with the call, a final one queues it again
(R113). R101 is tested again here (notes/assumptions/11.md). -/
def State.releaseRecalled (s : State) (i : Ref) : State :=
  match s.ctx i with
  | some c =>
    let back := { c with reversible := false, cause := none, awaits := .nothing }
    if c.reversible && s.reversalAllowed i then
      match c.cause, c.path with
      | some .congested, some b => (s.setCtx i (some back)).enterSettling i b c.trimmed
      | _, _ =>
        (((s.setCtx i (some { back with state := .claiming })).callState i
          (.claiming (c.answerer.getD 0#8) c.wanted)).choose i)
    else (s.makeFinal i).queueRelease i
  | none => s

/-! ### Outcomes and change reports (R7, R12, R14, R28) -/

/-- What a claim or wait outcome naming a call does to its ANSWER-side context (R136, R140). -/
def State.outcomeAtAnswer (s : State) (i : Ref) (c : Ctx) : State :=
  match c.state with
  | .alerting => s.endAnswer i .answeredElsewhere
  | .answering => s.endAnswer i .answeredElsewhere
  | .clearing => s.supersede i
  | _ => s

/-- The claim outcome (R7, R115, R136). It counts for an ORIGIN context in CLAIMING where the CLAIM was its own. -/
def State.claimOutcome (s : State) (sender : Byte) (id : CallId) (result : Option ClaimReason) (b : Block) : State :=
  s.eachCtx fun s i c =>
    if c.cid ≠ id then s
    else
      match c.side with
      | .answer => s.outcomeAtAnswer i c
      | .origin =>
        if c.state = .claiming ∧ sender = s.own then
          match result with
          | none => s.settleOn i b
          | some r => s.claimFailed i r
        else s

/-- The result of a WAIT as the wait outcome gives it: refused, or added with its position, 0 where the scan granted it at once. -/
inductive WaitResult where
  | refused (r : WaitReason)
  | added (position : Nat)
deriving DecidableEq, Repr

/-- The wait outcome (R28, R116, R136). -/
def State.waitOutcome (s : State) (sender : Byte) (id : CallId) (result : WaitResult) : State :=
  s.eachCtx fun s i c =>
    if c.cid ≠ id then s
    else
      match c.side with
      | .answer => s.outcomeAtAnswer i c
      | .origin =>
        if c.state = .claiming ∧ sender = s.own then
          match result with
          | .added 0 => s
          | .added p => s.enterWaiting i p
          | .refused .full => s.clearOrigin i .congested true
          | .refused _ => s.clearOrigin i .pathFault true
        else s

/-- A change report (R12): the frame's kind and call id, a RELEASE's cause, the hold and the wait entry (wanted width) that the frame
removed, and the new holds. `own` is whether the frame was this station's. -/
structure Report where
  kind        : FrameKind
  cid         : CallId
  own         : Bool
  cause       : Option Byte := none
  freed       : Option (CallId × Block) := none
  removedWait : Option (CallId × Nat) := none
  newHolds    : List NewHold := []
deriving DecidableEq, Repr

/-- The frame freed a hold or removed a wait entry (R14). -/
def Report.removed (r : Report) : Bool := r.freed.isSome || r.removedWait.isSome

/-- A taken RELEASE at a context of its call (R14, R120, R123, R139, R140). -/
def State.releaseAt (s : State) (i : Ref) (c : Ctx) (own : Bool) (cause : Byte) : State :=
  match c.side, c.state with
  | .origin, .clearing => if own then s.freeCtx i else s.makeFinal i
  | .origin, _ => if own then s else s.endOrigin i (peerCause cause)
  | .answer, .clearing => if own then s.freeCtx i else s.supersede i
  | .answer, .alerting => s.endAnswer i .cancelled
  | .answer, .answering => s.endAnswer i .cancelled
  | .answer, _ => if own then s else s.endAnswer i (peerCause cause)

/-- A RECLAIM that removed the call's item, at a context of the call (R14, R120, R139). -/
def State.reclaimAt (s : State) (i : Ref) (c : Ctx) : State :=
  match c.side, c.state with
  | .origin, .clearing => s.makeFinal i
  | .origin, _ => s.endOrigin i .reclaimed
  | .answer, .clearing => s.supersede i
  | .answer, _ => s.endAnswer i .reclaimed

/-- A new hold of a context's call (R14, R113, R117, R137). -/
def State.newHoldAt (s : State) (i : Ref) (c : Ctx) (h : NewHold) : State :=
  match c.state with
  | .claiming => s.enterSettling i h.block h.trimmed
  | .waiting => s.enterSettling i h.block h.trimmed
  | .awaitPath => s.settleOn i h.block
  | .clearing =>
    let s1 := s.modifyCtx i fun c => c.record h.block
    if c.reversible && c.cause = some .congested then s1.askReversal i else s1
  | _ => s

/-- A change report at one live context (R14): the first row that matches. The contexts go in ascending index, each reading what the
one before left, so a reversal (R113) counts a context of higher index that the same report ends as still outside CLEARING, and one of
lower index as ended. R14 gives no order: the model's choice (DESIGN CHOICE, notes/assumptions/50.md, unsafe). -/
def State.reportAt (r : Report) (s : State) (i : Ref) (c : Ctx) : State :=
  if c.cid = r.cid ∧ r.kind = .release then s.releaseAt i c r.own (r.cause.getD 0#8)
  else if c.cid = r.cid ∧ r.kind = .reclaim ∧ r.removed then s.reclaimAt i c
  else
    match r.newHolds.find? fun h => h.cid = c.cid with
    | some h => s.newHoldAt i c h
    | none => s

/-- The change report at PATH, then at CENG (R12 to R14, R157): enables of a freed hold go off first, contexts in MUTE on it get
"transmitters off", and ownership passes on when CENG has acted. -/
def State.changeReport (s : State) (r : Report) : State :=
  let s1 :=
    match r.freed with
    | some (_, b) => (s.path.mutingOn b).foldl State.sendRelease (s.freeBlock b)
    | none => s
  (s1.eachCtx (State.reportAt r)).reckonOwner

/-! ### Ringing (R104 to R112) -/

/-- The RING of a context (R107). -/
def State.ringFrame (s : State) (c : Ctx) (phase : Nat) (ms : List Byte) : Frame :=
  .ring c.cid c.peerUnit (byte c.wanted) s.role.code (byte phase) ms

/-- A context queues its direct RING to the members found and goes to RINGING; FULL ends it with SEND_FAILED (R104, R106, R124). -/
def State.startRinging (s : State) (i : Ref) (ms : List Byte) : State :=
  match s.ctx i with
  | some c =>
    let s1 := (s.setCtx i (some { c with state := .ringing, members := ms })).callState i (.ringing 0 ms.length false)
    let f := s.ringFrame c 0 ms
    if s1.accepts f then s1.queueFrame f else s1.endNow i .sendFailed
  | none => s

/-- A context queues its forward RING to the desk members; FULL clears it with SEND_FAILED (R110, R111), its forward NONE (DESIGN
CHOICE, notes/assumptions/47.md, unsafe). -/
def State.queueForward (s : State) (i : Ref) (ms : List Byte) : State :=
  match s.ctx i with
  | some c =>
    let f := s.ringFrame c 1 ms
    if s.accepts f then (s.queueFrame f).setCtx i (some { c with forward := .queued })
    else (s.setCtx i (some { c with forward := .none })).clearOrigin i .sendFailed true
  | none => s

/-- A forward with no desk group: reversible clearing with NO_ANSWER (R110, R113). Its seek has ended, and forward is NONE from then on,
which R110 leaves unsaid: the model's choice (DESIGN CHOICE, notes/assumptions/47.md, unsafe). -/
def State.forwardFails (s : State) (i : Ref) : State :=
  (s.modifyCtx i fun c => { c with forward := .none }).clearOrigin i .noAnswer false

/-- A context receives the result of its seek (R106, R110). -/
def State.seekResult (res : Option (List Byte)) (s : State) (i : Ref) : State :=
  match s.ctx i with
  | some c =>
    if c.state = .seeking then
      match res with
      | some ms => s.startRinging i ms
      | none => s.endNow i .unknownUnit
    else if c.state = .ringing ∧ c.forward = .seeking then
      match res with
      | some ms => s.queueForward i ms
      | none => s.forwardFails i
    else s
  | none => s

/-- A seek record ends: it is removed and each of its contexts, in order, receives the same result from the line (R95, R96). -/
def State.endSeek (s : State) (r : Seek) : State :=
  r.refs.foldl (State.seekResult (s.lookup r.unit)) (s.removeSeek r.unit)

/-- The ring timer of a RINGING context expires (R110). -/
def State.ringExpires (s : State) (i : Ref) : State :=
  match s.ctx i with
  | some c =>
    let s1 := s.setCtx i (some { c with ring := none })
    if c.ringPhase = 1 ∨ s.sport.config.forward = false ∨ c.peerUnit = 0#16 ∨ s.role = .desk then
      s1.clearOrigin i .noAnswer false
    else
      match s1.lookup 0#16 with
      | some ms => s1.queueForward i ms
      | none => (s1.setCtx i (some { c with ring := none, forward := .seeking })).joinSeek i 0#16
  | none => s

/-- The ring timer as it starts (R102). -/
def State.ringExpiry (s : State) : Timer := some (s.now + 1000 * s.sport.config.ringTime)

/-- The forward RING was taken with an answer accepted: ring phase 1 (R100), and a narrowing RING to the answerer alone; FULL clears the
context with SEND_FAILED (R112). The members and the refused set stay those of the direct RING, and so after the narrowing RING: R100
calls the members the current RING's, R107 and R112 do not set them here, and this is the model's choice (DESIGN CHOICE,
notes/assumptions/51.md, unsafe). Its wanted width is the context's at the
queuing, as R107 gives for a RING, so as the ANSWER narrowed it: R112's "the same wanted width" may also be read as the forward RING's,
and this is the model's choice (DESIGN CHOICE, notes/assumptions/49.md, unsafe). Forward NONE after FULL is log 47's choice. -/
def State.queueNarrowing (s : State) (i : Ref) : State :=
  match s.ctx i with
  | some c =>
    let f := s.ringFrame c 1 [c.answerer.getD 0#8]
    if s.accepts f then (s.queueFrame f).setCtx i (some { c with ringPhase := 1, forward := .narrowing })
    else (s.setCtx i (some { c with ringPhase := 1, forward := .none })).clearOrigin i .sendFailed true
  | none => s

/-- The ring phase once an own RING of a phase has been taken (R100). -/
def Ctx.phaseAfter (c : Ctx) (phase : Byte) : Nat := if phase = 1#8 then 1 else c.ringPhase

/-- The originator takes its own RING (R107). A forward RING taken with an answer accepted is the "too late" of R112
(notes/assumptions/9.md); a direct RING taken after an answer announces the call and no more (notes/assumptions/32.md). A RING taken in
CLEARING while the path still mutes leaves the RELEASE to "transmitters off", by R121 step 4, where the last row of R107 may be read as
queuing it at once: the model's choice (DESIGN CHOICE, notes/assumptions/37.md, unsafe). The forward RING sets ring phase 1 there too
(R100), and leaves members, refused set and forward as they stand (DESIGN CHOICE, notes/assumptions/51.md and 47.md, unsafe). -/
def State.ownRing (s : State) (i : Ref) (phase : Byte) (ms : List Byte) : State :=
  match s.ctx i with
  | some c =>
    if c.state = .ringing ∧ phase = 0#8 then
      s.setCtx i (some { c with announced := true, ring := s.ringExpiry })
    else if c.state = .ringing ∧ phase = 1#8 ∧ c.forward = .queued then
      (s.setCtx i (some { c with members := ms, refused := [], ringPhase := 1, forward := .none, ring := s.ringExpiry })).callState
        i (.ringing 1 ms.length true)
    else if c.state ≠ .clearing ∧ phase = 1#8 ∧ c.forward = .queued then s.queueNarrowing i
    else if c.forward = .narrowing then s.setCtx i (some { c with forward := .none })
    else if c.state = .clearing then
      let s1 := s.setCtx i (some { c with announced := true, ringPhase := c.phaseAfter phase })
      if c.awaits = .ringFate then s1.queueRelease i else s1
    else if phase = 0#8 then s.setCtx i (some { c with announced := true })
    else s
  | none => s

/-- A REFUSE is taken for an ORIGIN context (R108). -/
def State.refuseAt (s : State) (i : Ref) (sender reason : Byte) : State :=
  match s.ctx i with
  | some c =>
    if c.state ≠ .ringing ∨ c.forward ≠ .none ∨ !c.members.contains sender ∨ (c.refused.any fun r => r.1 = sender) then s
    else
      let refused := c.refused ++ [(sender, reason)]
      let s1 := s.setCtx i (some { c with refused := refused })
      if c.members.all fun m => refused.any fun r => r.1 = m then
        s1.endNow i (if refused.all fun r => r.2 = refuseDnd then .dnd else .busy)
      else s1
  | none => s

/-- An ANSWER is taken for an ORIGIN context (R109, R112, R113). -/
def State.answerAtOrigin (s : State) (i : Ref) (sender cap : Byte) : State :=
  match s.ctx i with
  | some c =>
    if !c.members.contains sender || c.answerer.isSome then s
    else
      let wanted := min c.wanted (normWidth cap)
      if c.state = .ringing then
        let s1 := s.setCtx i (some { c with
          state := .claiming, answerer := some sender, wanted := wanted, ring := none
          forward := if c.forward = .seeking then .none else c.forward })
        let s2 := s1.leaveSeek i
        let s3 := if c.forward = .queued then s2.askRecall ⟨.ring, .call c.cid⟩ else s2
        (s3.callState i (.claiming sender wanted)).choose i
      else if c.state = .clearing ∧ c.reversible ∧ c.cause = some .noAnswer then
        (s.setCtx i (some { c with answerer := some sender, wanted := wanted })).askReversal i
      else s
  | none => s

/-! ### Opening contexts (R82, R103 to R105, R128 to R131, R74) -/

/-- A call id is present: it holds, waits, or a live context carries it (R82). -/
def State.callPresent (s : State) (c : CallId) : Bool := s.smu.has c || (s.findCall c).isSome

/-- The first sequence number from `start` up whose call id is not present (R82). -/
def State.searchSeq (s : State) : Nat → Byte → Byte
  | 0, start => start
  | n + 1, start => if s.callPresent ⟨s.own, start⟩ then s.searchSeq n (start + 1#8) else start

/-- The sequence number issued for the next call (R82): at most 44 of the 256 are excluded. -/
def State.nextSeq (s : State) : Byte := s.searchSeq 255 (s.stc.sequence + 1#8)

/-- The DIAL test (R103). -/
def State.dialTest (s : State) (u : UnitNum) (w : Byte) : Status :=
  match s.stc.state with
  | .unconfigured => .notConfigured
  | .configured => .notJoined
  | .learning => .notJoined
  | .isolated => .notJoined
  | .leaving => .busy
  | .joined =>
    if !validWidth w.toNat then .badValue
    else if s.role = .unit ∧ u ≠ 0#16 then .notPermitted
    else if !s.sport.config.inRange u then .outOfRange
    else if s.role ≠ .desk ∧ refs.any (fun i => s.outsideClearing i) then .inCall
    else if s.liveCount ≥ s.role.limit then .noContext
    else .accepted

/-- A context opened for a call that this station originates, and its lookup (R104). -/
def State.dialOpen (s : State) (i : Ref) (u : UnitNum) (w : Byte) : State :=
  let q := s.nextSeq
  let c : Ctx :=
    { side := .origin, cid := ⟨s.own, q⟩, state := .seeking, peerUnit := u, wanted := min w.toNat s.sport.config.capability.toNat }
  let s1 := { s with stc := { s.stc with sequence := q } }.setCtx i (some c)
  match s1.lookup u with
  | some ms => s1.startRinging i ms
  | none => (s1.joinSeek i u).callState i (.seeking u)

/-- A DESKKEY press (R105). -/
def State.deskPress (s : State) : State :=
  if s.role = .unit ∧ s.dialTest 0#16 s.sport.config.capability = .accepted then
    match s.freeRef with
    | some i => s.dialOpen i 0#16 s.sport.config.capability
    | none => s
  else s

/-- A REFUSE on behalf of no context (R130). -/
def State.refuse (s : State) (c : CallId) (reason : Byte) : State := s.queueFrame (.refuse c reason)

/-- A context opened in ALERTING for a RING (R131), whose members `ms` are the RING's, each once (R128, `State.ringAny`). -/
def State.openAlerting (s : State) (i : Ref) (sender : Byte) (c : CallId) (u : UnitNum) (w role phase : Byte) (ms : List Byte) :
    State :=
  let wanted := min (normWidth w) s.sport.config.capability.toNat
  let x : Ctx :=
    { side := .answer, cid := c, state := .alerting, peerUnit := u, members := ms, origAddr := sender, origRole := role
      wanted := wanted, ringPhase := phase.toNat, alert := some (s.now + Config.alertMs), alertedAt := s.eventNo }
  ((s.setCtx i (some x)).setAlerting i true).post (.incoming i c sender role u phase.toNat wanted)

/-- A RING that lists this station is accepted or refused by the role (R129). -/
def State.acceptRing (s : State) (sender : Byte) (c : CallId) (u : UnitNum) (w role phase : Byte) (ms : List Byte) : State :=
  let openOr := fun (s : State) =>
    if s.liveCount ≥ s.role.limit then s.refuse c refuseNoContext
    else match s.freeRef with
      | some i => s.openAlerting i sender c u w role phase ms
      | none => s.refuse c refuseNoContext
  match s.role with
  | .entry => s.refuse c refuseWrongRole
  | .unit =>
    if s.sport.dnd ∧ Role.ofCode role ≠ some .desk then s.refuse c refuseDnd
    else if refs.any (fun i => s.outsideClearing i) then s.refuse c refuseInCall
    else openOr s
  | .desk => openOr s

/-- A RING for a call that has a live ANSWER-side context here (R132). `ms` are the RING's members, each once
(R128, `State.ringAny`). -/
def State.ringAtAnswer (s : State) (i : Ref) (phase : Byte) (ms : List Byte) : State :=
  match s.ctx i with
  | some c =>
    let listed := ms.contains s.own
    let higher := decide (c.ringPhase < phase.toNat)
    match c.state with
    | .clearing => if listed then s else s.supersede i
    | .alerting =>
      if listed then s.setCtx i (some { c with members := ms, ringPhase := phase.toNat })
      else s.endAnswer i (if higher then .forwarded else .answeredElsewhere)
    | .answering =>
      if listed then s.setCtx i (some { c with members := ms, ringPhase := phase.toNat })
      else s.endAnswer i (if higher then .forwarded else .answeredElsewhere)
    | _ => if listed || higher then s else s.endAnswer i .answeredElsewhere
  | none => s

/-- A RING of another station is taken in JOINED or LEAVING (R128). -/
def State.ringTaken (s : State) (sender : Byte) (c : CallId) (u : UnitNum) (w role phase : Byte) (ms : List Byte) : State :=
  if s.stc.state = .leaving ∧ ms.contains s.own then s.refuse c refuseNoContext
  else if c.orig ≠ sender ∨ (phase ≠ 0#8 ∧ phase ≠ 1#8) then s
  else
    match s.findCtx .answer c with
    | some i => s.ringAtAnswer i phase ms
    | none => if ms.contains s.own then s.acceptRing sender c u w role phase ms else s

/-! ### Answering (R134 to R136, R140) -/

/-- An answer accepted for an ALERTING context: it queues ANSWER and goes to ANSWERING; FULL ends it with SEND_FAILED (R134, R142). -/
def State.acceptAnswer (s : State) (i : Ref) : State :=
  match s.ctx i with
  | some c =>
    let cap := s.sport.config.capability
    let s1 := ((s.setCtx i (some { c with alert := none, state := .answering })).setAlerting i false).callState i (.answering cap)
    let f := Frame.answer c.cid cap
    if s1.accepts f then s1.queueFrame f else s1.endNow i .sendFailed
  | none => s

/-- The ALERTING context that entered ALERTING earliest (R134). -/
def State.earliestAlerting (s : State) : Option Ref :=
  let cand := fun (i : Ref) =>
    match s.ctx i with
    | some c => if c.state = .alerting then some ((⟨c.alert.getD 0, c.alertedAt⟩ : Stamp), i) else none
    | none => none
  (earlier (earlier (earlier (cand 0) (cand 1)) (cand 2)) (cand 3)).map Prod.snd

/-- The station takes its own ANSWER (R135, R140). -/
def State.ownAnswer (s : State) (i : Ref) : State :=
  match s.ctx i with
  | some c =>
    let present := s.smu.has c.cid
    if c.state = .answering then
      if present then s.endNow i .answeredElsewhere
      else (s.setCtx i (some { c with state := .awaitPath, pathWait := some (s.now + Config.pathWaitMs) })).callState i .awaitPath
    else if c.state = .clearing ∧ c.awaits = .answerRecall ∧ !c.superseded ∧ !present then s.queueRelease i
    else s
  | none => s

/-- Another station's ANSWER at an ANSWER-side context (R136, R140). -/
def State.answerAtAnswer (s : State) (i : Ref) (sender : Byte) : State :=
  match s.ctx i with
  | some c =>
    if c.members.contains sender then
      match c.state with
      | .alerting => s.endAnswer i .answeredElsewhere
      | .answering => s.endAnswer i .answeredElsewhere
      | .clearing => s.supersede i
      | _ => s
    else s
  | none => s

/-- An ANSWER is taken in JOINED or LEAVING (R109, R135, R136, R140). -/
def State.answerTaken (s : State) (sender : Byte) (c : CallId) (cap : Byte) : State :=
  (s.atCall .origin c fun t i => t.answerAtOrigin i sender cap).atCall .answer c fun t i =>
    if sender = t.own then t.ownAnswer i else t.answerAtAnswer i sender

/-! ### Hanging up (R122, R141) -/

/-- What a HANGUP does to a context, and its answer (R122, R141). -/
def hangupTest (c : Ctx) : Status :=
  match c.side, c.state with
  | .origin, .clearing => if c.reversible then .accepted else .wrongState
  | .origin, _ => .accepted
  | .answer, .alerting => .wrongState
  | .answer, .clearing => .wrongState
  | .answer, _ => .accepted

/-- The clearing a HANGUP or an on-hook starts where `hangupTest` accepts it (R122, R141). -/
def State.hangUp (s : State) (i : Ref) (c : Ctx) : State :=
  match c.side, c.state with
  | .origin, .seeking => s.endNow i .hungUp
  | .origin, .clearing => s.makeFinal i
  | .origin, _ => s.clearOrigin i .hungUp true
  | .answer, _ => s.clearAnswer i .hungUp

/-- An on-hook change at a UNIT or DESK station (R122, R141). Its PATH and CALL_ENDED notices stand context by context, as at a RESTART
(DESIGN CHOICE, notes/assumptions/46.md, unsafe). -/
def State.onHook (s : State) : State :=
  if s.role = .entry then s
  else s.eachCtx fun s i c => if hangupTest c = .accepted then s.hangUp i c else s

/-- An off-hook change (R134). -/
def State.offHook (s : State) : State :=
  match s.earliestAlerting with
  | some i => s.acceptAnswer i
  | none => s

/-! ### Door request (R165 to R167) -/

/-- The OPEN_DOOR test for a context that is live (R165). -/
def State.doorTest (s : State) (i : Ref) (c : Ctx) : Status :=
  if c.side = .origin ∨ Role.ofCode c.origRole ≠ some .entry then .notPermitted
  else if c.state ≠ .talk then .wrongState
  else if s.doorPending i then .busy
  else .accepted

/-- The door request of a context ends with a DOOR notice (R166). -/
def State.endDoor (s : State) (i : Ref) (c : CallId) (r : DoorResult) : State := (s.setDoor i none).post (.door (some i) c r 0#8)

/-- An accepted door request: OPEN queued, the record PENDING for 2 s; FULL is a dropped OPEN (R165, R166). -/
def State.requestDoor (s : State) (i : Ref) (c : CallId) : State :=
  if s.accepts (.open_ c) then (s.queueFrame (.open_ c)).setDoor i (some (s.now + Config.replyMs)) else s.endDoor i c .noReply

/-- A door key press, for the context that owns the audio port (R165). -/
def State.doorPress (s : State) : State :=
  if s.stc.state ≠ .joined then s
  else
    match s.path.owner with
    | some i =>
      match s.ctx i with
      | some c => if s.doorTest i c = .accepted then s.requestDoor i c.cid else s
      | none => s
    | none => s

/-- The ORIGIN context of a call is in TALK with this answerer (R167). -/
def State.talksWith (s : State) (sender : Byte) (c : CallId) : Bool :=
  match (s.findCtx .origin c).bind s.ctx with
  | some x => x.state = .talk && x.answerer = some sender
  | none => false

/-- The result with which the panel answers an OPEN (R167). -/
def State.openResult (s : State) (sender : Byte) (c : CallId) : DoorResult :=
  if !s.talksWith sender c then .notInTalk else if s.oku.strikeFault.sticky then .fault else .energized

/-- An OPEN is taken; at an ENTRY station one that names a call of its own is answered (R118, R167). -/
def State.openTaken (s : State) (sender : Byte) (c : CallId) : State :=
  if s.role ≠ .entry ∨ c.orig ≠ s.own then s
  else
    let r := s.openResult sender c
    ((if r = .energized then s.energize else s).queueFrame (.opened c r.code)).post (.door (s.findCtx .origin c) c r sender)

/-- An OPENED is taken (R166). -/
def State.openedTaken (s : State) (sender : Byte) (c : CallId) (result : Byte) : State :=
  match s.findCtx .answer c, DoorResult.ofOpened result with
  | some i, some r => if s.doorPending i ∧ sender = c.orig then s.endDoor i c r else s
  | _, _ => s

/-! ### Installation and stale self-release (R73, R74) -/

/-- A context against the installed copy (R73): the first row that matches. For CLEARING the model follows R73, which records the
block and no more, and leaves a reversible clearing reversible, where R113 and R125 may be read as making it final (DESIGN CHOICE,
notes/assumptions/35.md, unsafe). -/
def State.settleCtx (s : State) (i : Ref) (c : Ctx) : State :=
  let hold := (s.smu.holdOf c.cid).map fun h => (h.base, h.width)
  let recallClaim := fun (s : State) => (s.askRecall ⟨.claim, .call c.cid⟩).askRecall ⟨.wait, .call c.cid⟩
  match c.state with
  | .settling => if hold.isSome && hold = c.path then s else s.clearCall i .lostPath
  | .talk => if hold.isSome && hold = c.path then s else s.clearCall i .lostPath
  | .claiming =>
    match hold, s.smu.position c.cid with
    | some b, _ => (recallClaim s).settleOn i b
    | none, some p => (recallClaim s).enterWaiting i p
    | none, none => s
  | .waiting =>
    match hold, s.smu.position c.cid with
    | some b, _ => s.settleOn i b
    | none, some _ => s
    | none, none => s.clearCall i .lostPath
  | .awaitPath =>
    match hold with
    | some b => s.settleOn i b
    | none => s
  | .clearing =>
    match hold with
    | some b => s.modifyCtx i fun c => c.record b
    | none => s
  | _ => s

/-- The stale call ids: holds then wait entries bearing this station's address that no live context carries (R74). -/
def State.staleCalls (s : State) : List CallId :=
  (s.smu.holds.map Hold.cid ++ s.smu.waits.map WaitEntry.cid).filter fun c => c.orig = s.own && (s.findCall c).isNone

/-- One stale call id, while a context is free within the role limit: a context in CLEARING with cause STALE, CALL_ENDED posted, and
its RELEASE queued (R74). R74 gives the context no peer and says nothing of its wanted width: both stand at 0, which READ_CONTEXT then
answers, the model's choice (DESIGN CHOICE, notes/assumptions/43.md, unsafe). Where the RELEASE is refused FULL, CALL_ENDED comes before
SEND_FAILED: R74 gives no order of the two, and the model's choice is R121's, in which a final clearing posts CALL_ENDED first (DESIGN
CHOICE, notes/assumptions/45.md, unsafe). -/
def State.releaseStale (s : State) (c : CallId) : State :=
  if s.liveCount ≥ s.role.limit then s
  else
    match s.freeRef with
    | some i =>
      ((s.setCtx i (some { side := .origin, cid := c, state := .clearing, cause := some .stale })).postEnd i).queueRelease i
    | none => s

/-- Stale self-release (R74). -/
def State.staleSelfRelease (s : State) : State := s.staleCalls.foldl State.releaseStale s

end Sys2Proof.Machine
end

