-- ==== Sys2Proof/Machine/MapFrames.lean ====
section
/-! DEFINITION. What a taken CLAIM, WAIT, RELEASE or RECLAIM does, to the copy first and then, by outcome and change report, at
PATH and CENG (R5 to R14, R26 to R31, R38, R39). The same operations apply the learning buffer (R68). -/

namespace Sys2Proof.Machine

/-- A CLAIM is taken (R6 to R8): the compare-and-swap, then the claim outcome, then the change report. -/
def State.claimTaken (s : State) (sender : Byte) (c : CallId) (base width : Byte) : State :=
  let b : Block := (base.toNat, width.toNat)
  let report := fun (hs : List NewHold) => ({ kind := .claim, cid := c, own := decide (sender = s.own), newHolds := hs } : Report)
  match claimTest s.smu sender c b.1 b.2 with
  | none => ((s.addHold c b).claimOutcome sender c none b).changeReport (report [⟨c, b, false⟩])
  | some r => (s.claimOutcome sender c (some r) b).changeReport (report [])

/-- A WAIT is taken (R26 to R28): the test, the append and the scan, then the wait outcome, then the change report. -/
def State.waitTaken (s : State) (sender : Byte) (c : CallId) (wanted : Byte) : State :=
  let report := fun (gs : List NewHold) => ({ kind := .wait, cid := c, own := decide (sender = s.own), newHolds := gs } : Report)
  match waitTest s.smu sender c wanted.toNat with
  | none =>
    let s1 := s.appendWait c wanted.toNat
    let s2 := s1.grantScan
    (s2.waitOutcome sender c (.added ((s2.smu.position c).getD 0))).changeReport (report s1.grants)
  | some r => (s.waitOutcome sender c (.refused r)).changeReport (report [])

/-- The report of a RELEASE or RECLAIM against the copy as it stands before the frame: the call id's hold and wait entry are what
it removes (R9, R11, R12). -/
def State.removalReport (s : State) (kind : FrameKind) (sender : Byte) (c : CallId) (cause : Option Byte) : Report :=
  { kind := kind, cid := c, own := decide (sender = s.own), cause := cause
    freed := (s.smu.holdOf c).map fun h => (h.cid, (h.base, h.width))
    removedWait := (s.smu.waitOf c).map fun w => (w.cid, w.wanted) }

/-- The effect a RELEASE and a RECLAIM share (R9 steps 1 to 5, R11): hold and wait entry removed, an own queued RECLAIM recalled, the
scan where anything was removed, and the change report. -/
def State.freeCall (s : State) (kind : FrameKind) (sender : Byte) (c : CallId) (cause : Option Byte) : State :=
  let s1 := (s.removeItem c).askRecall ⟨.reclaim, .call c⟩
  let report := s.removalReport kind sender c cause
  if s.smu.has c then s1.grantScan.changeReport { report with newHolds := s1.grants } else s1.changeReport report

/-- A RELEASE is taken (R9, R10): it reports in every case. -/
def State.releaseTaken (s : State) (sender : Byte) (c : CallId) (cause : Byte) : State := s.freeCall .release sender c (some cause)

/-- A RECLAIM is taken (R11): as a RELEASE where the call id has an item; otherwise an own queued RECLAIM stays and the report lists
nothing (notes/assumptions/27.md). The own echo frees the RECLAIM slot (R36). The next overdue item's RECLAIM then joins the transmit queue
behind the frames that CENG queues on the change report: the spec orders the two nowhere, and this is the model's choice (DESIGN CHOICE,
notes/assumptions/44.md, unsafe). -/
def State.reclaimTaken (s : State) (sender : Byte) (c : CallId) : State :=
  let s2 :=
    if s.smu.has c then s.freeCall .reclaim sender c none else s.changeReport (s.removalReport .reclaim sender c none)
  if sender = s.own then s2.nextOverdue else s2

end Sys2Proof.Machine
end

