-- ==== Sys2Proof/Machine/Station.lean ====
section
/-! DEFINITION. The station controller: station states, joining, learning, snapshots, leaving, riser loss and conflict (R62 to R81),
with what those events do at the other blocks (R20, R40, R58, R99, R125, R144, R160, R186). -/

namespace Sys2Proof.Machine

/-! ### Station state -/

/-- The station state changes: the record's lock follows, and the STATION notice is posted (R62, R63). -/
def State.moveTo (s : State) (new : StationState) (reason : StationReason) : State :=
  State.post { s with stc := { s.stc with state := new, locked := new.locks } } (.station s.stc.state new reason)

/-- The learning buffer empty, learn timer and stagger timer stopped (R81). -/
def State.stopLearning (s : State) : State := { s with stc := { s.stc with buffer := [], learn := none, stagger := none } }

/-- The stagger timer stopped (R71). -/
def State.stopStagger (s : State) : State := { s with stc := { s.stc with stagger := none } }

/-- The learn outcome set (R81). -/
def State.setOutcome (s : State) (o : LearnOutcome) : State := { s with stc := { s.stc with outcome := o } }

/-- Every live context ends at once with cause ISOLATED or its first cause, without frames (R78, R125, R144). -/
def State.endAll (s : State) : State := s.eachCtx fun s i _ => s.endNow i .isolated

/-- What every way off the riser does (R77, R78, R80): contexts ended, PATH, queue, copy and buffer empty, timers stopped, seeks
closed. -/
def State.offRiser (s : State) : State := (((s.endAll).clearPath.emptyQueue).emptyCopy.stopLearning).closeSeeks

/-- The station enters ISOLATED (R64, R78). -/
def State.enterIsolated (s : State) : State := (s.offRiser).moveTo .isolated .riserLost

/-- The station enters CONFIGURED from the riser (R75, R77, R78). -/
def State.enterConfigured (s : State) (reason : StationReason) : State := (s.offRiser).purgeLines.moveTo .configured reason

/-- An address conflict (R57, R80). -/
def State.conflict (s : State) : State :=
  (((s.offRiser).purgeLines).post (.fault .conflict false)).moveTo .configured .conflict

/-- "Riser lost" reaches the STC (R78). -/
def State.riserLost (s : State) : State :=
  match s.stc.state with
  | .learning => s.enterIsolated
  | .joined => s.enterIsolated
  | .leaving => s.enterConfigured .riserLost
  | _ => s

/-! ### Joining and learning -/

/-- The station's JOIN frame (R65 step 4). -/
def State.joinFrame (s : State) : Frame :=
  .join s.role.code (if s.role = .unit then s.sport.config.unit else 0#16) s.sport.config.capability

/-- The polarity is to be found afresh (R45). -/
def State.forgetPolarity (s : State) : State := { s with rif := { s.rif with polarity := .unknown } }

/-- Entry into LEARNING (R45, R65). -/
def State.enterLearning (s : State) (reason : StationReason) : State :=
  (((((s.moveTo .learning reason).emptyCopy).clearPath.stopLearning).closeSeeks.setOutcome .none).forgetPolarity).queueFrame
    s.joinFrame

/-- "Riser returned" reaches the STC (R79). -/
def State.riserReturned (s : State) : State :=
  match s.stc.state with
  | .isolated => s.enterLearning .riserReturned
  | _ => s

/-- Learning restarts (R66). -/
def State.learnRestart (s : State) (reason : LearnReason) : State :=
  let s1 := ((s.stopLearning).emptyCopy).setOutcome .none
  let s2 := if s1.kindQueued .join then s1 else s1.queueFrame s1.joinFrame
  s2.post (.learnRestart reason)

/-- A queued RECLAIM of this station is recalled (R40). -/
def State.recallReclaim (s : State) : State :=
  match s.rif.queue.find? fun e => e.frame.kind = .reclaim with
  | some e => s.askRecall e.frame.ident
  | none => s

/-- A valid snapshot is installed, at the SMU and as part of it at PATH (R20, R40, R158). A new port owner's PATH notice so comes before
the CALL_ENDED of a context that CENG then clears, by R72's steps 5 and 6 (DEDUCED, notes/assumptions/48.md). -/
def State.install (s : State) (hs : List SnapHold) (ws : List SnapWait) : State :=
  let s1 := (s.installCopy hs ws).recallReclaim
  (s1.unbackedMuting.foldl State.sendRelease s1.installPath)

/-- Learning ends: the STATION notice, then stale self-release (R67, R68). -/
def State.becomeJoined (s : State) (o : LearnOutcome) : State :=
  (((s.stopLearning).setOutcome o).moveTo .joined .learned).staleSelfRelease

/-- A SNAPSHOT is taken in LEARNING (R67). -/
def State.learnSnapshot (s : State) (hs : List SnapHold) (ws : List SnapWait) : State :=
  if snapValid hs ws then (s.install hs ws).becomeJoined .snapshot else s

/-- A frame other than a SNAPSHOT is taken in LEARNING (R66). -/
def State.learnFrame (s : State) (sender : Byte) (f : Frame) : State :=
  if s.stc.buffer.length < Config.learnCap then
    let timer := if f.kind = .join ∧ sender = s.own ∧ s.stc.learn = none then some (s.now + Config.learnMs) else s.stc.learn
    { s with stc := { s.stc with buffer := s.stc.buffer ++ [(sender, f)], learn := timer } }
  else s.learnRestart .overflow

/-- One buffered frame applied at learn timer expiry (R68). -/
def State.applyBuffered (s : State) (x : Byte × Frame) : State :=
  let s1 := s.newEvent
  match x.2 with
  | .claim c b w => s1.claimTaken x.1 c b w
  | .wait c w => s1.waitTaken x.1 c w
  | .release c k => s1.releaseTaken x.1 c k
  | .reclaim c => s1.reclaimTaken x.1 c
  | .join r u w => s1.directoryJoin x.1 r u w
  | .offer u w => s1.directoryOffer x.1 u w
  | .leave => s1.directoryLeave x.1
  | _ => s1

/-- The learn timer expires (R68). -/
def State.learnExpires (s : State) : State := (s.stc.buffer.foldl State.applyBuffered s).becomeJoined .empty

/-! ### Snapshots -/

/-- The STC's part of a taken JOIN of another station in JOINED (R70). -/
def State.armStagger (s : State) : State :=
  if s.stc.stagger = none ∧ !s.kindQueued .snapshot then
    { s with stc := { s.stc with stagger := some (s.now + Config.staggerMs * s.own.toNat) } }
  else s

/-- A JOIN is taken in JOINED or LEAVING (R69, R70, R76, R86). -/
def State.joinTaken (s : State) (sender role : Byte) (u : UnitNum) (w : Byte) : State :=
  let s1 := s.directoryJoin sender role u w
  if s.stc.state = .joined ∧ sender ≠ s.own then s1.armStagger else s1

/-- The stagger timer expires (R71). -/
def State.staggerExpires (s : State) : State :=
  if s.stc.state = .joined then (s.stopStagger).queueFrame (.snapshot [] []) else s.stopStagger

/-- A SNAPSHOT is taken in JOINED (R72). -/
def State.joinedSnapshot (s : State) (sender : Byte) (hs : List SnapHold) (ws : List SnapWait) : State :=
  let s1 := (s.stopStagger).askRecall ⟨.snapshot, .bare⟩
  if !snapValid hs ws || s1.smu.equalTo hs ws then s1
  else
    let s2 := s1.post (.divergence sender s1.smu.holds.length s1.smu.waits.length hs.length ws.length)
    ((s2.install hs ws).eachCtx State.settleCtx).staleSelfRelease

/-- A SNAPSHOT is taken in JOINED or LEAVING (R72, R76). -/
def State.snapshotTaken (s : State) (sender : Byte) (hs : List SnapHold) (ws : List SnapWait) : State :=
  if s.stc.state = .joined then s.joinedSnapshot sender hs ws else s

/-! ### Leaving -/

/-- LEAVE is queued when every context is free and no own JOIN is queued (R77). -/
def State.leaveCheck (s : State) : State :=
  if s.stc.state = .leaving ∧ s.liveCount = 0 ∧ !s.kindQueued .join ∧ !s.kindQueued .leave then s.queueFrame .leave else s

/-- A LEAVE is taken in JOINED or LEAVING (R77, R89). -/
def State.leaveTaken (s : State) (sender : Byte) : State :=
  let s1 := s.directoryLeave sender
  if sender = s.own ∧ s.stc.state = .leaving then s1.enterConfigured .left else s1

/-- One context at a RESTART request in JOINED (R75, R125, R144). -/
def State.restartCtx (s : State) (i : Ref) (c : Ctx) : State :=
  if c.state = .clearing then (if c.reversible then s.makeFinal i else s) else s.clearCall i .restart

/-- RESTART in JOINED: the station enters LEAVING (R75, R97). CENG clears the contexts one by one in ascending index, and the teardown
of the port owner's path reckons the next owner at once. Its PATH notice so comes before its own context's CALL_ENDED, which the same
request posts later: R62 orders the CALL_ENDED notices before the STATION notice alone, and this is the model's choice (DESIGN CHOICE,
notes/assumptions/46.md, unsafe). -/
def State.enterLeaving (s : State) : State :=
  let s1 := ((s.stopStagger).askRecall ⟨.snapshot, .bare⟩).askRecall s.joinFrame.ident
  let s2 := s1.eachCtx State.restartCtx
  let s3 := if s2.udir.offer = .pending then s2.setOffer .none else s2
  (s3.moveTo .leaving .restartRequested).leaveCheck

end Sys2Proof.Machine
end

