-- ==== Sys2Proof/Machine/Port.lean ====
section
/-! DEFINITION. The meanings of the station port's requests and transaction phases (R64, R75, R98, R103, R122, R134, R141, R165,
R172 to R186), with the record layouts of R175, R183 and R185. -/

namespace Sys2Proof.Machine

/-! ### Transactions (R173, R174) -/

/-- An answer record is formed, with what its last byte still does. -/
def State.respond (s : State) (st : Status) (fields : List Byte) (tail : Tail) : State :=
  { s with sport := { s.sport with transaction := some ⟨⟨st, fields⟩, tail⟩ } }

/-- An answer without fields: a refusal, or ACCEPTED with M = 0. -/
def State.reply (s : State) (st : Status) : State := s.respond st [] .nothing

/-- A new transaction: what the one before still held is over. -/
def State.openTransaction (s : State) : State := { s with sport := { s.sport with transaction := none } }

/-- A request is decoded (R174): a wrong length is answered BAD_VALUE, else the request's own test follows. -/
def State.serve (s : State) (len : Nat) (fields : List Byte) (run : State → State) : State :=
  if fields.length = len then run s.openTransaction else s.openTransaction.reply .badValue

/-! ### Configuration (R177, R178) -/

/-- Settle mode codes (R177). -/
def SettleMode.ofCode (b : Byte) : Option SettleMode :=
  if b = 0x00#8 then some .carrier else if b = 0x01#8 then some .timed40 else if b = 0x02#8 then some .timed80
  else if b = 0x03#8 then some .timed160 else none

/-- Attention mode codes (R177). -/
def AttnMode.ofCode (b : Byte) : Option AttnMode :=
  if b = 0x00#8 then some .single else if b = 0x01#8 then some .split else none

/-- A yes/no field, none for another value (R177, R179). -/
def flagOf (b : Byte) : Option Bool := if b = 0x00#8 then some false else if b = 0x01#8 then some true else none

/-- The fields of a record lie in their values, and agree (R177, R178). -/
def ConfigRecord.valid (r : ConfigRecord) : Bool :=
  validAddr r.address && validWidth r.capability.toNat
    && 1 ≤ r.lower.toNat && r.lower.toNat ≤ Config.maxUnit && 1 ≤ r.upper.toNat && r.upper.toNat ≤ Config.maxUnit
    && r.lower.toNat ≤ r.upper.toNat
    && 10 ≤ r.ringTime && r.ringTime ≤ 60 && 10 ≤ r.waitLimit && r.waitLimit ≤ 60
    && 30 ≤ r.talkLimit && r.talkLimit ≤ 600 && 1 ≤ r.strikePulse && r.strikePulse ≤ 15
    && [3, 6, 12, 24].contains r.faultSamples
    && (match r.role with
        | .unit => 1 ≤ r.unit.toNat && r.unit.toNat ≤ Config.maxUnit && r.lower.toNat ≤ r.unit.toNat && r.unit.toNat ≤ r.upper.toNat
        | _ => r.unit == 0#16)

/-- The record of a CONFIGURE's 18 field bytes, none where any test of R178 fails. -/
def parseConfig : List Byte → Option ConfigRecord
  | [role, addr, u1, u0, cap, l1, l0, h1, h0, ring, fwd, wait, t1, t0, settle, strike, samples, attn] =>
    match Role.ofCode role, flagOf fwd, SettleMode.ofCode settle, AttnMode.ofCode attn with
    | some role, some fwd, some settle, some attn =>
      let r : ConfigRecord :=
        { role := role, address := addr, unit := wordOf u1 u0, capability := cap, lower := wordOf l1 l0, upper := wordOf h1 h0,
          ringTime := ring.toNat, forward := fwd, waitLimit := wait.toNat, talkLimit := (wordOf t1 t0).toNat, settle := settle,
          strikePulse := strike.toNat, faultSamples := samples.toNat, attn := attn }
      if r.valid then some r else none
    | _, _, _, _ => none
  | _ => none

/-- A record accepted: replaced whole, the attention lines recomputed, seeks and pending OFFER cleared, and the station in CONFIGURED
(R63, R99, R178). -/
def State.acceptConfig (s : State) (r : ConfigRecord) : State :=
  let s1 := { s with sport := { s.sport with config := r }.recompute }.closeSeeks
  if s1.stc.state = .unconfigured then s1.moveTo .configured .configured else s1

/-- CONFIGURE (R178). -/
def execConfigure (fields : List Byte) (s : State) : Host.Outcome State Fault Refusal :=
  .next <| s.serve 18 fields fun s =>
    if s.stc.locked then s.reply .locked
    else
      match parseConfig fields with
      | some r => (s.acceptConfig r).reply .accepted
      | none => s.reply .badValue

/-! ### Station requests -/

/-- JOIN (R64). -/
def execJoin (fields : List Byte) (s : State) : Host.Outcome State Fault Refusal :=
  .next <| s.serve 0 fields fun s =>
    match s.stc.state with
    | .unconfigured => s.reply .notConfigured
    | .configured =>
      match s.rif.supply with
      | .present => (s.enterLearning .joinRequested).reply .accepted
      | .lost => s.enterIsolated.reply .accepted
    | .leaving => s.reply .busy
    | _ => s.reply .wrongState

/-- RESTART (R75). -/
def execRestart (fields : List Byte) (s : State) : Host.Outcome State Fault Refusal :=
  .next <| s.serve 0 fields fun s =>
    match s.stc.state with
    | .unconfigured => s.reply .notConfigured
    | .configured => s.reply .wrongState
    | .learning => (s.enterConfigured .restartRequested).reply .accepted
    | .isolated => (s.enterConfigured .restartRequested).reply .accepted
    | .joined => s.enterLeaving.reply .accepted
    | .leaving => s.reply .busy

/-! ### Call requests -/

/-- The station-state answers that the call requests share (R176), none where the request goes on to its own rows. -/
def StationState.callRefusal : StationState → Option Status
  | .unconfigured => some .notConfigured
  | .configured => some .notJoined
  | .learning => some .notJoined
  | .isolated => some .notJoined
  | .leaving => some .busy
  | .joined => none

/-- A context reference byte. -/
def refOf (b : Byte) : Option Ref := if h : b.toNat < 4 then some ⟨b.toNat, h⟩ else none

/-- A request naming a context: the station-state rows, then BAD_REF, then the request's own rows (R122, R134, R165). -/
def State.onContext (s : State) (fields : List Byte) (run : State → Ref → Ctx → State) : State :=
  match s.stc.state.callRefusal with
  | some st => s.reply st
  | none =>
    match fields.head?.bind refOf with
    | some i =>
      match s.ctx i with
      | some c => run s i c
      | none => s.reply .badRef
    | none => s.reply .badRef

/-- DIAL (R103, R104). -/
def State.dial (s : State) (u : UnitNum) (w : Byte) : State :=
  match s.dialTest u w with
  | .accepted =>
    match s.freeRef with
    | some i => (s.newEvent.dialOpen i u w).respond .accepted [byte i.val, s.own, s.nextSeq] .nothing
    | none => s.reply .noContext
  | st => s.reply st

/-- DIAL (R103). -/
def execDial (fields : List Byte) (s : State) : Host.Outcome State Fault Refusal :=
  .next <| s.serve 3 fields fun s =>
    match fields with
    | [u1, u0, w] => s.dial (wordOf u1 u0) w
    | _ => s.reply .badValue

/-- ANSWER (R134). -/
def execAnswer (fields : List Byte) (s : State) : Host.Outcome State Fault Refusal :=
  .next <| s.serve 1 fields fun s => s.onContext fields fun s i c =>
    if c.side = .answer ∧ c.state = .alerting then (s.acceptAnswer i).reply .accepted else s.reply .wrongState

/-- HANGUP (R122, R141). -/
def execHangup (fields : List Byte) (s : State) : Host.Outcome State Fault Refusal :=
  .next <| s.serve 1 fields fun s => s.onContext fields fun s i c =>
    match hangupTest c with
    | .accepted => (s.hangUp i c).reply .accepted
    | st => s.reply st

/-- OPEN_DOOR (R165). -/
def execOpenDoor (fields : List Byte) (s : State) : Host.Outcome State Fault Refusal :=
  .next <| s.serve 1 fields fun s => s.onContext fields fun s i c =>
    match s.doorTest i c with
    | .accepted => (s.requestDoor i c.cid).reply .accepted
    | st => s.reply st

/-! ### Settings -/

/-- SET_DND (R179). -/
def execSetDnd (fields : List Byte) (s : State) : Host.Outcome State Fault Refusal :=
  .next <| s.serve 1 fields fun s =>
    match fields.head?.bind flagOf with
    | none => s.reply .badValue
    | some b =>
      if s.role ≠ .unit then s.reply .notPermitted
      else State.reply { s with sport := { s.sport with dnd := b } } .accepted

/-- Fault kind codes of CLEAR_FAULT (R175). -/
def faultKindOf (b : Byte) : Option FaultKind := if b = 0x01#8 then some .strike else if b = 0x02#8 then some .ringer else none

/-- CLEAR_FAULT (R172). -/
def execClearFault (fields : List Byte) (s : State) : Host.Outcome State Fault Refusal :=
  .next <| s.serve 1 fields fun s =>
    match fields.head?.bind faultKindOf with
    | none => s.reply .badValue
    | some k =>
      let x := s.oku.fault k
      if !x.sticky then s.reply .accepted
      else if x.sample then s.reply .stillPresent
      else State.reply { s with oku := s.oku.setFault k { x with sticky := false } } .accepted

/-- PURGE (R98). -/
def execPurge (fields : List Byte) (s : State) : Host.Outcome State Fault Refusal :=
  .next <| s.serve 0 fields fun s => s.purgeLines.reply .accepted

/-! ### Notices (R181, R183) -/

/-- A list of bytes cut or filled with 00h to a length. -/
def padded (n : Nat) (bs : List Byte) : List Byte := (bs ++ List.replicate n 0#8).take n

/-- The detail of a CALL_STATE notice (R183). -/
def CallDetail.bytes : CallDetail → List Byte
  | .seeking u => CtxState.seeking.code :: wordBytes u
  | .ringing p m f => [CtxState.ringing.code, byte p, byte m, flagByte f]
  | .claiming a w => [CtxState.claiming.code, a, byte w]
  | .waiting p => [CtxState.waiting.code, byte p]
  | .settling b w t => [CtxState.settling.code, byte b, byte w, flagByte t]
  | .answering c => [CtxState.answering.code, c]
  | .awaitPath => [CtxState.awaitPath.code]

/-- The detail a notice carries, before its filling to eight bytes (R183). -/
def Notice.detail : Notice → List Byte
  | .incoming _ _ a r u p w => [a, r] ++ wordBytes u ++ [byte p, byte w]
  | .callState _ _ d => d.bytes
  | .path _ _ b w t o => [byte b, byte w, flagByte t, flagByte o]
  | .callEnded _ _ x => [causeByte x]
  | .door _ _ r a => [r.code, a]
  | .fault k e => [k.code, flagByte e]
  | .station p n r => [p.code, n.code, r.code]
  | .divergence a ch cw sh sw => [a, byte ch, byte cw, byte sh, byte sw]
  | .learnRestart r => [r.code]
  | .sendFailed _ _ k => [k.code]

/-- The context reference byte of a notice, FFh for none (R175, R183). -/
def Notice.refByte : Notice → Byte
  | .incoming i .. => byte i.val
  | .callState i .. => byte i.val
  | .path i .. => byte i.val
  | .callEnded i .. => byte i.val
  | .door (some i) .. => byte i.val
  | .sendFailed i .. => byte i.val
  | _ => 0xFF#8

/-- The call id of a notice, 0000h for none (R175, R183). -/
def Notice.callBytes : Notice → List Byte
  | .incoming _ c .. => c.bytes
  | .callState _ c _ => c.bytes
  | .path _ c .. => c.bytes
  | .callEnded _ c _ => c.bytes
  | .door _ c .. => c.bytes
  | .sendFailed _ c _ => c.bytes
  | _ => [0#8, 0#8]

/-- The 13 answer bytes of READ_NOTICE for a queue (R175, R181). -/
def noticeBytes : List Notice → List Byte
  | [] => [0#8, 0xFF#8, 0#8, 0#8] ++ List.replicate 8 0#8 ++ [0#8]
  | n :: ns => [n.code, n.refByte] ++ n.callBytes ++ padded 8 n.detail ++ [byte ns.length]

/-- READ_NOTICE (R181): the notice leaves the queue at the answer's last byte. -/
def execReadNotice (fields : List Byte) (s : State) : Host.Outcome State Fault Refusal :=
  .next <| s.serve 0 fields fun s =>
    s.respond .accepted (noticeBytes s.sport.notices) (if s.sport.notices.isEmpty then .nothing else .removeNotice)

/-- The effect tied to the last byte of an answer is spent. -/
def Transaction.spent (t : Transaction) : Transaction := { t with tail := .nothing }

/-- The oldest notice leaves the queue and the lines are recomputed (R181, R182). -/
def Sport.removeNotice (p : Sport) (t : Transaction) : Sport :=
  { p with notices := p.notices.drop 1, transaction := some t.spent }.recompute

/-- NOTICE_REMOVED: the last byte of a READ_NOTICE answer has been clocked out (R181). -/
def execNoticeRemoved (s : State) : Host.Outcome State Fault Refusal :=
  .next <|
    match s.sport.transaction with
    | some t => if t.tail = .removeNotice then { s with sport := s.sport.removeNotice t } else s
    | none => s

/-! ### Reads -/

/-- The 10 answer bytes of READ_STATUS (R175, R184). -/
def State.statusBytes (s : State) : List Byte :=
  [s.stc.state.code, s.rif.polarity.code, s.rif.supply.code, flagByte s.sport.overflow, flagByte s.oku.strikeFault.sticky,
   flagByte s.oku.ringerFault.sticky, flagByte s.sport.dnd, s.stc.outcome.code, s.stc.sequence, byte s.sport.notices.length]

/-- READ_STATUS (R184): the overflow flag is cleared at the answer's last byte. -/
def execReadStatus (fields : List Byte) (s : State) : Host.Outcome State Fault Refusal :=
  .next <| s.serve 0 fields fun s => s.respond .accepted s.statusBytes (.clearOverflow false)

/-- OVERFLOW_FLAG_CLEARED: the last byte of a READ_STATUS answer has been clocked out; a posting dropped since the decode keeps the
flag set (R184). -/
def execOverflowFlagCleared (s : State) : Host.Outcome State Fault Refusal :=
  .next <|
    match s.sport.transaction with
    | some t =>
      match t.tail with
      | .clearOverflow dropped =>
        { s with sport := { s.sport with overflow := s.sport.overflow && dropped, transaction := some t.spent } }
      | _ => s
    | none => s

/-- An age in whole seconds, at most 65535, as two bytes (R15, R42). -/
def State.ageBytes (s : State) (a : Stamp) : List Byte := wordBytes (BitVec.ofNat 16 (min 65535 ((s.now - a.ms) / 1000)))

/-- A call id field, 0000h for none (R175). -/
def callField : Option CallId → List Byte
  | some c => c.bytes
  | none => [0#8, 0#8]

/-- The answer of READ_SLOTS (R23, R175). -/
def State.slotBytes (s : State) : List Byte :=
  byte (freeCount s.smu.holds) :: (List.range Config.channels).flatMap (fun n => callField (holderOf s.smu.holds n))
    ++ byte s.smu.holds.length
    :: s.smu.holds.flatMap fun h => [byte h.base, byte h.width] ++ h.cid.bytes ++ s.ageBytes h.age

/-- READ_SLOTS (R23). -/
def execReadSlots (fields : List Byte) (s : State) : Host.Outcome State Fault Refusal :=
  .next <| s.serve 0 fields fun s => s.respond .accepted s.slotBytes .nothing

/-- The call id of this station's queued RECLAIM (R42). -/
def State.queuedReclaim (s : State) : Option CallId :=
  s.rif.queue.findSome? fun e => match e.frame with | .reclaim c => some c | _ => none

/-- The wait entries of READ_WAITS from a position on (R42, R175). -/
def State.waitBytes (s : State) : Nat → List WaitEntry → List Byte
  | _, [] => []
  | n, w :: ws => [byte n] ++ w.cid.bytes ++ [byte w.wanted] ++ s.ageBytes w.age ++ [w.audit.code] ++ s.waitBytes (n + 1) ws

/-- READ_WAITS (R42). -/
def execReadWaits (fields : List Byte) (s : State) : Host.Outcome State Fault Refusal :=
  .next <| s.serve 0 fields fun s =>
    s.respond .accepted (byte s.smu.waits.length :: s.waitBytes 1 s.smu.waits ++ callField s.queuedReclaim) .nothing

/-- The 12 answer bytes of READ_LINE (R98, R175). For an invalid line R175 gives the valid byte and the unused places; 00h in its tag
and member count is the model's choice (DESIGN CHOICE, notes/assumptions/36.md, unsafe). -/
def lineBytes : Option DirLine → List Byte
  | none => List.replicate 12 0#8
  | some l =>
    [flagByte true] ++ wordBytes l.unit ++ [byte l.members.length] ++ padded 8 (l.members.flatMap fun m => [m.addr, m.cap])

/-- READ_LINE (R98, R176). -/
def execReadLine (fields : List Byte) (s : State) : Host.Outcome State Fault Refusal :=
  .next <| s.serve 1 fields fun s =>
    match fields.head?.bind fun b => s.udir.lines[b.toNat]? with
    | some l => s.respond .accepted (lineBytes l) .nothing
    | none => s.reply .badValue

/-- The timer that a context runs: its code and expiry (R185). -/
def Ctx.running (c : Ctx) : Option (Byte × Nat) :=
  [(0x01#8, c.ring), (0x02#8, c.wait), (0x03#8, c.talk), (0x04#8, c.alert), (0x05#8, c.pathWait)].findSome? fun p =>
    p.2.map fun e => (p.1, e)

/-- The timer bytes of READ_CONTEXT: code, then the time left in units of 100 ms, rounded up (R185). -/
def State.timerBytes (s : State) (c : Ctx) : List Byte :=
  match c.running with
  | some (code, e) => code :: wordBytes (BitVec.ofNat 16 ((e - s.now + 99) / 100))
  | none => [0#8, 0#8, 0#8]

/-- The 32 answer bytes of READ_CONTEXT (R185). The peer unit and the wanted width of a stale context answer 0 (DESIGN CHOICE,
notes/assumptions/43.md, unsafe). -/
def State.contextBytes (s : State) (i : Ref) : List Byte :=
  match s.ctx i with
  | none => List.replicate 32 0#8
  | some c =>
    [c.side.code, c.state.code] ++ c.cid.bytes ++ wordBytes c.peerUnit
      ++ [byte c.members.length] ++ padded 4 c.members ++ [byte c.refused.length]
      ++ [c.answerer.getD 0#8, c.origAddr, c.origRole]
      ++ [byte c.wanted, byte (c.path.map Prod.fst |>.getD 0), byte (c.path.map Prod.snd |>.getD 0), flagByte c.trimmed]
      ++ [byte c.attempts, claimReasonByte c.lastReason, byte c.ringPhase]
      ++ [flagByte c.announced, flagByte c.reversible, flagByte c.superseded, flagByte (s.doorPending i), c.forward.code]
      ++ [causeByte c.cause, stageByte ((s.path.record i).map PathRec.stage)]
      ++ s.timerBytes c

/-- READ_CONTEXT (R176, R185). -/
def execReadContext (fields : List Byte) (s : State) : Host.Outcome State Fault Refusal :=
  .next <| s.serve 1 fields fun s =>
    match fields.head?.bind refOf with
    | some i => s.respond .accepted (s.contextBytes i) .nothing
    | none => s.reply .badRef

/-- UNKNOWN_REQUEST (R174): answered UNKNOWN_REQUEST whatever its length. A code that R175 lists is no such request
(notes/assumptions/29.md). -/
def execUnknownRequest (code : Byte) (_fields : List Byte) (s : State) : Host.Outcome State Fault Refusal :=
  .next (if requestCodes.contains code then s else s.openTransaction.reply .unknownRequest)

/-- TRANSACTION_DISCARDED: SEL rises before the request phase is complete; nothing is decoded and nothing answered (R173). -/
def execTransactionDiscarded (s : State) : Host.Outcome State Fault Refusal := .next s.openTransaction

end Sys2Proof.Machine
end

