-- ==== Sys2Proof/Machine/Frames.lean ====
section
/-! DEFINITION. The meanings of the taken frames (R54 to R57): which takings reach the blocks, and one meaning for each kind. -/

namespace Sys2Proof.Machine

/-- The own frame in carriage is taken: its entry leaves the queue, and a recall of it is answered "too late" (R54, R56). -/
def State.echoed (s : State) (id : FrameId) : State := (s.dropCarrying).markRecall id (.answered .tooLate)

/-- A frame reaches the blocks: the learning buffer in LEARNING, else the kind's effect and the test for LEAVE (R54, R66, R77). -/
def State.deliver (s : State) (sender : Byte) (f : Frame) (learn act : State → State) : State :=
  if !(validAddr sender && f.suits) then s
  else if s.stc.state = .learning then learn s.newEvent
  else (act s.newEvent).leaveCheck

/-- A frame passes its closing mark unspoiled (R54, R55, R57). A station off the riser takes nothing. While this station carries a
frame, only that frame is taken (R51, notes/assumptions/8.md). A frame of its own address that it did not send is a conflict. -/
def State.taking (s : State) (sender : Byte) (f : Frame) (learn act : State → State) : State :=
  if !s.onRiser then s
  else
    match s.carrying with
    | some e => if sender = s.own ∧ e.frame = f then (s.echoed f.ident).deliver sender f learn act else s
    | none => if sender = s.own then s.conflict else s.deliver sender f learn act

/-- A frame other than a SNAPSHOT is taken: in LEARNING it is buffered (R66). -/
def State.takes (s : State) (sender : Byte) (f : Frame) (act : State → State) : State :=
  s.taking sender f (fun t => t.learnFrame sender f) act

/-- SNAPSHOT_TAKEN (R67, R72, R76). -/
def execSnapshotTaken (sender : Byte) (hs : List SnapHold) (ws : List SnapWait) (s : State) : Host.Outcome State Fault Refusal :=
  .next (s.taking sender (.snapshot hs ws) (fun t => t.learnSnapshot hs ws) fun t => t.snapshotTaken sender hs ws)

/-- RECLAIM_TAKEN (R11). -/
def execReclaimTaken (sender : Byte) (c : CallId) (s : State) : Host.Outcome State Fault Refusal :=
  .next (s.takes sender (.reclaim c) fun t => t.reclaimTaken sender c)

/-- JOIN_TAKEN (R69, R70, R86). -/
def execJoinTaken (sender role : Byte) (u : UnitNum) (w : Byte) (s : State) : Host.Outcome State Fault Refusal :=
  .next (s.takes sender (.join role u w) fun t => t.joinTaken sender role u w)

/-- LEAVE_TAKEN (R77, R89). -/
def execLeaveTaken (sender : Byte) (s : State) : Host.Outcome State Fault Refusal :=
  .next (s.takes sender .leave fun t => t.leaveTaken sender)

/-- SEEK_TAKEN (R94). -/
def execSeekTaken (sender : Byte) (u : UnitNum) (s : State) : Host.Outcome State Fault Refusal :=
  .next (s.takes sender (.seek u) fun t => t.seekTaken sender u)

/-- OFFER_TAKEN (R88, R97). -/
def execOfferTaken (sender : Byte) (u : UnitNum) (w : Byte) (s : State) : Host.Outcome State Fault Refusal :=
  .next (s.takes sender (.offer u w) fun t => t.offerTaken sender u w)

/-- A RING is taken in JOINED or LEAVING, by the rows of R128: refused in LEAVING where it lists this station, the own RING at the
originating side (R107), any other at the answering side. Both sides read its members each once (R128). -/
def State.ringAny (s : State) (sender : Byte) (c : CallId) (u : UnitNum) (w role phase : Byte) (ms : List Byte) : State :=
  if s.stc.state = .leaving ∧ ms.contains s.own then s.refuse c refuseNoContext
  else if sender = s.own then
    s.atCall .origin c fun t i => t.ownRing i phase (distinctMembers ms)
  else s.ringTaken sender c u w role phase (distinctMembers ms)

/-- RING_TAKEN (R107, R128). -/
def execRingTaken (sender : Byte) (c : CallId) (u : UnitNum) (w role phase : Byte) (ms : List Byte) (s : State) :
    Host.Outcome State Fault Refusal :=
  .next (s.takes sender (.ring c u w role phase ms) fun t => t.ringAny sender c u w role phase ms)

/-- ANSWER_TAKEN (R109, R135, R136, R140). -/
def execAnswerTaken (sender : Byte) (c : CallId) (cap : Byte) (s : State) : Host.Outcome State Fault Refusal :=
  .next (s.takes sender (.answer c cap) fun t => t.answerTaken sender c cap)

/-- A REFUSE is taken: it acts on an ORIGIN context of its call alone (R108, R130, R136). -/
def State.refuseTaken (s : State) (sender : Byte) (c : CallId) (reason : Byte) : State :=
  s.atCall .origin c fun t i => t.refuseAt i sender reason

/-- REFUSE_TAKEN (R108). -/
def execRefuseTaken (sender : Byte) (c : CallId) (reason : Byte) (s : State) : Host.Outcome State Fault Refusal :=
  .next (s.takes sender (.refuse c reason) fun t => t.refuseTaken sender c reason)

/-- CLAIM_TAKEN (R6 to R8). -/
def execClaimTaken (sender : Byte) (c : CallId) (base width : Byte) (s : State) : Host.Outcome State Fault Refusal :=
  .next (s.takes sender (.claim c base width) fun t => t.claimTaken sender c base width)

/-- WAIT_TAKEN (R26 to R28). -/
def execWaitTaken (sender : Byte) (c : CallId) (wanted : Byte) (s : State) : Host.Outcome State Fault Refusal :=
  .next (s.takes sender (.wait c wanted) fun t => t.waitTaken sender c wanted)

/-- RELEASE_TAKEN (R9, R10). -/
def execReleaseTaken (sender : Byte) (c : CallId) (cause : Byte) (s : State) : Host.Outcome State Fault Refusal :=
  .next (s.takes sender (.release c cause) fun t => t.releaseTaken sender c cause)

/-- OPEN_TAKEN (R118, R167). -/
def execOpenTaken (sender : Byte) (c : CallId) (s : State) : Host.Outcome State Fault Refusal :=
  .next (s.takes sender (.open_ c) fun t => t.openTaken sender c)

/-- OPENED_TAKEN (R166). -/
def execOpenedTaken (sender : Byte) (c : CallId) (result : Byte) (s : State) : Host.Outcome State Fault Refusal :=
  .next (s.takes sender (.opened c result) fun t => t.openedTaken sender c result)

/-- UNSUITED_FRAME_TAKEN: ignored by every block; the conflict check alone reads it (R55, R57). -/
def execUnsuitedFrameTaken (sender _kind : Byte) (_body : List Byte) (s : State) : Host.Outcome State Fault Refusal :=
  .next (if s.onRiser && s.carrying.isNone && sender == s.own then s.conflict else s)

end Sys2Proof.Machine
end

