-- ==== Sys2Proof/Machine/Riser.lean ====
section
/-! DEFINITION. The meanings of reset, supply, polarity, openings, read-back, spoiled frames and recall answers
(R44, R45, R49 to R53, R56, R57). -/

namespace Sys2Proof.Machine

/-! ### Reset and supply -/

/-- The state after power-on reset with the inputs as they stand: the return timer and the debounce timers of active inputs start
at once (R44, R163). The pins, the clock, the event number and the waiting commands stand outside the reset
(notes/assumptions/5.md). -/
def State.powerOn (s : State) : State :=
  { State.reset with
    now := s.now
    eventNo := s.eventNo
    pins := s.pins
    rif := { State.reset.rif with returnTimer := if s.pins.supply then some (s.now + Config.returnMs) else none }
    oku := { State.reset.oku with
      hook := KeyState.follow State.reset.oku.hook s.pins.hook s.now
      doorKey := KeyState.follow State.reset.oku.doorKey s.pins.doorKey s.now
      deskKey := KeyState.follow State.reset.oku.deskKey s.pins.deskKey s.now }
    pending := s.pending }

/-- POWER_ON_RESET. -/
def execPowerOnReset (s : State) : Host.Outcome State Fault Refusal := .next s.powerOn

/-- SUPPLY_FALLS: the loss timer starts, or the return timer stops (R44). -/
def execSupplyFalls (s : State) : Host.Outcome State Fault Refusal :=
  .next <|
    if s.pins.supply then
      let rif := match s.rif.supply with
        | .present => { s.rif with lossTimer := some (s.now + Config.lossMs) }
        | .lost => { s.rif with returnTimer := none }
      { s with pins := { s.pins with supply := false }, rif := rif }
    else s

/-- SUPPLY_RISES: the loss timer stops, or the return timer starts (R44). -/
def execSupplyRises (s : State) : Host.Outcome State Fault Refusal :=
  .next <|
    if s.pins.supply then s
    else
      let rif := match s.rif.supply with
        | .present => { s.rif with lossTimer := none }
        | .lost => { s.rif with returnTimer := some (s.now + Config.returnMs) }
      { s with pins := { s.pins with supply := true }, rif := rif }

/-- The supply status becomes LOST and every carrier detector reports ABSENT (R44, R146). -/
def State.loseSupply (s : State) : State :=
  { s with
    rif := { s.rif with supply := .lost, lossTimer := none }
    path := { s.path with fwd := Vector.replicate 24 false, ret := Vector.replicate 24 false } }

/-- SUPPLY_LOSS_TIMER_EXPIRY (R44, R78). -/
def execSupplyLossTimerExpiry (s : State) : Host.Outcome State Fault Refusal :=
  .next <|
    match s.rif.lossTimer with
    | some e => (s.at e).loseSupply.riserLost
    | none => s

/-- The supply status becomes PRESENT (R44). -/
def State.regainSupply (s : State) : State := { s with rif := { s.rif with supply := .present, returnTimer := none } }

/-- RETURN_TIMER_EXPIRY (R44, R79). -/
def execReturnTimerExpiry (s : State) : Host.Outcome State Fault Refusal :=
  .next <|
    match s.rif.returnTimer with
    | some e => (s.at e).regainSupply.riserReturned
    | none => s

/-- POLARITY_FOUND: after one idle gap in LEARNING the status is read from the pair (R45). -/
def execPolarityFound (aHigher : Bool) (s : State) : Host.Outcome State Fault Refusal :=
  .next <|
    if s.stc.state = .learning ∧ s.rif.polarity = .unknown then
      { s with rif := { s.rif with polarity := if aHigher then .normal else .swapped } }
    else s

/-! ### Openings -/

/-- The lowest class present in a list of entries (R49). -/
def lowestClass : List Entry → Option Nat
  | [] => none
  | e :: es =>
    match lowestClass es with
    | some k => some (min e.frame.cls k)
    | none => some e.frame.cls

/-- The oldest entry of a class starts its carriage; a SNAPSHOT takes the contents composed for it (R16, R50, R51). -/
def startCarriage (snapshot : Frame) (k : Nat) : List Entry → List Entry
  | [] => []
  | e :: es =>
    if e.frame.cls = k then
      { e with carriage := .carrying, frame := if e.frame.kind = .snapshot then snapshot else e.frame } :: es
    else e :: startCarriage snapshot k es

/-- The own key wins or ties against the lowest key of the others: class first, then address (R50). -/
def keyWins (k : Nat) (addr : Byte) : Option ArbKey → Bool
  | none => true
  | some o => k < o.cls.toNat || (k == o.cls.toNat && decide (addr ≤ o.addr))

/-- OPENING (R49, R50): the candidate is the oldest entry of the lowest class among those that had reached RIF; where its key wins,
its carriage starts. -/
def execOpening (other : Option ArbKey) (unreached : Nat) (s : State) : Host.Outcome State Fault Refusal :=
  .next <|
    if s.onRiser && s.carrying.isNone then
      match lowestClass (s.rif.queue.take (s.rif.queue.length - unreached)) with
      | some k =>
        if keyWins k s.own other then { s with rif := { s.rif with queue := startCarriage s.smu.compose k s.rif.queue } } else s
      | none => s
    else s

/-- READ_BACK_MISMATCH: the sender stops and reports the conflict (R57, R80). The entry's return to WAITING is overtaken by the
emptying of the queue. -/
def execReadBackMismatch (s : State) : Host.Outcome State Fault Refusal :=
  .next (if s.onRiser && s.carrying.isSome then s.conflict else s)

/-! ### Drops -/

/-- A dropped or recalled RING: it frees a context in CLEARING that awaits its fate (R121, R124), and sets forward NONE at any other.
R112 gives NONE for a forward RING recalled outside CLEARING; R121 and R124 leave the field unsaid in CLEARING, and NONE there is the
model's choice (DESIGN CHOICE, notes/assumptions/47.md, unsafe). -/
def State.ringGone (s : State) (i : Ref) (c : Ctx) : State :=
  if c.state = .clearing ∧ c.awaits = .ringFate then s.freeCtx i else s.setCtx i (some { c with forward := .none })

/-- A dropped RING (R53, R111, R112, R124). In CLEARING the drop stands as "recalled". A direct RING in RINGING ends its call. Every
other drop clears the call with SEND_FAILED, in any state: that of a forward RING by R111, also where an ANSWER had its recall asked,
that of a narrowing RING by R112, and that of a direct RING whose context took an ANSWER before it by R53's row (DEDUCED,
notes/assumptions/41.md, unsafe). Forward is then NONE (DESIGN CHOICE, notes/assumptions/47.md, unsafe). -/
def State.ringDropped (s : State) (i : Ref) : State :=
  match s.ctx i with
  | some c =>
    if c.state = .clearing then s.ringGone i c
    else if c.state = .ringing ∧ c.forward ≠ .queued then s.endNow i .sendFailed
    else (s.setCtx i (some { c with forward := .none })).clearOrigin i .sendFailed true
  | none => s

/-- A CLAIM or WAIT whose fate a context in CLEARING awaits is gone: the context is freed (R120). -/
def State.callFrameGone (s : State) (i : Ref) (c : Ctx) : State :=
  if c.state = .clearing ∧ c.awaits = .frameRecall then s.freeCtx i else s

/-- A dropped CLAIM (R115, R124). Past CLAIMING, where an install brought the context (R73), it changes nothing (DEDUCED,
notes/assumptions/18.md, unsafe). -/
def State.claimDropped (s : State) (i : Ref) : State :=
  match s.ctx i with
  | some c => if c.state = .claiming then s.claimFailed i .dropped else s.callFrameGone i c
  | none => s

/-- A dropped WAIT (R116, R124); past CLAIMING as a CLAIM (DEDUCED, notes/assumptions/18.md, unsafe). -/
def State.waitDropped (s : State) (i : Ref) : State :=
  match s.ctx i with
  | some c => if c.state = .claiming then s.clearOrigin i .sendFailed true else s.callFrameGone i c
  | none => s

/-- A dropped ANSWER (R142). -/
def State.answerDropped (s : State) (i : Ref) : State :=
  match s.ctx i with
  | some c =>
    if c.state = .answering then s.endNow i .sendFailed
    else if c.state = .clearing ∧ c.awaits = .answerRecall then s.freeCtx i
    else s
  | none => s

/-- A dropped RELEASE: SEND_FAILED, and the context is freed (R123, R142). A CALL_ENDED still to be posted, after a reversible clearing,
comes second: the order of the two notices is the model's choice (DESIGN CHOICE, notes/assumptions/42.md, unsafe). So is that a RELEASE
dropped with its recall on the way frees the context, by R113, where R124 may be read as standing for "recalled" (DESIGN CHOICE,
notes/assumptions/52.md, unsafe). -/
def State.releaseDropped (s : State) (i : Ref) : State :=
  match s.ctx i with
  | some c => if c.state = .clearing ∧ c.awaits = .release then (s.post (.sendFailed i c.cid .release)).freeCtx i else s
  | none => s

/-- A dropped SEEK: the record ends with its results at once, and the place is free (R96). The frames of the results join the transmit
queue before the SEEK or OFFER that the place passes to: R96 gives no order of the two, and this is the model's choice (DESIGN CHOICE,
notes/assumptions/44.md, unsafe). -/
def State.seekDropped (s : State) (u : UnitNum) : State :=
  match s.udir.seekOf u with
  | some r => if r.state = .queued then (s.endSeek r).handOut else s.handOut
  | none => s.handOut

/-- A dropped JOIN (R66, R69). -/
def State.joinDropped (s : State) : State :=
  match s.stc.state with
  | .learning => s.learnRestart .joinDropped
  | .joined => s.queueFrame s.joinFrame
  | _ => s

/-- A dropped OPEN ends the pending door request (R166). -/
def State.openDropped (s : State) (i : Ref) : State :=
  match s.ctx i with
  | some c => if s.doorPending i then s.endDoor i c.cid .noReply else s
  | none => s

/-- A frame is dropped after its sixteenth spoiled attempt; the queuing block is told (R53). -/
def State.frameDropped (s : State) : Frame → State
  | .snapshot _ _ => s
  | .reclaim c => (s.rearm c).nextOverdue
  | .join _ _ _ => s.joinDropped
  | .leave => s.enterConfigured .left
  | .seek u => s.seekDropped u
  | .offer _ _ => (s.setOffer .none).handOut
  | .ring c _ _ _ _ _ => s.atCall .origin c State.ringDropped
  | .answer c _ => s.atCall .answer c State.answerDropped
  | .refuse _ _ => s
  | .claim c _ _ => s.atCall .origin c State.claimDropped
  | .wait c _ => s.atCall .origin c State.waitDropped
  | .release c _ => s.atParty c State.releaseDropped
  | .open_ c => s.atCall .answer c State.openDropped
  | .opened _ _ => s

/-! ### Recall answers -/

/-- A CLAIM or WAIT was taken after all: the context that awaited its recall releases what the copy now gives the call, or is freed
(R120). -/
def State.callFrameTaken (s : State) (i : Ref) (c : Ctx) : State :=
  if c.state = .clearing ∧ c.awaits = .frameRecall then
    if s.smu.has c.cid then s.queueRelease i else s.freeCtx i
  else s

/-- The answer to a recalled CLAIM or WAIT (R120, R121). -/
def State.callFrameAnswer (s : State) (i : Ref) (a : RecallAnswer) : State :=
  match s.ctx i with
  | some c => match a with | .recalled => s.callFrameGone i c | .tooLate => s.callFrameTaken i c
  | none => s

/-- The answer to a recalled RING (R112, R121): "too late" was acted on at the taking (R107). -/
def State.ringAnswer (s : State) (i : Ref) (a : RecallAnswer) : State :=
  match s.ctx i with
  | some c => match a with | .recalled => s.ringGone i c | .tooLate => s
  | none => s

/-- The answer to a recalled ANSWER (R140): either frees the context that still awaits it. -/
def State.answerAnswer (s : State) (i : Ref) : State :=
  match s.ctx i with
  | some c => if c.state = .clearing ∧ c.awaits = .answerRecall then s.freeCtx i else s
  | none => s

/-- The answer to a recalled RELEASE (R113): after "too late" the context was freed at the taking. -/
def State.releaseAnswer (s : State) (i : Ref) (a : RecallAnswer) : State :=
  match s.ctx i with
  | some c =>
    match a with
    | .recalled => if c.state = .clearing ∧ c.awaits = .release then s.releaseRecalled i else s
    | .tooLate => s
  | none => s

/-- What the requesting block does with the answer to a recall (R36, R72, R75, R96, R112, R113, R120, R121, R140). -/
def State.recallResult (s : State) (id : FrameId) (a : RecallAnswer) : State :=
  match id.kind, id.key with
  | .reclaim, _ => match a with | .recalled => s.nextOverdue | .tooLate => s
  | .seek, _ => match a with | .recalled => s.handOut | .tooLate => s
  | .ring, .call c => s.atCall .origin c fun t i => t.ringAnswer i a
  | .claim, .call c => s.atCall .origin c fun t i => t.callFrameAnswer i a
  | .wait, .call c => s.atCall .origin c fun t i => t.callFrameAnswer i a
  | .answer, .call c => s.atCall .answer c State.answerAnswer
  | .release, .call c => s.atParty c fun t i => t.releaseAnswer i a
  | _, _ => s

/-- RIF's answer reaches the block (R56). Where a later recall of the same identity is out, the answer is of an earlier frame, on
whose fate the block has acted at its taking (notes/assumptions/7.md). -/
def State.deliverAnswer (s : State) (id : FrameId) (a : RecallAnswer) : State :=
  let s1 := s.newEvent.forgetRecall id
  (if s1.recallOut id then s1 else s1.recallResult id a).leaveCheck

/-- RECALL_ANSWERED, for the oldest recall of the identity (R56): an asked recall reaches RIF, where the entry is removed if WAITING
and the answer held if CARRYING; an answer that RIF gave at the end of a carriage reaches its block. -/
def execRecallAnswered (id : FrameId) (s : State) : Host.Outcome State Fault Refusal :=
  .next <|
    match s.rif.recalls.find? fun r => r.id = id with
    | none => s
    | some r =>
      match r.status with
      | .asked =>
        match s.rif.queue.find? fun e => e.frame.ident = id with
        | some e =>
          if e.carriage = .carrying then s.markRecall id .held else (s.dropQueued id).deliverAnswer id .recalled
        | none => s.deliverAnswer id .tooLate
      | .held => s
      | .answered a => s.deliverAnswer id a

/-! ### Spoiled frames -/

/-- The recall of an identity is held at RIF. -/
def State.recallHeld (s : State) (id : FrameId) : Bool := s.rif.recalls.any fun r => r.id = id && r.status = .held

/-- The spoil mark this station drove in a closing window (R52). -/
def State.setMark (s : State) (b : Bool) : State := { s with rif := { s.rif with spoilMark := b } }

/-- The own frame in carriage is spoiled (R53, R56): under a held recall it is recalled uncounted; else the attempt counts, and the
sixteenth drops it, and the block, told of the drop, gets no answer of a recall on its way (DEDUCED, notes/assumptions/18.md, unsafe). -/
def State.ownSpoiled (s : State) (e : Entry) : State :=
  if s.recallHeld e.frame.ident then (s.dropCarrying).markRecall e.frame.ident (.answered .recalled)
  else if e.attempts + 1 < Config.dropAttempts then
    s.modifyCarrying fun x => { x with attempts := x.attempts + 1, carriage := .waiting }
  else ((s.dropCarrying).forgetOpenRecall e.frame.ident).frameDropped e.frame

/-- FRAME_SPOILED (R52, R53, R77). -/
def execFrameSpoiled (arbAddr : Byte) (received : List Byte) (s : State) : Host.Outcome State Fault Refusal :=
  .next <|
    if !s.onRiser then s
    else
      match s.carrying with
      | some e => (((s.newEvent).setMark false).ownSpoiled e).leaveCheck
      | none => s.setMark (receiverSpoils arbAddr received)

end Sys2Proof.Machine
end

