-- ==== Sys2Proof/Machine/Timers.lean ====
section
/-! DEFINITION. The meanings of the timer expiries, the carrier detectors, the keys and the fault inputs. An expiry acts only where
its timer runs, with the clock at the expiry (notes/assumptions/1.md, 3.md). -/

namespace Sys2Proof.Machine

/-- An expiry: with the timer running the clock moves to its expiry and `act` runs; else nothing happens. -/
def State.expire (s : State) (t : Timer) (act : State → State) : State :=
  match t with
  | some e => act (s.at e)
  | none => s

/-- A timer of a live context. -/
def State.ctxTimer (s : State) (i : Ref) (get : Ctx → Timer) : Timer :=
  match s.ctx i with
  | some c => get c
  | none => none

/-- A timer of a path record. -/
def State.recTimer (s : State) (i : Ref) (get : PathRec → Timer) : Timer :=
  match s.path.record i with
  | some r => get r
  | none => none

/-! ### STC, SMU and UDIR -/

/-- LEARN_TIMER_EXPIRY (R68). -/
def execLearnTimerExpiry (s : State) : Host.Outcome State Fault Refusal := .next (s.expire s.stc.learn State.learnExpires)

/-- STAGGER_TIMER_EXPIRY (R71). -/
def execStaggerTimerExpiry (s : State) : Host.Outcome State Fault Refusal := .next (s.expire s.stc.stagger State.staggerExpires)

/-- An audit expires: the item is OVERDUE, and its RECLAIM is queued where the slot is free (R35). -/
def State.auditExpires (s : State) (c : CallId) : State := (s.setAudit c .overdue).queueReclaim c

/-- AUDIT_EXPIRY (R35). -/
def execAuditExpiry (c : CallId) (s : State) : Host.Outcome State Fault Refusal :=
  .next (s.expire (s.smu.auditExpiry c) fun t => t.auditExpires c)

/-- The window of an open seek record. -/
def Seek.window (r : Seek) : Timer :=
  match r.state with
  | .opened e => some e
  | _ => none

/-- SEEK_WINDOW_EXPIRY (R95). -/
def execSeekWindowExpiry (u : UnitNum) (s : State) : Host.Outcome State Fault Refusal :=
  .next <|
    match s.udir.seekOf u with
    | some r => s.expire r.window fun t => t.newEvent.endSeek r
    | none => s

/-! ### CENG -/

/-- RING_TIMER_EXPIRY (R110). -/
def execRingTimerExpiry (i : Ref) (s : State) : Host.Outcome State Fault Refusal :=
  .next (s.expire (s.ctxTimer i Ctx.ring) fun t => t.newEvent.ringExpires i)

/-- WAIT_TIMER_EXPIRY: a reversible clearing with cause CONGESTED (R113, R117). -/
def execWaitTimerExpiry (i : Ref) (s : State) : Host.Outcome State Fault Refusal :=
  .next (s.expire (s.ctxTimer i Ctx.wait) fun t => t.clearOrigin i .congested false)

/-- TALK_TIMER_EXPIRY (R118). -/
def execTalkTimerExpiry (i : Ref) (s : State) : Host.Outcome State Fault Refusal :=
  .next (s.expire (s.ctxTimer i Ctx.talk) fun t => t.clearOrigin i .timeLimit true)

/-- ALERT_LIMIT_EXPIRY (R133). -/
def execAlertLimitExpiry (i : Ref) (s : State) : Host.Outcome State Fault Refusal :=
  .next (s.expire (s.ctxTimer i Ctx.alert) fun t => t.endNow i .noAnswer)

/-- PATH_WAIT_EXPIRY (R137). -/
def execPathWaitExpiry (i : Ref) (s : State) : Host.Outcome State Fault Refusal :=
  .next (s.expire (s.ctxTimer i Ctx.pathWait) fun t => t.clearAnswer i .pathTimeout)

/-! ### PATH -/

/-- A path record at a change of one of its watched detectors (R150, R153): a waiting CARRIER settle stage may complete, or the
channel's loss timer starts or stops. -/
def Path.detectorAt (p : Path) (mode : SettleMode) (now : Nat) (h : Half) (n : Channel) (present : Bool) (r : PathRec) : PathRec :=
  if h = otherHalf r.sendHalf ∧ r.base ≤ n.val ∧ n.val < r.base + r.width then
    match r.stage with
    | .settle => if mode = .carrier ∧ r.settleTimer.isSome ∧ p.allPresent r then p.completeSettle r now else r
    | .mute => r
    | _ => { r with loss := r.loss.setIfInBounds (n.val - r.base) (if present then none else some (now + Config.carrierLossMs)) }
  else r

/-- The detector of one half of one channel set. -/
def Path.setDetector (p : Path) (h : Half) (n : Channel) (present : Bool) : Path :=
  match h with
  | .forward => { p with fwd := p.fwd.set n present }
  | .ret => { p with ret := p.ret.set n present }

/-- A detector's report changes (R146): every path record that watches it follows. -/
def State.detectorChanges (s : State) (h : Half) (n : Channel) (present : Bool) : State :=
  State.eachRef { s with path := s.path.setDetector h n present } fun s i =>
    match s.path.record i with
    | some r =>
      { s with path := s.path.setRec i (some (s.path.detectorAt s.sport.config.settle s.now h n present r)) }
    | none => s

/-- CARRIER_DETECTOR_CHANGE (R146): while the supply status is LOST every detector reports ABSENT, and a report that does not change
is no event. -/
def execCarrierDetectorChange (h : Half) (n : Channel) (present : Bool) (s : State) : Host.Outcome State Fault Refusal :=
  .next (if s.rif.supply = .lost ∨ s.path.detector h n = present then s else s.detectorChanges h n present)

/-- A path record changed. -/
def State.modifyRec (s : State) (i : Ref) (f : PathRec → PathRec) : State :=
  match s.path.record i with
  | some r => { s with path := s.path.setRec i (some (f r)) }
  | none => s

/-- A report of PATH on which CENG clears a context in one state, and ignores in any other (R118, R138, R159). -/
def State.reportClears (s : State) (i : Ref) (st : CtxState) (x : Cause) : State :=
  match s.ctx i with
  | some c => if c.state = st then s.clearCall i x else s
  | none => s

/-- A settle timer expires: "no carrier" in mode CARRIER, the stage's completion in the timed modes (R150, R151). -/
def State.settleExpires (s : State) (i : Ref) : State :=
  if s.sport.config.settle = .carrier then
    (s.modifyRec i fun r => { r with settleTimer := none }).reportClears i .settling .noCarrier
  else s.modifyRec i fun r => s.path.completeSettle r s.now

/-- SETTLE_TIMER_EXPIRY (R150, R151). -/
def execSettleTimerExpiry (i : Ref) (s : State) : Host.Outcome State Fault Refusal :=
  .next (s.expire (s.recTimer i PathRec.settleTimer) fun t => t.settleExpires i)

/-- "Path up" reaches CENG: a SETTLING context goes to TALK, the originator's with its talk timer (R118, R138). -/
def State.pathUp (s : State) (i : Ref) : State :=
  s.modifyCtx i fun c =>
    if c.state = .settling then
      { c with state := .talk, talk := if c.side = .origin then some (s.now + 1000 * s.sport.config.talkLimit) else none }
    else c

/-- The unmute timer expires: stage OPEN, the gate for the owner, "path up", then the PATH notice (R152, R154, R161). -/
def State.unmuteExpires (s : State) (i : Ref) : State :=
  let s1 := s.modifyRec i fun r => { r with stage := .opened, unmuteTimer := none }
  let owned := decide (s1.path.owner = some i)
  let s2 := { s1 with path := { s1.path with gate := s1.path.gate || owned } }
  (s2.pathUp i).postPath i owned

/-- UNMUTE_TIMER_EXPIRY (R152). -/
def execUnmuteTimerExpiry (i : Ref) (s : State) : Host.Outcome State Fault Refusal :=
  .next (s.expire (s.recTimer i PathRec.unmuteTimer) fun t => t.unmuteExpires i)

/-- The loss timer of one channel of a record. -/
def PathRec.lossOf (r : PathRec) (n : Nat) : Timer := if n < r.base then none else (r.loss[n - r.base]?).getD none

/-- A loss timer expires: every loss timer of the record stops, and CENG clears a context in TALK (R118, R138, R153). -/
def State.carrierLost (s : State) (i : Ref) : State :=
  (s.modifyRec i fun r => { r with loss := noLoss }).reportClears i .talk .carrierLost

/-- CARRIER_LOSS_TIMER_EXPIRY (R153). -/
def execCarrierLossTimerExpiry (i : Ref) (n : Channel) (s : State) : Host.Outcome State Fault Refusal :=
  .next (s.expire (s.recTimer i fun r => r.lossOf n.val) fun t => t.carrierLost i)

/-- The mute timer expires: enables OFF, the record removed, "transmitters off", and the RELEASE falls due (R121, R140, R156). -/
def State.muteExpires (s : State) (i : Ref) : State :=
  let s1 := (s.cutPath i).reckonOwner
  match s1.ctx i with
  | some c => if c.awaits = .pathOff then (s1.sendRelease i).leaveCheck else s1
  | none => s1

/-- MUTE_TIMER_EXPIRY (R156). -/
def execMuteTimerExpiry (i : Ref) (s : State) : Host.Outcome State Fault Refusal :=
  .next (s.expire (s.recTimer i PathRec.muteTimer) fun t => t.muteExpires i)

/-! ### OKU -/

/-- KEY_INPUT_CHANGE (R163): the input takes its level, and the key's debounce timer starts or stops. -/
def execKeyInputChange (k : Key) (active : Bool) (s : State) : Host.Outcome State Fault Refusal :=
  .next { s with pins := s.pins.setLevel k active, oku := s.oku.setKey k ((s.oku.key k).follow active s.now) }

/-- The key event of a counted change (R164). -/
def State.keyEvent (s : State) (k : Key) (active : Bool) : State :=
  match k, active with
  | .hook, true => s.offHook
  | .hook, false => s.onHook
  | .doorKey, true => s.doorPress
  | .deskKey, true => s.newEvent.deskPress
  | _, false => s

/-- A debounce timer expires: the key's state takes the new level, and the change is counted (R163, R164). -/
def State.debounceExpires (s : State) (k : Key) : State :=
  let level := !(s.oku.key k).active
  State.keyEvent { s with oku := s.oku.setKey k { active := level, timer := none } } k level

/-- DEBOUNCE_TIMER_EXPIRY (R163). -/
def execDebounceTimerExpiry (k : Key) (s : State) : Host.Outcome State Fault Refusal :=
  .next (s.expire (s.oku.key k).timer fun t => t.debounceExpires k)

/-- A reply wait expires (R166). -/
def State.replyExpires (s : State) (i : Ref) : State :=
  match s.ctx i with
  | some c => s.endDoor i c.cid .noReply
  | none => s.setDoor i none

/-- REPLY_WAIT_EXPIRY (R166). -/
def execReplyWaitExpiry (i : Ref) (s : State) : Host.Outcome State Fault Refusal :=
  .next (s.expire s.oku.door[i] fun t => t.replyExpires i)

/-- STRIKE_PULSE_EXPIRY: STRIKE goes off (R168). -/
def execStrikePulseExpiry (s : State) : Host.Outcome State Fault Refusal :=
  .next (s.expire s.oku.strike fun t => { t with oku := { t.oku with strike := none } })

/-- RINGER_PHASE_EXPIRY (R169). -/
def execRingerPhaseExpiry (s : State) : Host.Outcome State Fault Refusal :=
  .next <|
    match s.oku.ringer with
    | .silent => s
    | .cadence on e => s.expire (some e) fun t => { t with oku := { t.oku with ringer := nextPhase on t.now } }

/-- FAULT_QUALIFIES: the active sample that completes a run (R170, R171). Short of a complete run the event cannot arise
(notes/assumptions/16.md). -/
def execFaultQualifies (k : FaultKind) (s : State) : Host.Outcome State Fault Refusal :=
  .next (if (s.oku.fault k).counter + 1 < s.sport.config.faultSamples then s else s.sampleFault k true)

/-- FAULT_SAMPLE: the millisecond's samples of both inputs (R170). -/
def execFaultSample (strikeActive ringerActive : Bool) (s : State) : Host.Outcome State Fault Refusal :=
  .next ((({ s with now := s.now + 1 } : State).sampleFault .strike strikeActive).sampleFault .ringer ringerActive)

end Sys2Proof.Machine
end

