-- ==== Sys2Proof/Machine/Dispatch.lean ====
section
/-! DEFINITION. One arm for each command: its meaning. -/

namespace Sys2Proof.Machine

/-- A command's effect on everything but the queue of waiting commands. -/
def exec (i : Instr) (s : State) : Host.Outcome State Fault Refusal :=
  match i with
  | .powerOnReset => Sys2Proof.Machine.execPowerOnReset s
  | .supplyFalls => Sys2Proof.Machine.execSupplyFalls s
  | .supplyRises => Sys2Proof.Machine.execSupplyRises s
  | .supplyLossTimerExpiry => Sys2Proof.Machine.execSupplyLossTimerExpiry s
  | .returnTimerExpiry => Sys2Proof.Machine.execReturnTimerExpiry s
  | .polarityFound aHigher => Sys2Proof.Machine.execPolarityFound aHigher s
  | .opening other unreached => Sys2Proof.Machine.execOpening other unreached s
  | .readBackMismatch => Sys2Proof.Machine.execReadBackMismatch s
  | .frameSpoiled arbAddr received => Sys2Proof.Machine.execFrameSpoiled arbAddr received s
  | .recallAnswered id => Sys2Proof.Machine.execRecallAnswered id s
  | .unsuitedFrameTaken sender kind body => Sys2Proof.Machine.execUnsuitedFrameTaken sender kind body s
  | .snapshotTaken sender holds waits => Sys2Proof.Machine.execSnapshotTaken sender holds waits s
  | .reclaimTaken sender c => Sys2Proof.Machine.execReclaimTaken sender c s
  | .joinTaken sender role unit capability => Sys2Proof.Machine.execJoinTaken sender role unit capability s
  | .leaveTaken sender => Sys2Proof.Machine.execLeaveTaken sender s
  | .seekTaken sender unit => Sys2Proof.Machine.execSeekTaken sender unit s
  | .offerTaken sender unit capability => Sys2Proof.Machine.execOfferTaken sender unit capability s
  | .ringTaken sender c unit wanted role phase members => Sys2Proof.Machine.execRingTaken sender c unit wanted role phase members s
  | .answerTaken sender c capability => Sys2Proof.Machine.execAnswerTaken sender c capability s
  | .refuseTaken sender c reason => Sys2Proof.Machine.execRefuseTaken sender c reason s
  | .claimTaken sender c base width => Sys2Proof.Machine.execClaimTaken sender c base width s
  | .waitTaken sender c wanted => Sys2Proof.Machine.execWaitTaken sender c wanted s
  | .releaseTaken sender c cause => Sys2Proof.Machine.execReleaseTaken sender c cause s
  | .openTaken sender c => Sys2Proof.Machine.execOpenTaken sender c s
  | .openedTaken sender c result => Sys2Proof.Machine.execOpenedTaken sender c result s
  | .learnTimerExpiry => Sys2Proof.Machine.execLearnTimerExpiry s
  | .staggerTimerExpiry => Sys2Proof.Machine.execStaggerTimerExpiry s
  | .auditExpiry c => Sys2Proof.Machine.execAuditExpiry c s
  | .seekWindowExpiry unit => Sys2Proof.Machine.execSeekWindowExpiry unit s
  | .ringTimerExpiry ref => Sys2Proof.Machine.execRingTimerExpiry ref s
  | .waitTimerExpiry ref => Sys2Proof.Machine.execWaitTimerExpiry ref s
  | .talkTimerExpiry ref => Sys2Proof.Machine.execTalkTimerExpiry ref s
  | .alertLimitExpiry ref => Sys2Proof.Machine.execAlertLimitExpiry ref s
  | .pathWaitExpiry ref => Sys2Proof.Machine.execPathWaitExpiry ref s
  | .carrierDetectorChange half channel present => Sys2Proof.Machine.execCarrierDetectorChange half channel present s
  | .settleTimerExpiry ref => Sys2Proof.Machine.execSettleTimerExpiry ref s
  | .unmuteTimerExpiry ref => Sys2Proof.Machine.execUnmuteTimerExpiry ref s
  | .carrierLossTimerExpiry ref channel => Sys2Proof.Machine.execCarrierLossTimerExpiry ref channel s
  | .muteTimerExpiry ref => Sys2Proof.Machine.execMuteTimerExpiry ref s
  | .keyInputChange key active => Sys2Proof.Machine.execKeyInputChange key active s
  | .debounceTimerExpiry key => Sys2Proof.Machine.execDebounceTimerExpiry key s
  | .replyWaitExpiry ref => Sys2Proof.Machine.execReplyWaitExpiry ref s
  | .strikePulseExpiry => Sys2Proof.Machine.execStrikePulseExpiry s
  | .ringerPhaseExpiry => Sys2Proof.Machine.execRingerPhaseExpiry s
  | .faultQualifies kind => Sys2Proof.Machine.execFaultQualifies kind s
  | .configure fields => Sys2Proof.Machine.execConfigure fields s
  | .join fields => Sys2Proof.Machine.execJoin fields s
  | .restart fields => Sys2Proof.Machine.execRestart fields s
  | .dial fields => Sys2Proof.Machine.execDial fields s
  | .answer fields => Sys2Proof.Machine.execAnswer fields s
  | .hangup fields => Sys2Proof.Machine.execHangup fields s
  | .openDoor fields => Sys2Proof.Machine.execOpenDoor fields s
  | .setDnd fields => Sys2Proof.Machine.execSetDnd fields s
  | .clearFault fields => Sys2Proof.Machine.execClearFault fields s
  | .purge fields => Sys2Proof.Machine.execPurge fields s
  | .readNotice fields => Sys2Proof.Machine.execReadNotice fields s
  | .noticeRemoved => Sys2Proof.Machine.execNoticeRemoved s
  | .readStatus fields => Sys2Proof.Machine.execReadStatus fields s
  | .overflowFlagCleared => Sys2Proof.Machine.execOverflowFlagCleared s
  | .readSlots fields => Sys2Proof.Machine.execReadSlots fields s
  | .readWaits fields => Sys2Proof.Machine.execReadWaits fields s
  | .readLine fields => Sys2Proof.Machine.execReadLine fields s
  | .readContext fields => Sys2Proof.Machine.execReadContext fields s
  | .unknownRequest code fields => Sys2Proof.Machine.execUnknownRequest code fields s
  | .transactionDiscarded => Sys2Proof.Machine.execTransactionDiscarded s
  | .faultSample strikeActive ringerActive => Sys2Proof.Machine.execFaultSample strikeActive ringerActive s

end Sys2Proof.Machine
end

