-- ==== Sys2Proof/Machine/Wire.lean ====
section
/-! DEFINITION. A station port transaction as bytes (R173 to R175): the command that the bytes on SDI give, and the bytes on SDO that
carry the answer record. -/

namespace Sys2Proof.Machine

/-- The request of a code, with its field bytes (R175); a code that names none is an unknown request (R174). -/
def requestOf (code : Byte) (fields : List Byte) : Instr :=
  if code = 0x01#8 then .configure fields
  else if code = 0x02#8 then .join fields
  else if code = 0x03#8 then .restart fields
  else if code = 0x10#8 then .dial fields
  else if code = 0x11#8 then .answer fields
  else if code = 0x12#8 then .hangup fields
  else if code = 0x13#8 then .openDoor fields
  else if code = 0x20#8 then .setDnd fields
  else if code = 0x21#8 then .clearFault fields
  else if code = 0x22#8 then .purge fields
  else if code = 0x30#8 then .readNotice fields
  else if code = 0x31#8 then .readStatus fields
  else if code = 0x32#8 then .readSlots fields
  else if code = 0x33#8 then .readWaits fields
  else if code = 0x34#8 then .readLine fields
  else if code = 0x35#8 then .readContext fields
  else .unknownRequest code fields

/-- The command that the bytes clocked in on SDI from SEL's falling edge to its rising edge give (R173): code, length L and L field
bytes are the request phase, and the bytes after it are not read; SEL rising before that phase is complete discards the
transaction. -/
def transactionOf : List Byte → Instr
  | code :: len :: rest =>
    if len.toNat ≤ rest.length then requestOf code (rest.take len.toNat) else .transactionDiscarded
  | _ => .transactionDiscarded

/-- An answer record on SDO: status, answer length M, and M field bytes (R173, R175). -/
def Answer.bytes (a : Answer) : List Byte := a.status.code :: byte a.fields.length :: a.fields

/-- The byte of a transaction on SDO at a place counted from 0, for a request of L field bytes: 00h through the request phase and the
turnaround byte, then the answer record, then 00h (R173). -/
def Answer.sdo (a : Answer) (len place : Nat) : Byte :=
  if place < 2 + len + 1 then 0x00#8 else a.bytes.getD (place - (2 + len + 1)) 0x00#8

/-- What SDO carries at a place of the transaction that SPORT serves: its answer record, or 00h where nothing was decoded (R173). -/
def State.sdo (s : State) (len place : Nat) : Byte :=
  match s.sport.transaction with
  | some t => t.answer.sdo len place
  | none => 0x00#8

end Sys2Proof.Machine
end

