-- ==== Sys2Proof/Safety.lean ====
section
/-! DEFINITION. What the spec says stays true of a station: the laws that statements take as invariants of a step. -/

namespace Sys2Proof.Machine

/-- Every command of this step keeps a predicate: from a state that has it, a next state has it. -/
def KeptByStep (inv : State → Prop) : Prop := ∀ s t, inv s → step s = .next t → inv t

/-! ### SPORT (R180, R182) -/

/-- The notice queue holds at most 16 notices, and the attention lines stand as the queue and the mode give them (R180, R182). -/
def NoticeLaw (s : State) : Prop :=
  s.sport.notices.length ≤ Config.noticeCap
    ∧ s.sport.attn0 = attn0Of s.sport.config.attn s.sport.notices
    ∧ s.sport.attn1 = attn1Of s.sport.config.attn s.sport.notices

/-! ### RIF (R47, R48) -/

/-- Each category stands within its allowance, no entry has sixteen attempts, and at most one entry is in carriage (R47, R48, R51). -/
def QueueLaw (s : State) : Prop :=
  (∀ k : Category, s.rif.count k ≤ k.allowance)
    ∧ (∀ e ∈ s.rif.queue, e.attempts < Config.dropAttempts)
    ∧ s.rif.queue.countP (fun e => e.carriage = .carrying) ≤ 1

/-! ### SMU (R1, R2, R25, R32) -/

/-- A hold's block is aligned and within the channels (R2). -/
def Hold.Aligned (h : Hold) : Prop :=
  validWidth h.width = true ∧ h.base % h.width = 0 ∧ h.base + h.width ≤ Config.channels

/-- The copy: aligned blocks in ascending base that share no channel, each call id once among holds and wait entries, at most 16 wait
entries of width 1, 2 or 4, and no free channel beside a wait entry (R1, R2, R24, R25, R32). -/
def SlotLaw (m : Smu) : Prop :=
  (∀ h ∈ m.holds, h.Aligned)
    ∧ m.holds.Pairwise (fun a b => a.base + a.width ≤ b.base)
    ∧ (m.holds.map Hold.cid ++ m.waits.map WaitEntry.cid).Nodup
    ∧ m.waits.length ≤ Config.waitCap
    ∧ (∀ w ∈ m.waits, validWidth w.wanted = true)
    ∧ (m.waits = [] ∨ freeCount m.holds = 0)

/-! ### UDIR (R84) -/

/-- The valid lines of the directory. -/
def Udir.lineAt (d : Udir) (k : Fin 64) : Option DirLine := d.lines[k]

/-- The directory: a valid line stands at its unit's index with 1 to 4 distinct members, and no station is a member of two lines
(R84). -/
def DirectoryLaw (s : State) : Prop :=
  (∀ k l, s.udir.lineAt k = some l →
    l.unit.toNat ≤ Config.maxUnit ∧ l.unit.toNat % 64 = k.val ∧ 1 ≤ l.members.length ∧ l.members.length ≤ Config.groupCap
      ∧ (l.members.map Member.addr).Nodup)
    ∧ (∀ j k l m a, s.udir.lineAt j = some l → s.udir.lineAt k = some m →
        a ∈ l.members.map Member.addr → a ∈ m.members.map Member.addr → j = k)

/-! ### STC (R62, R63, R78) -/

/-- The record is locked exactly in the states that lock it (R63). -/
def LockLaw (s : State) : Prop := s.stc.locked = s.stc.state.locks

/-- The station is a member of the riser: JOINED or LEAVING (R62). -/
def State.member (s : State) : Bool := s.stc.state = .joined || s.stc.state = .leaving

/-- Outside JOINED and LEAVING no context is live, the copy is empty, PATH is off and no seek is open; where RIF accepts nothing the
queue is empty (R46, R58, R62, R99, R125, R160). -/
def IdleLaw (s : State) : Prop :=
  (s.member = false →
    (∀ i : Ref, s.ctx i = none) ∧ s.smu = { holds := [], waits := [] }
      ∧ (∀ i : Ref, s.path.record i = none) ∧ (∀ n, s.path.enable n = none)
      ∧ s.udir.seeks = [] ∧ s.udir.offer = .none)
    ∧ (s.stc.state.sends = false → s.rif.queue = [])

/-! ### CENG (R101, R102, R127) -/

/-- The number of live contexts outside CLEARING. -/
def State.activeCount (s : State) : Nat := refs.countP fun i => s.outsideClearing i

/-- The role limit (R101), for a station that also keeps the lock and idle laws. -/
def RoleLaw (s : State) : Prop :=
  LockLaw s ∧ IdleLaw s ∧ s.liveCount ≤ s.role.limit ∧ (s.role ≠ .desk → s.activeCount ≤ 1)

/-- The states of each side (R102, R127). -/
def Side.has : Side → CtxState → Bool
  | _, .settling => true | _, .talk => true | _, .clearing => true
  | .origin, .seeking => true | .origin, .ringing => true | .origin, .claiming => true | .origin, .waiting => true
  | .answer, .alerting => true | .answer, .answering => true | .answer, .awaitPath => true
  | _, _ => false

/-- A context's state is one of its side's, each timer runs only in its own state, so at most one runs, and only an ORIGIN context
is reversible (R102, R113, R127). -/
def Ctx.Fits (c : Ctx) : Prop :=
  c.side.has c.state = true ∧ (c.ring ≠ none → c.state = .ringing) ∧ (c.wait ≠ none → c.state = .waiting)
    ∧ (c.talk ≠ none → c.state = .talk) ∧ (c.alert ≠ none → c.state = .alerting) ∧ (c.pathWait ≠ none → c.state = .awaitPath)
    ∧ (c.reversible = true → c.side = .origin)

/-- Every live context fits (R102, R127). -/
def ContextLaw (s : State) : Prop := ∀ i c, s.ctx i = some c → c.Fits

/-! ### PATH (R147, R148, R154) -/

/-- A path record stands as its stage and its context allow: it sends in its side's half; in SETTLE and UNMUTE its context is
SETTLING on its block, in OPEN in TALK on it, and in MUTE in CLEARING, for at most 10 ms more; each timer runs in its own stages
alone (R147 to R149, R152, R153, R156). -/
def PathRec.Fits (r : PathRec) (x : Ctx) (now : Nat) : Prop :=
  r.sendHalf = x.side.sendHalf
    ∧ match r.stage with
      | .settle => x.state = .settling ∧ x.path = some r.block ∧ r.unmuteTimer = none ∧ r.muteTimer = none ∧ r.loss = noLoss
      | .unmute => x.state = .settling ∧ x.path = some r.block ∧ r.settleTimer = none ∧ r.muteTimer = none
      | .opened => x.state = .talk ∧ x.path = some r.block ∧ r.settleTimer = none ∧ r.unmuteTimer = none ∧ r.muteTimer = none
      | .mute => x.state = .clearing ∧ x.awaits = .pathOff ∧ r.settleTimer = none ∧ r.unmuteTimer = none ∧ r.loss = noLoss
          ∧ ∃ e, r.muteTimer = some e ∧ e ≤ now + 10

/-- The enable of each channel of context i's record is ON for it, in its send half: STREAM where it owns the port, SILENCE
otherwise (R147, R154). -/
def Path.Lights (p : Path) (i : Ref) (r : PathRec) : Prop :=
  ∀ n, r.base ≤ n → n < r.base + r.width →
    p.enable n = some ⟨i, r.sendHalf, if p.owner = some i then .stream else .silence⟩

/-- The transmitter law and the port: a record stands for a live context that it fits, on the block that the copy holds for the
context's call id, with its block's enables ON; no other enable is ON; the port owner is the record of R154, with its width as
the rate and the gate OPEN exactly in its stage OPEN, and without an owner the rate is 1 and the gate CLOSED (R147, R148, R154). -/
def PathLaw (s : State) : Prop :=
  (∀ i r, s.path.record i = some r →
    (∃ x h, s.ctx i = some x ∧ r.Fits x s.now ∧ s.smu.holdOf x.cid = some h ∧ (h.base, h.width) = r.block) ∧ s.path.Lights i r)
    ∧ (∀ n e, s.path.enable n = some e → ∃ r, s.path.record e.ref = some r ∧ r.base ≤ n ∧ n < r.base + r.width)
    ∧ s.path.owner = s.path.bestOwner
    ∧ (s.path.owner = none → s.path.gate = false ∧ s.path.rate = 1)
    ∧ (∀ i, s.path.owner = some i →
        ∃ r, s.path.record i = some r ∧ s.path.rate = r.width ∧ s.path.gate = decide (r.stage = .opened))

/-- Every other record's block is apart from context i's. -/
def Path.ApartFrom (p : Path) (i : Ref) (r : PathRec) : Prop :=
  ∀ j x, p.record j = some x → j ≠ i → x.base + x.width ≤ r.base ∨ r.base + r.width ≤ x.base

/-! ### OKU (R168, R169) -/

/-- The strike is energized only while the strike fault status is CLEAR (R168). -/
def StrikeLaw (s : State) : Prop := s.oku.strikeFault.sticky = true → s.oku.strike = none

/-- The ringer follows the alerting set: SILENT exactly while it is empty (R169). -/
def RingerLaw (s : State) : Prop := s.oku.ringer = .silent ↔ ∀ i : Ref, s.oku.alerting[i] = false

/-- The alerting set is the set of contexts in ALERTING (R131, R169). -/
def AlertLaw (s : State) : Prop := ∀ i : Ref, s.oku.alerting[i] = true ↔ ∃ y, s.ctx i = some y ∧ y.state = .alerting

/-- A door request is PENDING only for an ANSWER-side context in TALK: it is gone when the context enters CLEARING or ends (R165,
R166). -/
def DoorLaw (s : State) : Prop := ∀ i : Ref, s.oku.door[i] ≠ none → ∃ y, s.ctx i = some y ∧ y.side = .answer ∧ y.state = .talk

/-! ### Terms of the statements -/

/-- Another station's frame reaches this station's blocks: the station is a member, carries no frame of its own, and the frame and
its sender suit (R46, R54, R55). -/
def State.hears (s : State) (x : Byte) (f : Frame) : Prop :=
  s.member = true ∧ s.carrying = none ∧ x ≠ s.own ∧ validAddr x = true ∧ f.suits = true

/-- This station's own frame, in carriage, passes its closing mark at a member (R54). -/
def State.echoes (s : State) (x : Byte) (f : Frame) : Prop :=
  s.member = true ∧ x = s.own ∧ s.carrying.map Entry.frame = some f ∧ validAddr x = true ∧ f.suits = true

/-- A frame of either kind. -/
def State.takesFrame (s : State) (x : Byte) (f : Frame) : Prop := s.hears x f ∨ s.echoes x f

/-- The sender and frame of a command that takes a suited frame. -/
def takenFrame : Instr → Option (Byte × Frame)
  | .snapshotTaken x hs ws => some (x, .snapshot hs ws)
  | .reclaimTaken x c => some (x, .reclaim c)
  | .joinTaken x r u w => some (x, .join r u w)
  | .leaveTaken x => some (x, .leave)
  | .seekTaken x u => some (x, .seek u)
  | .offerTaken x u w => some (x, .offer u w)
  | .ringTaken x c u w r p ms => some (x, .ring c u w r p ms)
  | .answerTaken x c w => some (x, .answer c w)
  | .refuseTaken x c r => some (x, .refuse c r)
  | .claimTaken x c b w => some (x, .claim c b w)
  | .waitTaken x c w => some (x, .wait c w)
  | .releaseTaken x c k => some (x, .release c k)
  | .openTaken x c => some (x, .open_ c)
  | .openedTaken x c r => some (x, .opened c r)
  | _ => none

/-- The clock, the pins, the supply monitor and polarity, the detectors, the keys, the fault inputs, the record and the DND flag
stand as they stood. -/
def SameFixtures (s t : State) : Prop :=
  t.now = s.now ∧ t.pins = s.pins ∧ t.rif.supply = s.rif.supply ∧ t.rif.lossTimer = s.rif.lossTimer
    ∧ t.rif.returnTimer = s.rif.returnTimer ∧ t.rif.polarity = s.rif.polarity ∧ t.path.fwd = s.path.fwd ∧ t.path.ret = s.path.ret
    ∧ t.oku.hook = s.oku.hook ∧ t.oku.doorKey = s.oku.doorKey ∧ t.oku.deskKey = s.oku.deskKey
    ∧ t.oku.strikeFault = s.oku.strikeFault ∧ t.oku.ringerFault = s.oku.ringerFault
    ∧ t.sport.config = s.sport.config ∧ t.sport.dnd = s.sport.dnd

/-- The station controller, its call sequence counter apart, and the directory lines stand as they stood. -/
def SameStation (s t : State) : Prop :=
  t.stc.state = s.stc.state ∧ t.stc.locked = s.stc.locked ∧ t.stc.buffer = s.stc.buffer ∧ t.stc.learn = s.stc.learn
    ∧ t.stc.stagger = s.stc.stagger ∧ t.stc.outcome = s.stc.outcome ∧ t.udir.lines = s.udir.lines

/-- Every context of another call, and every free context, stands as it stood. -/
def OtherCallsKept (c : CallId) (s t : State) : Prop :=
  ∀ i : Ref, (∀ x, s.ctx i = some x → x.cid ≠ c) → t.ctx i = s.ctx i

/-- Every context but one stands as it stood. -/
def OtherContextsKept (i : Ref) (s t : State) : Prop := ∀ j : Ref, j ≠ i → t.ctx j = s.ctx j

/-- A notice is the newest of the queue, or found the queue full (R180). -/
def Posted (n : Notice) (t : State) : Prop :=
  t.sport.notices.getLast? = some n ∨ (Config.noticeCap ≤ t.sport.notices.length ∧ t.sport.overflow = true)

/-- Notices posted one after the other: the queue takes them while it holds fewer than 16, and one that found it full set the overflow
flag (R180). -/
def PostsInTurn (ns : List Notice) (s t : State) : Prop :=
  t.sport.notices = (s.sport.notices ++ ns).take (max Config.noticeCap s.sport.notices.length)
    ∧ t.sport.overflow = (s.sport.overflow
      || decide (max Config.noticeCap s.sport.notices.length < s.sport.notices.length + ns.length))

/-- The CALL_ENDED notices of a station that ends all its contexts at once: for each live context that has not posted its own, with
its first cause, or ISOLATED (R78, R123, R125, R143). -/
def State.endNotices (s : State) : List Notice :=
  refs.filterMap fun i => (s.ctx i).bind fun y =>
    if y.endPosted then none else some (.callEnded i y.cid (some (y.cause.getD .isolated)))

/-- A frame as it joins the transmit queue (R47). -/
def Entry.fresh (f : Frame) : Entry := { frame := f, attempts := 0, carriage := .waiting }

/-- A queue after a request for a frame: the frame stands at the end where it is accepted (R47, R48). -/
def State.queueWith (s : State) (f : Frame) : List Entry := s.rif.queue ++ (if s.accepts f then [Entry.fresh f] else [])

/-- The recall of an identity is open: asked of RIF, and not answered yet (R56). -/
def State.recallOpen (s : State) (id : FrameId) : Prop := ∃ r ∈ s.rif.recalls, r.id = id ∧ r.isOpen = true

/-- RECALL_ANSWERED brings the block of an identity's oldest recall the answer `a`, and `base` is the state in which the block acts:
RIF removed the WAITING entry, found no entry, or had answered at the end of a carriage (R56). -/
def State.BringsAnswer (s : State) (id : FrameId) (a : RecallAnswer) (base : State) : Prop :=
  ∃ r q, (s.rif.recalls.find? fun r => r.id = id) = some r
    ∧ base = { s with
        eventNo := s.eventNo + 1
        rif := { s.rif with queue := q, recalls := s.rif.recalls.eraseP fun r => r.id = id } }
    ∧ ((r.status = .answered a ∧ q = s.rif.queue)
      ∨ (r.status = .asked ∧ s.queued id = false ∧ a = .tooLate ∧ q = s.rif.queue)
      ∨ (r.status = .asked ∧ a = .recalled ∧ q = s.rif.queue.eraseP (fun e => e.frame.ident = id)
        ∧ ∃ e, (s.rif.queue.find? fun e => e.frame.ident = id) = some e ∧ e.carriage = .waiting))

/-- No LEAVE falls due on an event that frees no context and takes no frame of the station controller from the queue: the station is not
LEAVING, a context is live, or a JOIN or LEAVE is queued (R77). -/
def State.noLeaveDue (s : State) : Prop :=
  s.stc.state = .leaving → s.liveCount ≠ 0 ∨ s.kindQueued .join = true ∨ s.kindQueued .leave = true

/-- The queue stands as given, or with the LEAVE behind it that fell due in LEAVING (R77). -/
def QueueOrLeave (q : List Entry) (s t : State) : Prop :=
  t.rif.queue = q ∨ (s.stc.state = .leaving ∧ t.rif.queue = q ++ [Entry.fresh .leave])

/-- The state in which the blocks take this station's own frame: its entry has left the queue, and an open recall of it is answered "too
late" (R54, R56). -/
def State.onEcho (s : State) (id : FrameId) : State :=
  { s with
    eventNo := s.eventNo + 1
    rif := { s.rif with
      queue := s.rif.queue.eraseP fun e => e.carriage = .carrying
      recalls := s.rif.recalls.map fun r => if r.id = id ∧ r.isOpen = true then { r with status := .answered .tooLate } else r } }

/-- Everything a member holds for calls and for the riser is gone: contexts, copy, path, queue, buffer, timers, seeks (R58, R77, R78,
R80, R99, R160). -/
def State.offTheRiser (t : State) : Prop :=
  (∀ i : Ref, t.ctx i = none) ∧ t.smu = { holds := [], waits := [] } ∧ t.rif.queue = [] ∧ (∀ i : Ref, t.path.record i = none)
    ∧ (∀ n, t.path.enable n = none) ∧ t.path.owner = none ∧ t.path.gate = false ∧ t.path.rate = 1
    ∧ t.stc.buffer = [] ∧ t.stc.learn = none ∧ t.stc.stagger = none ∧ t.udir.seeks = [] ∧ t.udir.offer = .none

/-- Nothing alerts, the ringer is SILENT, and no door request is PENDING (R78, R166, R169). -/
def State.hushed (t : State) : Prop := t.oku.ringer = .silent ∧ ∀ i : Ref, t.oku.alerting[i] = false ∧ t.oku.door[i] = none

/-- The station stands in CONFIGURED, off the riser, with its record unlocked and its directory invalid, and the last notice posted
is the STATION notice (R63, R77, R99). -/
def State.nowConfigured (t : State) (previous : StationState) (r : StationReason) : Prop :=
  t.stc.state = .configured ∧ t.stc.locked = false ∧ t.offTheRiser ∧ (∀ k, t.udir.lineAt k = none)
    ∧ Posted (.station previous .configured r) t

/-- A context in CLEARING with a cause, all its timers stopped, for the call it had. -/
def Clearing (x : Ctx) (cause : Cause) (reversible : Bool) (y : Ctx) : Prop :=
  y.side = x.side ∧ y.cid = x.cid ∧ y.state = .clearing ∧ y.cause = some cause ∧ y.reversible = reversible
    ∧ y.ring = none ∧ y.wait = none ∧ y.talk = none ∧ y.alert = none ∧ y.pathWait = none

/-- The CALL_ENDED notice of context i, with its first cause or `k`, joins the notices, unless it was posted before or they are full
(R119, R123, R143, R180). -/
def EndSaid (i : Ref) (y : Ctx) (k : Cause) (s t : State) : Prop :=
  y.endPosted = false → s.sport.notices.length < Config.noticeCap →
    .callEnded i y.cid (some (y.cause.getD k)) ∈ t.sport.notices

/-- A context in ALERTING or ANSWERING steps out of its call: it alerts no more and sends no RELEASE. From ANSWERING with its ANSWER
queued it waits in CLEARING, superseded, for the recall of the ANSWER; else it is freed (R132, R136, R139, R140, R143). -/
def SteppedBack (i : Ref) (y : Ctx) (k : Cause) (s t : State) : Prop :=
  let recalls := y.state = .answering ∧ s.queued ⟨.answer, .call y.cid⟩ = true
  t.oku.alerting[i] = false
    ∧ (recalls → t.recallOpen ⟨.answer, .call y.cid⟩ ∧ ∃ z, t.ctx i = some z ∧ Clearing y (y.cause.getD k) false z
      ∧ z.superseded = true ∧ z.awaits = .answerRecall)
    ∧ (¬ recalls → t.ctx i = none)

/-- A RELEASE or RECLAIM ends context i outside CLEARING. An ORIGIN context recalls its queued RING, CLAIM and WAIT, and waits in CLEARING
for the recall of a CLAIM or WAIT, else it is freed; an ANSWER-side context steps out of its call, or from AWAIT_PATH on is freed
(R120, R139). Its path record is gone; ANSWERING has none. -/
def EndedByFrame (i : Ref) (y : Ctx) (k : Cause) (s t : State) : Prop :=
  let waits := s.queued ⟨.claim, .call y.cid⟩ = true ∨ s.queued ⟨.wait, .call y.cid⟩ = true
  (y.state ≠ .answering → t.path.record i = none)
    ∧ (y.side = .origin →
      (∀ f ∈ [FrameKind.ring, .claim, .wait], s.queued ⟨f, .call y.cid⟩ = true → t.recallOpen ⟨f, .call y.cid⟩)
        ∧ (waits → ∃ z, t.ctx i = some z ∧ Clearing y (y.cause.getD k) false z ∧ z.awaits = .frameRecall)
        ∧ (¬ waits → t.ctx i = none))
    ∧ (y.side = .answer →
      (y.state = .alerting ∨ y.state = .answering → SteppedBack i y k s t)
        ∧ (y.state ∉ [CtxState.alerting, .answering] → t.ctx i = none))

/-- A context that stale self-release opens (R74). -/
def staleCtx (c : CallId) : Ctx :=
  { side := .origin, cid := c, state := .clearing, cause := some .stale, awaits := .release, endPosted := true }

/-- The stale call ids among the items that the copy lists, holds before wait entries, each with the free context that stale
self-release opens for it while the role limit leaves one (R74). -/
def State.staleTaken (s : State) (items : List CallId) : List (Ref × CallId) :=
  (refs.filter fun i => (s.ctx i).isNone).zip
    ((items.filter fun c => c.orig = s.own && (s.findCall c).isNone).take (s.role.limit - s.liveCount))

/-- The contexts after stale self-release: each taken call id in its own, the other free ones free (R74). -/
def SelfReleased (taken : List (Ref × CallId)) (s t : State) : Prop :=
  (∀ p ∈ taken, t.ctx p.1 = some (staleCtx p.2)) ∧ ∀ i : Ref, s.ctx i = none → i ∉ taken.map Prod.fst → t.ctx i = none

/-- The frames that stale self-release queues, and the notices that it posts (R74). -/
def staleReleases (taken : List (Ref × CallId)) : List Entry := taken.map fun p => Entry.fresh (.release p.2 0x15#8)
@[inherit_doc staleReleases]
def staleNotices (taken : List (Ref × CallId)) : List Notice := taken.map fun p => .callEnded p.1 p.2 (some .stale)

/-- Context i is in SETTLING on a block, its timers stopped, and PATH has a record for it there, sending in its side's half (R118, R138,
R149). -/
def SettlesOn (i : Ref) (y : Ctx) (b : Block) (trimmed : Bool) (t : State) : Prop :=
  t.ctx i = some { y.stopTimers with state := .settling, path := some b, trimmed := trimmed }
    ∧ ∃ r, t.path.record i = some r ∧ r.block = b ∧ r.sendHalf = y.side.sendHalf

/-- A live context against the installed copy of `t`, row by row of R73. In CLEARING it takes on the block and stays, also where its
clearing is reversible (log 35); a muting path that the copy does not back is off, and the RELEASE that waited for it is queued (R158). -/
def SettledByInstall (i : Ref) (y : Ctx) (s t : State) : Prop :=
  let hold := (t.smu.holdOf y.cid).map fun h => (h.base, h.width)
  let entry := (t.smu.waitOf y.cid).isSome
  let same := t.ctx i = some y ∧ t.path.record i = s.path.record i
  let recalled := ∀ f ∈ [FrameKind.claim, .wait], s.queued ⟨f, .call y.cid⟩ = true → t.recallOpen ⟨f, .call y.cid⟩
  let released := fun (k : Option Cause) => t.path.record i = none ∧ Entry.fresh (.release y.cid (causeByte k)) ∈ t.rif.queue
  let lost := released (some (y.cause.getD .lostPath)) ∧ (s.sport.notices = [] → EndSaid i y .lostPath s t)
    ∧ ∃ z, t.ctx i = some z ∧ Clearing y (y.cause.getD .lostPath) false z ∧ z.awaits = .release
  match y.state with
  | .settling => (hold.isSome = true ∧ hold = y.path → same) ∧ (hold = none ∨ hold ≠ y.path → lost)
  | .talk => (hold.isSome = true ∧ hold = y.path → same) ∧ (hold = none ∨ hold ≠ y.path → lost)
  | .claiming =>
    (∀ b, hold = some b → recalled ∧ SettlesOn i y b (decide (b.2 < y.wanted)) t)
      ∧ (hold = none → entry = true → recalled
        ∧ t.ctx i = some { y.stopTimers with state := .waiting, wait := some (s.now + 1000 * s.sport.config.waitLimit) })
      ∧ (hold = none → entry = false → same)
  | .waiting =>
    (∀ b, hold = some b → SettlesOn i y b (decide (b.2 < y.wanted)) t) ∧ (hold = none → entry = true → same)
      ∧ (hold = none → entry = false → lost)
  | .awaitPath => (∀ b, hold = some b → SettlesOn i y b (decide (b.2 < y.wanted)) t) ∧ (hold = none → same)
  | .clearing =>
    let z := match hold with
      | some b => { y with path := some b, trimmed := decide (b.2 < y.wanted) }
      | none => y
    let cut := ∃ r, s.path.record i = some r ∧ r.stage = .mute ∧ hold ≠ some r.block
    (cut → released y.cause ∧ t.ctx i = some { z with awaits := .release })
      ∧ (¬ cut → t.ctx i = some z ∧ t.path.record i = s.path.record i)
  | _ => same

/-- A context at a RESTART in JOINED, `t` being the state after it: in CLEARING it goes on, made final; in ALERTING it ends at once; in
any other state it clears with cause RESTART by the steps of R121 and R140, its queued frames recalled, its RELEASE queued or its path
muting first, or it is freed where it sends none (R75, R113, R125, R144). -/
def RestartedCtx (i : Ref) (y : Ctx) (s t : State) : Prop :=
  let k := y.cause.getD .restart
  let clearing := fun (a : Awaits) => ∃ z, t.ctx i = some z ∧ Clearing y k false z ∧ z.awaits = a
  let released := clearing .release ∧ Entry.fresh (.release y.cid (causeByte (some k))) ∈ t.rif.queue
  let recalls := fun (f : FrameKind) => s.queued ⟨f, .call y.cid⟩ = true → t.recallOpen ⟨f, .call y.cid⟩
  let muted := clearing .pathOff
    ∧ ∃ r, t.path.record i = some r ∧ r.stage = .mute ∧ r.muteTimer = some (s.now + Config.muteMs)
  (y.side = .origin → y.state ≠ .clearing → recalls .ring ∧ recalls .claim ∧ recalls .wait)
    ∧ match y.state with
      | .clearing => t.ctx i = some { y with reversible := false }
      | .alerting => t.ctx i = none ∧ t.oku.alerting[i] = false
      | .answering =>
        if s.queued ⟨.answer, .call y.cid⟩ then clearing .answerRecall ∧ recalls .answer else t.ctx i = none
      | .awaitPath => released
      | _ =>
        if y.state ∈ [CtxState.settling, .talk] ∧ s.path.lit i = true then muted
        else if y.announced ∨ y.side = .answer then released
        else if s.queued ⟨.ring, .call y.cid⟩ then clearing .ringFate
        else t.ctx i = none

/-- The CALL_ENDED notices of a RESTART in JOINED, in ascending context index: for each context outside CLEARING that has not posted its
own (R125, R144). -/
def State.restartNotices (s : State) : List Notice :=
  refs.filterMap fun i => (s.ctx i).bind fun y =>
    if y.endPosted ∨ y.state = .clearing then none else some (.callEnded i y.cid (some (y.cause.getD .restart)))

/-- What a HANGUP does to context i in RINGING, CLAIMING, WAITING, SETTLING, TALK or ANSWERING, and to nothing else of CENG, the copy
and the queue: a clearing with cause HUNG_UP by the steps of R121 and R140, or the end of a call that sends no RELEASE (R122, R141). Where
its RELEASE is refused FULL the context is freed, and SEND_FAILED is posted after CALL_ENDED (R121, R123). -/
def HungUp (i : Ref) (y : Ctx) (s t : State) : Prop :=
  let clearing := fun (a : Awaits) => ∃ z, t.ctx i = some z ∧ Clearing y .hungUp false z ∧ z.awaits = a
  let full := y.side = .origin ∧ y.announced = true ∧ s.accepts (.release y.cid 1#8) = false
  OtherContextsKept i s t ∧ t.smu = s.smu ∧ EndSaid i y .hungUp s t
    ∧ (y.state ∉ [CtxState.settling, .talk] → ¬ full → Posted (.callEnded i y.cid (some .hungUp)) t)
    ∧ (y.side = .origin → ∀ k ∈ [FrameKind.ring, .claim, .wait],
        s.queued ⟨k, .call y.cid⟩ = true → t.recallOpen ⟨k, .call y.cid⟩)
    ∧ (y.state ∈ [CtxState.settling, .talk] → clearing .pathOff ∧ t.rif.queue = s.rif.queue
        ∧ ∃ r, t.path.record i = some r ∧ r.stage = .mute ∧ r.muteTimer = some (s.now + Config.muteMs))
    ∧ (y.state ∈ [CtxState.ringing, .claiming, .waiting] →
        (y.announced = true → s.accepts (.release y.cid 1#8) = true →
          clearing .release ∧ t.rif.queue = s.rif.queue ++ [Entry.fresh (.release y.cid 1#8)])
        ∧ (full → t.ctx i = none ∧ t.rif.queue = s.rif.queue ∧ Posted (.sendFailed i y.cid .release) t)
        ∧ (y.announced = false → t.rif.queue = s.rif.queue
          ∧ (s.queued ⟨.ring, .call y.cid⟩ = true → clearing .ringFate)
          ∧ (s.queued ⟨.ring, .call y.cid⟩ = false → t.ctx i = none)))
    ∧ (y.state = .answering → t.rif.queue = s.rif.queue
        ∧ (s.queued ⟨.answer, .call y.cid⟩ = true → clearing .answerRecall ∧ t.recallOpen ⟨.answer, .call y.cid⟩)
        ∧ (s.queued ⟨.answer, .call y.cid⟩ = false → t.ctx i = none))

/-- The settings as the 18 field bytes of a CONFIGURE give them (R175, R177). -/
def configBytes (r : ConfigRecord) : List Byte :=
  [r.role.code, r.address] ++ wordBytes r.unit ++ [r.capability] ++ wordBytes r.lower ++ wordBytes r.upper
    ++ [byte r.ringTime, flagByte r.forward, byte r.waitLimit] ++ wordBytes (BitVec.ofNat 16 r.talkLimit)
    ++ [match r.settle with | .carrier => 0#8 | .timed40 => 1#8 | .timed80 => 2#8 | .timed160 => 3#8,
        byte r.strikePulse, byte r.faultSamples, match r.attn with | .single => 0#8 | .split => 1#8]

end Sys2Proof.Machine
end

