-- ==== Sys2Proof/Certificates/Slice0/Obligations.lean ====
section
/-! DEFINITION. The statements for the provers: what the machine, each family of commands and each kind of state do by the spec's
rules. A clause that rests on a row of the assumption log names the row. -/

section Statements

open Sys2Proof Sys2Proof.Machine

/-! ### The machine -/

/-- A step takes the command at the front of the queue and runs it on the state with the queue's rest. With no command waiting the
part idles: the model's choice (log 2). -/
def Obligations.StepRunsTheFrontCommand : Prop :=
  (∀ (c : Instr) (cs : List Instr) (s : State), step { s with pending := c :: cs } = exec c { s with pending := cs })
  ∧ (∀ s : State, s.pending = [] → step s = .next s)

/-- Every command answers a next state and leaves the waiting commands as they are. -/
def Obligations.EveryCommandCompletes : Prop :=
  ∀ (c : Instr) (s : State), ∃ t, exec c s = .next t ∧ t.pending = s.pending

/-- The values the spec gives after power-on reset: RIF, SMU, STC, UDIR, CENG, PATH, OKU and SPORT. -/
def Obligations.ResetValues : Prop :=
  let s := State.reset
  s.rif.supply = .lost ∧ s.rif.lossTimer = none ∧ s.rif.polarity = .unknown ∧ s.rif.queue = []
    ∧ s.smu.holds = [] ∧ s.smu.waits = [] ∧ freeCount s.smu.holds = 24
    ∧ s.stc.state = .unconfigured ∧ s.stc.locked = false ∧ s.stc.buffer = [] ∧ s.stc.learn = none ∧ s.stc.stagger = none
    ∧ s.stc.outcome = .none ∧ s.stc.sequence = 0#8
    ∧ (∀ k, s.udir.lineAt k = none) ∧ s.udir.seeks = [] ∧ s.udir.offer = .none
    ∧ (∀ i, s.ctx i = none)
    ∧ (∀ n, s.path.enable n = none) ∧ (∀ i, s.path.record i = none) ∧ s.path.owner = none ∧ s.path.gate = false ∧ s.path.rate = 1
    ∧ (∀ k, (s.oku.key k).active = false) ∧ s.oku.strike = none ∧ s.oku.ringer = .silent ∧ (∀ i : Ref, s.oku.alerting[i] = false)
    ∧ s.oku.strikeFault.counter = 0 ∧ s.oku.ringerFault.counter = 0 ∧ s.oku.strikeFault.sticky = false
    ∧ s.oku.ringerFault.sticky = false ∧ (∀ i : Ref, s.oku.door[i] = none)
    ∧ s.sport.config = .powerOn ∧ s.sport.notices = [] ∧ s.sport.overflow = false ∧ s.sport.dnd = false
    ∧ s.sport.attn0 = false ∧ s.sport.attn1 = false

/-- Power-on reset at any time: every block at its reset values, the return timer running where supply is present and a debounce
timer where a key's input is active; the pins, the clock and the waiting commands stand outside it (log 5). -/
def Obligations.PowerOnResetStartsTimers : Prop :=
  ∀ s : State,
    exec .powerOnReset s = .next
      { State.reset with
        now := s.now, eventNo := s.eventNo, pins := s.pins, pending := s.pending
        rif := { State.reset.rif with returnTimer := if s.pins.supply then some (s.now + 20) else none }
        oku := { State.reset.oku with
          hook := ⟨false, if s.pins.hook then some (s.now + 10) else none⟩
          doorKey := ⟨false, if s.pins.doorKey then some (s.now + 10) else none⟩
          deskKey := ⟨false, if s.pins.deskKey then some (s.now + 10) else none⟩ } }

/-! ### Supply and polarity -/

/-- The supply monitor's timers start and stop with the supply. In LEARNING the polarity is read once from the pair. That a SUPPLY_FALLS or
SUPPLY_RISES at the level that stands, and a POLARITY_FOUND outside a LEARNING with polarity unknown, change nothing is the model's
reading (log 3, deduced). -/
def Obligations.SupplyAndPolarity : Prop :=
  (∀ s : State,
    (s.pins.supply = true → s.rif.supply = .present →
      exec .supplyFalls s = .next
        { s with pins := { s.pins with supply := false }, rif := { s.rif with lossTimer := some (s.now + 50) } })
    ∧ (s.pins.supply = true → s.rif.supply = .lost →
      exec .supplyFalls s = .next
        { s with pins := { s.pins with supply := false }, rif := { s.rif with returnTimer := none } })
    ∧ (s.pins.supply = false → exec .supplyFalls s = .next s)
    ∧ (s.pins.supply = false → s.rif.supply = .present →
      exec .supplyRises s = .next { s with pins := { s.pins with supply := true }, rif := { s.rif with lossTimer := none } })
    ∧ (s.pins.supply = false → s.rif.supply = .lost →
      exec .supplyRises s = .next
        { s with pins := { s.pins with supply := true }, rif := { s.rif with returnTimer := some (s.now + 20) } })
    ∧ (s.pins.supply = true → exec .supplyRises s = .next s))
  ∧ (∀ (s : State) (aHigher : Bool),
      (s.stc.state = .learning → s.rif.polarity = .unknown →
        exec (.polarityFound aHigher) s = .next
          { s with rif := { s.rif with polarity := if aHigher then .normal else .swapped } })
      ∧ (s.stc.state ≠ .learning ∨ s.rif.polarity ≠ .unknown → exec (.polarityFound aHigher) s = .next s))

/-- The loss timer's expiry: the supply is LOST, every detector ABSENT; LEARNING and JOINED go to ISOLATED with the directory kept,
LEAVING goes to CONFIGURED, and no other state changes. Every context ends: the CALL_ENDED notices come before the STATION notice, the
ringer falls silent, and no door request is left. The return timer's expiry: the supply is PRESENT; ISOLATED goes to LEARNING with its
JOIN queued, its directory kept and its polarity to be found; no other state changes. The clock's move to each expiry is the model's
choice (log 1). -/
def Obligations.RiserLossAndReturn : Prop :=
  (∀ (s : State) (e : Nat), s.rif.lossTimer = some e →
    ∃ t, exec .supplyLossTimerExpiry s = .next t ∧ t.now = max s.now e ∧ t.rif.supply = .lost ∧ t.rif.lossTimer = none
      ∧ (∀ h n, t.path.detector h n = false) ∧ t.rif.polarity = s.rif.polarity ∧ t.oku.strike = s.oku.strike
      ∧ t.sport.config = s.sport.config
      ∧ (s.stc.state = .learning ∨ s.stc.state = .joined →
        t.stc.state = .isolated ∧ t.stc.locked = true ∧ t.offTheRiser ∧ t.udir.lines = s.udir.lines
          ∧ PostsInTurn (s.endNotices ++ [.station s.stc.state .isolated .riserLost]) s t)
      ∧ (s.stc.state = .leaving →
        t.nowConfigured .leaving .riserLost ∧ PostsInTurn (s.endNotices ++ [.station .leaving .configured .riserLost]) s t)
      ∧ (s.stc.state ∈ [StationState.learning, .joined, .leaving] → AlertLaw s → RingerLaw s → DoorLaw s → t.hushed)
      ∧ (s.stc.state = .unconfigured ∨ s.stc.state = .configured ∨ s.stc.state = .isolated →
        t.stc = s.stc ∧ t.ctxs = s.ctxs ∧ t.smu = s.smu ∧ t.udir = s.udir ∧ t.sport = s.sport ∧ t.rif.queue = s.rif.queue ∧ t.oku = s.oku))
  ∧ (∀ (s : State) (e : Nat), s.rif.returnTimer = some e →
      ∃ t, exec .returnTimerExpiry s = .next t ∧ t.now = max s.now e ∧ t.rif.supply = .present ∧ t.rif.returnTimer = none
        ∧ (s.stc.state = .isolated → s.rif.queue = [] →
          t.stc.state = .learning ∧ t.stc.locked = true ∧ t.stc.buffer = [] ∧ t.stc.learn = none ∧ t.stc.stagger = none
            ∧ t.stc.outcome = .none ∧ t.smu = { holds := [], waits := [] } ∧ t.rif.polarity = .unknown
            ∧ t.rif.queue = [Entry.fresh s.joinFrame] ∧ t.udir.lines = s.udir.lines ∧ t.udir.seeks = []
            ∧ PostsInTurn [.station .isolated .learning .riserReturned] s t)
        ∧ (s.stc.state ≠ .isolated →
          t = { s with now := max s.now e, rif := { s.rif with supply := .present, returnTimer := none } }))

/-! ### Openings, spoils and recalls -/

/-- In an opening the candidate is the oldest entry of the lowest class among the entries that had reached RIF. Where its key is the
lowest, its carriage starts, a SNAPSHOT taking the contents of the copy; where another key is lower, nothing changes. A station whose
queue holds no entry that had reached RIF, the empty queue among them, has no candidate, and one off the riser does not contend: for
either nothing changes. -/
def Obligations.OpeningCarriesTheOldestOfTheLowestClass : Prop :=
  (∀ (s : State) (other : Option ArbKey) (unreached : Nat), s.onRiser = false ∨ s.rif.queue.length ≤ unreached →
    exec (.opening other unreached) s = .next s)
  ∧ (∀ (s : State) (pre post late : List Entry) (e : Entry) (other : Option ArbKey),
    s.onRiser = true → s.carrying = none → s.rif.queue = pre ++ e :: post ++ late →
    (∀ x ∈ pre, e.frame.cls < x.frame.cls) → (∀ x ∈ post, e.frame.cls ≤ x.frame.cls) →
    ((∀ o, other = some o → e.frame.cls < o.cls.toNat ∨ (e.frame.cls = o.cls.toNat ∧ s.own ≤ o.addr)) →
      exec (.opening other late.length) s = .next
        { s with rif := { s.rif with
          queue := pre ++ { e with carriage := .carrying, frame := if e.frame.kind = .snapshot then s.smu.compose else e.frame }
            :: post ++ late } })
    ∧ (∀ o, other = some o → o.cls.toNat < e.frame.cls ∨ (e.frame.cls = o.cls.toNat ∧ o.addr < s.own) →
      exec (.opening other late.length) s = .next s))

/-- An address conflict, found while sending or in a taken frame of the own address that this station did not send: the station
enters CONFIGURED with everything gone, the ringer silent and no door request left, and posts the CALL_ENDED notices of its contexts,
then the FAULT notice of kind CONFLICT, then the STATION notice. -/
def Obligations.ConflictLeavesTheRiser : Prop :=
  ∀ s : State, s.onRiser = true →
    let conflicts := fun (t : State) => t.nowConfigured s.stc.state .conflict ∧ SameFixtures s t
      ∧ PostsInTurn (s.endNotices ++ [.fault .conflict false, .station s.stc.state .configured .conflict]) s t
      ∧ (AlertLaw s → RingerLaw s → DoorLaw s → t.hushed)
    (s.carrying.isSome = true → ∃ t, exec .readBackMismatch s = .next t ∧ conflicts t)
    ∧ (s.carrying = none → ∀ (c : Instr) (f : Frame), takenFrame c = some (s.own, f) → ∃ t, exec c s = .next t ∧ conflicts t)
    ∧ (s.carrying = none → ∀ (k : Byte) (body : List Byte),
      ∃ t, exec (.unsuitedFrameTaken s.own k body) s = .next t ∧ conflicts t)

/-- A frame that suits no kind, or whose sender is out of range, is ignored, and a station that takes no frames takes none. Of a
command that the part cannot meet, an UNSUITED_FRAME_TAKEN whose body suits its kind or a frame's own command whose fields do not,
the model too makes an ignored frame: its choice (log 29). -/
def Obligations.UnsuitedAndUnheardFramesDoNothing : Prop :=
  ∀ s : State,
    (∀ x k body, x ≠ s.own → exec (.unsuitedFrameTaken x k body) s = .next s)
    ∧ (s.onRiser = false → ∀ c x f, takenFrame c = some (x, f) → exec c s = .next s)
    ∧ (∀ c x f, takenFrame c = some (x, f) → x ≠ s.own → validAddr x = false ∨ f.suits = false → exec c s = .next s)

/-- A receiver drives the spoil mark exactly under the four conditions of the table. A spoiled attempt below the sixteenth is
counted, and the entry waits at its place; nothing else of the station changes but for a LEAVE that becomes due. -/
def Obligations.SpoilMarksAndAttempts : Prop :=
  (∀ (s : State) (a : Byte), s.onRiser = true → s.carrying = none →
    (∀ (code sender len : Byte) (rest : List Byte),
      let spoils : Bool := decide
        (sender ≠ a ∨ 160 < len.toNat ∨ rest.length < len.toNat + 2
          ∨ wordBytes (checkSequence (code :: sender :: len :: rest.take len.toNat)) ≠ (rest.drop len.toNat).take 2)
      exec (.frameSpoiled a (code :: sender :: len :: rest)) s = .next { s with rif := { s.rif with spoilMark := spoils } })
    ∧ (∀ received : List Byte, received.length < 3 →
      exec (.frameSpoiled a received) s = .next { s with rif := { s.rif with spoilMark := true } }))
  ∧ (∀ (s : State) (pre post : List Entry) (e : Entry) (a : Byte) (received : List Byte),
      s.onRiser = true → s.rif.queue = pre ++ e :: post → e.carriage = .carrying →
      (∀ x ∈ pre ++ post, x.carriage = .waiting) → s.recallHeld e.frame.ident = false → e.attempts + 1 < 16 →
      ∃ t more, exec (.frameSpoiled a received) s = .next t
        ∧ t.rif.queue = pre ++ { e with attempts := e.attempts + 1, carriage := .waiting } :: post ++ more
        ∧ (more = [] ∨ more = [Entry.fresh .leave]) ∧ (s.stc.state ≠ .leaving → more = [])
        ∧ t.rif.recalls = s.rif.recalls ∧ t.smu = s.smu ∧ t.stc = s.stc ∧ t.udir = s.udir ∧ t.ctxs = s.ctxs ∧ t.path = s.path
        ∧ t.oku = s.oku ∧ t.sport = s.sport)

/-- The sixteenth spoiled attempt drops the frame: its entry is gone, whatever its kind, and only new frames may join behind the
others. Its queuing block acts by kind. SNAPSHOT, REFUSE, OPENED: no further effect. RELEASE: SEND_FAILED posted, the context freed,
also with its recall on the way (log 52, DESIGN CHOICE). ANSWER: the context ends. RECLAIM: the item's audit is re-armed, a hold's or a wait entry's, and the oldest overdue item's RECLAIM is
queued. JOIN: queued afresh in JOINED, a restart of learning in LEARNING. LEAVE: the leave completes. RING: in RINGING the direct one
ends its call; the forward and the narrowing one, in any state outside CLEARING, and a direct one whose context took an ANSWER before
it clear it with SEND_FAILED, and the call whose RING was never taken sends no RELEASE (log 41, deduced). CLAIM: a failed attempt with reason DROPPED, then the next CLAIM, or WAIT at the fourth or with no channel free. WAIT: a
clearing with SEND_FAILED. SEEK: the record ends, its context RINGING on a hit and ended with UNKNOWN_UNIT on a miss. OFFER: none is
pending. OPEN: the door request ends with NO_REPLY. A context in CLEARING that awaited the frame's fate is freed. -/
def Obligations.SixteenthSpoilDropsTheFrame : Prop :=
  ∀ (s : State) (pre post : List Entry) (e : Entry) (a : Byte) (received : List Byte),
    s.onRiser = true → s.rif.queue = pre ++ e :: post → e.carriage = .carrying →
    (∀ x ∈ pre ++ post, x.carriage = .waiting) → s.recallHeld e.frame.ident = false → e.attempts = 15 →
    ∃ t, exec (.frameSpoiled a received) s = .next t
      ∧ (e.frame = .leave → t.rif.queue = [])
      ∧ (e.frame ≠ .leave →
        ∃ more, t.rif.queue = pre ++ post ++ more ∧ ∀ x ∈ more, x.attempts = 0 ∧ x.carriage = .waiting)
      ∧ (s.stc.state ≠ .leaving → e.frame.kind = .snapshot ∨ e.frame.kind = .refuse ∨ e.frame.kind = .opened →
        t.rif.queue = pre ++ post ∧ t.smu = s.smu ∧ t.stc = s.stc ∧ t.udir = s.udir ∧ t.ctxs = s.ctxs ∧ t.path = s.path
          ∧ t.oku = s.oku ∧ t.sport = s.sport)
      ∧ (∀ c k i x, e.frame = .release c k → s.findCall c = some i → s.ctx i = some x → x.state = .clearing →
          x.awaits = .release → x.endPosted = true →
        t.ctx i = none ∧ OtherContextsKept i s t ∧ Posted (.sendFailed i c .release) t ∧ t.smu = s.smu)
      ∧ (∀ c w i x, e.frame = .answer c w → s.findCtx .answer c = some i → s.ctx i = some x →
        (x.state = .answering → x.endPosted = false → x.cause = none →
          t.ctx i = none ∧ OtherContextsKept i s t ∧ Posted (.callEnded i c (some .sendFailed)) t ∧ t.smu = s.smu)
        ∧ (x.state = .clearing → x.awaits = .answerRecall → t.ctx i = none ∧ OtherContextsKept i s t ∧ t.smu = s.smu))
      ∧ (∀ c h, e.frame = .reclaim c → s.smu.holdOf c = some h → s.smu.overdue = [] →
        t.smu.holdOf c = some { h with audit := .armed (s.now + 100 * s.own.toNat) })
      ∧ (∀ c w, e.frame = .reclaim c → s.smu.waitOf c = some w → s.smu.overdue = [] →
        t.smu.waitOf c = some { w with audit := .armed (s.now + 100 * s.own.toNat) })
      ∧ (∀ c d g, e.frame = .reclaim c → SlotLaw s.smu → (d, g) ∈ s.smu.overdue → (∀ y ∈ s.smu.overdue, y.1 ≠ c) →
          (∀ y ∈ s.smu.overdue, y.1 ≠ d → g.older y.2 = true) → s.placeHeld .reclaim = false →
          (∀ x ∈ pre ++ post, x.frame.kind ≠ .reclaim) →
        Entry.fresh (.reclaim d) ∈ t.rif.queue ∧ t.ctxs = s.ctxs
          ∧ (∀ h, s.smu.holdOf d = some h → t.smu.holdOf d = some { h with audit := .reclaimQueued })
          ∧ (∀ w, s.smu.waitOf d = some w → t.smu.waitOf d = some { w with audit := .reclaimQueued }))
      ∧ (∀ r u w, e.frame = .join r u w → (∀ x ∈ pre ++ post, x.frame.kind ≠ .join) →
        (s.stc.state = .joined → s.kindQueued .leave = false → t.rif.queue = pre ++ post ++ [Entry.fresh s.joinFrame])
        ∧ (s.stc.state = .learning → QueueLaw s →
          t.rif.queue = pre ++ post ++ [Entry.fresh s.joinFrame] ∧ t.stc.state = .learning ∧ t.stc.buffer = [] ∧ t.stc.learn = none
            ∧ t.stc.outcome = .none ∧ t.smu = { holds := [], waits := [] } ∧ Posted (.learnRestart .joinDropped) t))
      ∧ (e.frame = .leave → s.stc.state = .leaving → t.nowConfigured .leaving .left)
      ∧ (∀ i x, s.ctx i = some x → QueueLaw s →
        let ends := fun (k : Cause) =>
          t.ctx i = none ∧ OtherContextsKept i s t ∧ Posted (.callEnded i x.cid (some k)) t ∧ t.smu = s.smu
        let clears := ∃ z, t.ctx i = some z ∧ Clearing x .sendFailed false z ∧ z.awaits = .release
          ∧ t.rif.queue = pre ++ post ++ [Entry.fresh (.release x.cid 15#8)] ∧ OtherContextsKept i s t ∧ t.smu = s.smu
        (∀ c u w r p ms, e.frame = .ring c u w r p ms → s.findCtx .origin c = some i →
          (x.state = .ringing → x.forward ≠ .queued → x.endPosted = false → x.cause = none → ends .sendFailed)
          ∧ (x.cause = none → x.announced = true →
              (x.state = .ringing ∧ x.forward = .queued) ∨ x.state = .claiming ∨ x.state = .waiting →
            clears)
          ∧ (x.cause = none → x.announced = false → x.endPosted = false → x.state = .claiming ∨ x.state = .waiting →
              (∀ y ∈ pre ++ post, y.frame.ident ≠ e.frame.ident) →
            ends .sendFailed ∧ ∀ k ∈ [FrameKind.claim, .wait], s.queued ⟨k, .call c⟩ = true → t.recallOpen ⟨k, .call c⟩)
          ∧ (x.cause = none → x.state = .settling ∨ x.state = .talk → s.path.lit i = true →
            t.rif.queue = pre ++ post ∧ ∃ z, t.ctx i = some z ∧ Clearing x .sendFailed false z ∧ z.awaits = .pathOff)
          ∧ (x.state = .clearing → x.awaits = .ringFate → t.ctx i = none ∧ OtherContextsKept i s t ∧ t.smu = s.smu))
        ∧ (∀ c b w, e.frame = .claim c b w → s.findCtx .origin c = some i →
          (x.state = .claiming → s.smu.has c = false →
            let y := { x with attempts := x.attempts + 1, lastReason := some .dropped }
            t.ctx i = some y ∧ OtherContextsKept i s t ∧ t.smu = s.smu
              ∧ (x.attempts + 1 < 4 → ∀ k, placement s.smu.holds x.wanted = some k →
                t.rif.queue = pre ++ post ++ [Entry.fresh (.claim c (byte k.1) (byte k.2))])
              ∧ (4 ≤ x.attempts + 1 ∨ placement s.smu.holds x.wanted = none →
                t.rif.queue = pre ++ post ++ [Entry.fresh (.wait c (byte x.wanted))]))
          ∧ (x.state = .clearing → x.awaits = .frameRecall → t.ctx i = none ∧ OtherContextsKept i s t ∧ t.smu = s.smu))
        ∧ (∀ c w, e.frame = .wait c w → s.findCtx .origin c = some i →
          (x.state = .claiming → x.cause = none → x.announced = true → clears)
          ∧ (x.state = .clearing → x.awaits = .frameRecall → t.ctx i = none ∧ OtherContextsKept i s t ∧ t.smu = s.smu))
        ∧ (∀ u r, e.frame = .seek u → s.udir.seekOf u = some r → r.state = .queued → r.refs = [i] → x.state = .seeking →
          (∀ y ∈ t.udir.seeks, y.unit ≠ u)
            ∧ (∀ ms, s.lookup u = some ms → s.accepts (s.ringFrame x 0 ms) = true →
              t.ctx i = some { x with state := .ringing, members := ms } ∧ OtherContextsKept i s t
                ∧ Posted (.callState i x.cid (.ringing 0 ms.length false)) t)
            ∧ (s.lookup u = none → x.endPosted = false → x.cause = none → ends .unknownUnit))
        ∧ (∀ c d, e.frame = .open_ c → s.findCtx .answer c = some i → s.oku.door[i] = some d →
          t.oku.door[i] = none ∧ t.ctxs = s.ctxs ∧ Posted (.door (some i) c .noReply 0#8) t))
      ∧ (∀ u w, e.frame = .offer u w → t.udir.offer = .none ∧ t.ctxs = s.ctxs ∧ t.smu = s.smu)

/-- A recall that reaches RIF removes a WAITING entry, is held while the entry is CARRYING, and asks nothing more of a frame already
taken. The answer then goes back to its block, which acts by kind: a RING, CLAIM, WAIT or ANSWER whose fate a clearing context awaits
frees it, or releases what a CLAIM or WAIT taken after all gave the call; a RELEASE of a final clearing is queued again, and one of a
reversible clearing lets the call go on, in CLAIMING after NO_ANSWER and in SETTLING after CONGESTED, where the role limit allows it,
at a DESK beside other calls too, and else makes the clearing final (log 11, deduced); a RECLAIM's place goes to the oldest overdue
item, and a SEEK's to the pending OFFER or the oldest pending seek; nothing else acts on it. That "too late" to a RING's recall
changes nothing, where R112 queues the narrowing RING on it, is the model's reading: it acts at the RING's taking (log 9, deduced). So
is that an answer which reaches its block after a later recall of the same identity was asked changes nothing there (log 7, deduced).
That a RING recalled in CLEARING sets forward NONE too is the model's choice (log 47, DESIGN CHOICE). -/
def Obligations.RecallAnswersByTheEntry : Prop :=
  (∀ (s : State) (id : FrameId), (s.rif.recalls.find? fun r => r.id = id) = some ⟨id, .asked⟩ →
    (∀ e, (s.rif.queue.find? fun e => e.frame.ident = id) = some e → e.carriage = .waiting →
      ∃ t more, exec (.recallAnswered id) s = .next t ∧ t.rif.queue = (s.rif.queue.eraseP fun e => e.frame.ident = id) ++ more
        ∧ SameFixtures s t ∧ SameStation s t)
    ∧ (∀ e, (s.rif.queue.find? fun e => e.frame.ident = id) = some e → e.carriage = .carrying →
      exec (.recallAnswered id) s = .next (s.markRecall id .held))
    ∧ (id.kind ≠ .claim → id.kind ≠ .wait → id.kind ≠ .answer → s.noLeaveDue → s.queued id = false →
      exec (.recallAnswered id) s = .next
        { s with eventNo := s.eventNo + 1, rif := { s.rif with recalls := s.rif.recalls.eraseP fun r => r.id = id } }))
  ∧ (∀ (s : State) (id : FrameId) (a : RecallAnswer) (base : State), s.BringsAnswer id a base →
      (s.stc.state = .leaving → base.kindQueued .join = true ∨ base.kindQueued .leave = true) →
      let allowed := fun (i : Ref) => s.role = .desk ∨ ∀ j, j ≠ i → s.outsideClearing j = false
      ((∃ r ∈ base.rif.recalls, r.id = id) → exec (.recallAnswered id) s = .next base)
      ∧ ((∀ r ∈ base.rif.recalls, r.id ≠ id) →
        (id.kind ∈ [FrameKind.snapshot, .join, .leave, .offer, .refuse, .open_, .opened] ∨ (a = .tooLate ∧ id.kind ∈
            [FrameKind.ring, .release, .reclaim, .seek]) → exec (.recallAnswered id) s = .next base)
        ∧ (∀ c i x, s.findCtx .origin c = some i → s.ctx i = some x →
          (id = ⟨.ring, .call c⟩ → a = .recalled →
            (x.state ≠ .clearing ∨ x.awaits ≠ .ringFate →
              exec (.recallAnswered id) s = .next (base.setCtx i (some { x with forward := .none })))
            ∧ (x.state = .clearing → x.awaits = .ringFate →
              ∃ t, exec (.recallAnswered id) s = .next t ∧ t.ctx i = none ∧ OtherContextsKept i s t ∧ t.rif = base.rif))
          ∧ (id = ⟨.claim, .call c⟩ ∨ id = ⟨.wait, .call c⟩ →
            (x.state ≠ .clearing ∨ x.awaits ≠ .frameRecall → exec (.recallAnswered id) s = .next base)
            ∧ (x.state = .clearing → x.awaits = .frameRecall → a = .recalled ∨ s.smu.has c = false →
              ∃ t, exec (.recallAnswered id) s = .next t ∧ t.ctx i = none ∧ OtherContextsKept i s t ∧ t.rif = base.rif)
            ∧ (x.state = .clearing → x.awaits = .frameRecall → a = .tooLate → s.smu.has c = true →
                base.accepts (.release c (causeByte x.cause)) = true →
              ∃ t, exec (.recallAnswered id) s = .next t ∧ t.ctx i = some { x with awaits := .release } ∧ OtherContextsKept i s t
                ∧ t.rif.queue = base.rif.queue ++ [Entry.fresh (.release c (causeByte x.cause))] ∧ t.sport = s.sport)))
        ∧ (∀ c i x, s.findCtx .answer c = some i → s.ctx i = some x → id = ⟨.answer, .call c⟩ →
          (x.state ≠ .clearing ∨ x.awaits ≠ .answerRecall → exec (.recallAnswered id) s = .next base)
          ∧ (x.state = .clearing → x.awaits = .answerRecall →
            ∃ t, exec (.recallAnswered id) s = .next t ∧ t.ctx i = none ∧ OtherContextsKept i s t ∧ t.rif = base.rif))
        ∧ (∀ c i x, s.findCall c = some i → s.ctx i = some x → id = ⟨.release, .call c⟩ → a = .recalled → x.state = .clearing →
            x.awaits = .release →
          (x.reversible = false → base.accepts (.release c (causeByte x.cause)) = true →
            ∃ t, exec (.recallAnswered id) s = .next t ∧ t.ctx i = some x ∧ OtherContextsKept i s t
              ∧ t.rif.queue = base.rif.queue ++ [Entry.fresh (.release c (causeByte x.cause))] ∧ t.sport = s.sport)
          ∧ (x.reversible = true → ¬ allowed i → base.accepts (.release c (causeByte x.cause)) = true →
            ∃ t, exec (.recallAnswered id) s = .next t ∧ t.ctx i = some { x with reversible := false } ∧ OtherContextsKept i s t
              ∧ t.rif.queue = base.rif.queue ++ [Entry.fresh (.release c (causeByte x.cause))] ∧ t.sport = s.sport)
          ∧ (x.reversible = true → x.cause = some .noAnswer → allowed i → s.smu.has c = false →
            ∀ b, placement s.smu.holds x.wanted = some b → base.accepts (.claim c (byte b.1) (byte b.2)) = true →
            ∃ t, exec (.recallAnswered id) s = .next t ∧ OtherContextsKept i s t
              ∧ t.ctx i = some { x with state := .claiming, reversible := false, cause := none, awaits := .nothing }
              ∧ t.rif.queue = base.rif.queue ++ [Entry.fresh (.claim c (byte b.1) (byte b.2))])
          ∧ (∀ b, x.reversible = true → x.cause = some .congested → x.path = some b → allowed i →
              s.member = true → (∀ h, s.smu.holdOf c = some h → (h.base, h.width) = b) → (s.smu.holdOf c).isSome = true →
              s.path.record i = none → (∀ n, b.1 ≤ n → n < b.1 + b.2 → s.path.enable n = none) →
            ∃ t, exec (.recallAnswered id) s = .next t ∧ OtherContextsKept i s t ∧ t.rif = base.rif
              ∧ SettlesOn i { x with reversible := false, cause := none, awaits := .nothing } b x.trimmed t))
        ∧ (∀ c, id = ⟨.reclaim, .call c⟩ → a = .recalled → base.accepts (.reclaim c) = true → base.placeHeld .reclaim = false →
          (s.smu.overdue = [] → exec (.recallAnswered id) s = .next base)
          ∧ (∀ d g, (d, g) ∈ s.smu.overdue → (∀ y ∈ s.smu.overdue, y.1 ≠ d → g.older y.2 = true) →
              (∀ y ∈ s.smu.overdue, y.1 = d → y.2 = g) →
            ∃ t, exec (.recallAnswered id) s = .next t ∧ t.rif.queue = base.rif.queue ++ [Entry.fresh (.reclaim d)]
              ∧ t.ctxs = s.ctxs ∧ t.smu.snapHolds = s.smu.snapHolds ∧ t.smu.snapWaits = s.smu.snapWaits))
        ∧ (∀ u, id = ⟨.seek, .unit u⟩ → a = .recalled → base.accepts (.seek u) = true → base.placeHeld .seek = false →
          (s.udir.offer = .pending →
            ∃ t, exec (.recallAnswered id) s = .next t ∧ t.udir = { s.udir with offer := .queued } ∧ t.ctxs = s.ctxs
              ∧ t.rif.queue = base.rif.queue ++ [Entry.fresh (.offer s.sport.config.unit s.sport.config.capability)])
          ∧ (s.udir.offer ≠ .pending → (∀ r ∈ s.udir.seeks, r.state ≠ .pending) → exec (.recallAnswered id) s = .next base)
          ∧ (∀ old r new, s.udir.offer ≠ .pending → s.udir.seeks = old ++ r :: new → (∀ x ∈ old, x.state ≠ .pending) →
              r.state = .pending →
            ∃ t, exec (.recallAnswered id) s = .next t ∧ t.udir.seeks = old ++ { r with state := .queued } :: new
              ∧ t.ctxs = s.ctxs ∧ t.rif.queue = base.rif.queue ++ [Entry.fresh (.seek r.unit)]))))

/-! ### Learning -/

/-- In LEARNING every suited frame of another station but a SNAPSHOT goes into the buffer and does nothing else, while the buffer
holds fewer than 32; the thirty-third restarts learning. The own JOIN taken in LEARNING is buffered and starts the learn timer
at 1,000 ms where it is stopped. -/
def Obligations.LearningBuffersFrames : Prop :=
  (∀ (s : State) (c : Instr) (x : Byte) (f : Frame), takenFrame c = some (x, f) → f.kind ≠ .snapshot →
    s.stc.state = .learning → s.rif.polarity ≠ .unknown → s.carrying = none → x ≠ s.own → validAddr x = true → f.suits = true →
    (s.stc.buffer.length < 32 →
      exec c s = .next { s with eventNo := s.eventNo + 1, stc := { s.stc with buffer := s.stc.buffer ++ [(x, f)] } })
    ∧ (32 ≤ s.stc.buffer.length →
      ∃ t, exec c s = .next t ∧ t.stc.state = .learning ∧ t.stc.buffer = [] ∧ t.stc.learn = none ∧ t.stc.outcome = .none
        ∧ t.smu = { holds := [], waits := [] } ∧ Posted (.learnRestart .overflow) t ∧ t.udir = s.udir ∧ t.ctxs = s.ctxs
        ∧ (s.kindQueued .join = true → t.rif.queue = s.rif.queue) ∧ SameFixtures s t))
  ∧ (∀ (s : State) (r : Byte) (u : UnitNum) (w : Byte),
      s.stc.state = .learning → s.rif.polarity ≠ .unknown → s.carrying.map Entry.frame = some (.join r u w) →
      validAddr s.own = true → s.stc.buffer.length < 32 →
      ∃ t, exec (.joinTaken s.own r u w) s = .next t
        ∧ t.stc = { s.stc with
            buffer := s.stc.buffer ++ [(s.own, .join r u w)]
            learn := if s.stc.learn = none then some (s.now + 1000) else s.stc.learn }
        ∧ t.rif.queue = s.rif.queue.eraseP (fun e => e.carriage = .carrying)
        ∧ t.smu = s.smu ∧ t.udir = s.udir ∧ t.ctxs = s.ctxs ∧ t.sport = s.sport)

/-- The learn timer's expiry applies the buffer in order, ends learning with outcome EMPTY, and releases the stale calls of the own
address: a context in CLEARING with cause STALE for each within the role limit, its RELEASE queued, and its CALL_ENDED notice after the
STATION notice. Of a stale context R74 gives no peer unit and no wanted width: 0 for both is the model's choice (log 43, DESIGN CHOICE).
A buffered CLAIM, WAIT, RELEASE or RECLAIM has its effect on the copy, a JOIN, OFFER or LEAVE on the directory, and no other kind has
any; none moves the station controller or posts a notice. The clock's move to the expiry is the model's choice (log 1), and each
buffered frame is applied as an event of its own at that clock (log 22, deduced). -/
def Obligations.LearnTimerExpiryAppliesTheBuffer : Prop :=
  (∀ (s : State) (e : Nat), s.stc.learn = some e →
    let applied := s.stc.buffer.foldl State.applyBuffered (s.at e)
    let taken := s.staleTaken (applied.smu.holds.map Hold.cid ++ applied.smu.waits.map WaitEntry.cid)
    ∃ t, exec .learnTimerExpiry s = .next t ∧ t.now = max s.now e ∧ t.stc.state = .joined ∧ t.stc.locked = true
      ∧ t.stc.buffer = [] ∧ t.stc.learn = none ∧ t.stc.stagger = none ∧ t.stc.outcome = .empty
      ∧ t.smu = applied.smu ∧ t.udir.lines = applied.udir.lines ∧ t.sport.config = s.sport.config
      ∧ ((∀ i : Ref, s.ctx i = none) → s.rif.count .call ≤ 4 →
        SelfReleased taken s t ∧ t.rif.queue = applied.rif.queue ++ staleReleases taken
          ∧ PostsInTurn (.station s.stc.state .joined .learned :: staleNotices taken) s t))
  ∧ (∀ (s : State) (x : Byte) (f : Frame), (∀ i : Ref, s.ctx i = none) → SlotLaw s.smu →
      let t := s.applyBuffered (x, f)
      let ages := (⟨s.now, s.eventNo + 1⟩ : Stamp)
      let held := fun (c : CallId) (b w : Nat) =>
        insertHold ⟨c, b, w, ages, .armed (s.now + 900000 + 100 * s.own.toNat)⟩ s.smu.holds
      let mapOnly := t.udir = s.udir
      let linesOnly := t.smu = s.smu ∧ t.rif = s.rif ∧ t.udir = { s.udir with lines := t.udir.lines }
      let frees := fun (c : CallId) => mapOnly ∧ t.smu.has c = false ∧ (t.smu.waits = [] ∨ freeCount t.smu.holds = 0)
        ∧ (s.smu.has c = false → x ≠ s.own → t.smu = s.smu)
        ∧ (∀ h ∈ s.smu.holds, h.cid ≠ c →
          ∃ h' ∈ t.smu.holds, h'.cid = h.cid ∧ h'.base = h.base ∧ h'.width = h.width ∧ h'.age = h.age)
        ∧ ∃ granted, (s.smu.waits.filter fun w => w.cid ≠ c).map WaitEntry.cid = granted ++ t.smu.waits.map WaitEntry.cid
          ∧ ∀ g ∈ granted, ∃ h, t.smu.holdOf g = some h ∧ h.age = ages
      t.now = s.now ∧ t.eventNo = s.eventNo + 1 ∧ t.ctxs = s.ctxs ∧ t.stc = s.stc ∧ t.sport = s.sport
        ∧ match f with
          | .claim c b w => mapOnly ∧ t.smu.waits = s.smu.waits ∧ t.smu.holds =
              if claimTest s.smu x c b.toNat w.toNat = none then held c b.toNat w.toNat else s.smu.holds
          | .wait c w => mapOnly
            ∧ (waitTest s.smu x c w.toNat ≠ none → t.smu = s.smu)
            ∧ (waitTest s.smu x c w.toNat = none → freeCount s.smu.holds = 0 →
              t.smu = { s.smu with waits := s.smu.waits ++ [⟨c, w.toNat, ages, .armed (s.now + 120000 + 100 * s.own.toNat)⟩] })
            ∧ (waitTest s.smu x c w.toNat = none → freeCount s.smu.holds ≠ 0 →
              ∃ k, placement s.smu.holds w.toNat = some k ∧ t.smu = ⟨held c k.1 k.2, []⟩)
          | .release c _ => frees c
          | .reclaim c => frees c
          | .join r u w => linesOnly ∧ t.udir.lines =
              if joinServes r u then fillLine s.udir.lines u x (recordedCap w) else removeStation x s.udir.lines
          | .offer u w => linesOnly ∧ t.udir.lines =
              if u.toNat ≤ 9999 then fillLine s.udir.lines u x (recordedCap w) else s.udir.lines
          | .leave => linesOnly ∧ t.udir.lines = removeStation x s.udir.lines
          | _ => t = { s with eventNo := s.eventNo + 1 })

/-- A SNAPSHOT in LEARNING: a valid one is installed, its items aged from now and audited, and the station is JOINED with outcome
SNAPSHOT; then the stale calls of the own address are released: a context in CLEARING with cause STALE for each within the role limit,
its RELEASE queued, and its CALL_ENDED notice after the STATION notice. An invalid one does nothing. Of a stale context R74 gives no
peer unit and no wanted width: 0 for both is the model's choice (log 43, DESIGN CHOICE). -/
def Obligations.SnapshotEndsLearning : Prop :=
  ∀ (s : State) (x : Byte) (hs : List SnapHold) (ws : List SnapWait),
    s.stc.state = .learning → s.rif.polarity ≠ .unknown → s.carrying = none → x ≠ s.own → validAddr x = true →
    (Frame.snapshot hs ws).suits = true →
    (snapValid hs ws = true →
      ∃ t, exec (.snapshotTaken x hs ws) s = .next t ∧ t.stc.state = .joined ∧ t.stc.buffer = [] ∧ t.stc.learn = none
        ∧ t.stc.outcome = .snapshot ∧ t.smu.snapHolds = hs ∧ t.smu.snapWaits = ws
        ∧ (∀ h ∈ t.smu.holds, h.age = ⟨s.now, s.eventNo + 1⟩ ∧ h.audit = .armed (s.now + 900000 + 100 * s.own.toNat))
        ∧ (∀ w ∈ t.smu.waits, w.age = ⟨s.now, s.eventNo + 1⟩ ∧ w.audit = .armed (s.now + 120000 + 100 * s.own.toNat))
        ∧ t.udir.lines = s.udir.lines ∧ SameFixtures s t
        ∧ ((∀ i : Ref, s.ctx i = none) → s.rif.count .call ≤ 4 →
          let taken := s.staleTaken (hs.map SnapHold.cid ++ ws.map SnapWait.cid)
          SelfReleased taken s t ∧ t.rif.queue = s.rif.queue ++ staleReleases taken
            ∧ PostsInTurn (.station .learning .joined .learned :: staleNotices taken) s t))
    ∧ (snapValid hs ws = false → exec (.snapshotTaken x hs ws) s = .next { s with eventNo := s.eventNo + 1 })

/-- A SNAPSHOT in JOINED, another station's or the own echo: the stagger timer stops, and another's asks for the recall of a queued own
SNAPSHOT. An EQUAL one, as the echo is, or an invalid one changes neither copy, contexts nor notices. A DIFFERENT valid one is installed
with a DIVERGENCE notice; each live context is settled against it row by row, a reversible clearing staying reversible (log 35, DESIGN
CHOICE); then the stale calls of the own address are released, each in a context of its own in CLEARING with cause STALE, its RELEASE
queued and its CALL_ENDED posted. Of a stale context R74 gives no peer unit and no wanted width: 0 for both is the model's choice (log
43, DESIGN CHOICE). In LEAVING it has no effect. -/
def Obligations.SnapshotIsComparedInJoined : Prop :=
  (∀ (s : State) (x : Byte) (hs : List SnapHold) (ws : List SnapWait), s.hears x (.snapshot hs ws) →
    ∃ t, exec (.snapshotTaken x hs ws) s = .next t ∧ SameFixtures s t
      ∧ (s.stc.state = .joined → t.stc.stagger = none ∧ (s.kindQueued .snapshot = true → t.recallOpen ⟨.snapshot, .bare⟩))
      ∧ (s.stc.state = .leaving ∨ snapValid hs ws = false ∨ s.smu.equalTo hs ws = true →
        t.smu = s.smu ∧ t.ctxs = s.ctxs ∧ t.path = s.path ∧ t.oku = s.oku ∧ t.sport = s.sport)
      ∧ (s.stc.state = .joined → snapValid hs ws = true → s.smu.equalTo hs ws = false →
        t.smu.snapHolds = hs ∧ t.smu.snapWaits = ws
          ∧ (∀ h ∈ t.smu.holds, h.audit = .armed (s.now + 900000 + 100 * s.own.toNat))
          ∧ (s.sport.notices.length < 16 →
            .divergence x s.smu.holds.length s.smu.waits.length hs.length ws.length ∈ t.sport.notices)
          ∧ (PathLaw s → SlotLaw s.smu → ContextLaw s → (∀ i y, s.ctx i = some y → y.announced = true ∨ y.side = .answer) →
              (∀ i j y z, s.ctx i = some y → s.ctx j = some z → y.cid = z.cid → i = j) → s.rif.count .call ≤ 4 →
            let taken := s.staleTaken (hs.map SnapHold.cid ++ ws.map SnapWait.cid)
            (∀ i y, s.ctx i = some y → SettledByInstall i y s t) ∧ SelfReleased taken s t
              ∧ (∃ cleared, t.rif.queue = s.rif.queue ++ cleared ++ staleReleases taken ∧ ∀ e ∈ cleared, e.frame.kind = .release)
              ∧ (s.sport.notices = [] → ∀ n ∈ staleNotices taken, n ∈ t.sport.notices))))
  ∧ (∀ (s : State) (hs : List SnapHold) (ws : List SnapWait), s.echoes s.own (.snapshot hs ws) → s.stc.state = .joined →
      s.smu.equalTo hs ws = true → (∀ e ∈ s.rif.queue, e.frame.kind = .snapshot → e.carriage = .carrying) →
      s.rif.queue.countP (fun e => e.carriage = .carrying) = 1 →
      exec (.snapshotTaken s.own hs ws) s = .next
        { s.onEcho ⟨.snapshot, .bare⟩ with stc := { s.stc with stagger := none } })

/-! ### The slot map and the wait list -/

/-- The CLAIM test: success exactly where no row of the table matches, and each reason by its rows, the first that matches. The WAIT
test: each reason by its rows, the first that matches. -/
def Obligations.ClaimAndWaitTestRows : Prop :=
  (∀ (m : Smu) (x : Byte) (c : CallId) (b w : Nat),
    let malformed := ¬ (w = 1 ∨ w = 2 ∨ w = 4) ∨ b % w ≠ 0 ∨ 24 < b + w ∨ c.orig ≠ x
    let duplicate := (∃ h ∈ m.holds, h.cid = c) ∨ ∃ e ∈ m.waits, e.cid = c
    let held := ∃ n, b ≤ n ∧ n < b + w ∧ channelFree m.holds n = false
    (claimTest m x c b w = some .malformed ↔ malformed)
      ∧ (claimTest m x c b w = some .duplicate ↔ ¬ malformed ∧ duplicate)
      ∧ (claimTest m x c b w = some .notFree ↔ ¬ malformed ∧ ¬ duplicate ∧ held)
      ∧ (claimTest m x c b w = none ↔ ¬ malformed ∧ ¬ duplicate ∧ ¬ held))
  ∧ (∀ (m : Smu) (x : Byte) (c : CallId) (w : Nat),
      let malformed := ¬ (w = 1 ∨ w = 2 ∨ w = 4) ∨ c.orig ≠ x
      let duplicate := (∃ h ∈ m.holds, h.cid = c) ∨ ∃ e ∈ m.waits, e.cid = c
      (waitTest m x c w = some .malformed ↔ malformed)
        ∧ (waitTest m x c w = some .duplicate ↔ ¬ malformed ∧ duplicate)
        ∧ (waitTest m x c w = some .full ↔ ¬ malformed ∧ ¬ duplicate ∧ 16 ≤ m.waits.length)
        ∧ (waitTest m x c w = none ↔ ¬ malformed ∧ ¬ duplicate ∧ m.waits.length < 16))

/-- A CLAIM is taken: where its test succeeds the block becomes held by the call, aged from now with its audit armed; else the copy
is unchanged. Contexts of other calls stand as they stood. -/
def Obligations.ClaimTakenComparesAndSwaps : Prop :=
  ∀ (s : State) (x : Byte) (c : CallId) (b w : Byte), s.takesFrame x (.claim c b w) →
    ∃ t, exec (.claimTaken x c b w) s = .next t ∧ SameFixtures s t ∧ SameStation s t ∧ OtherCallsKept c s t
      ∧ t.oku.strike = s.oku.strike ∧ t.smu.waits = s.smu.waits
      ∧ (claimTest s.smu x c b.toNat w.toNat ≠ none → t.smu.holds = s.smu.holds)
      ∧ (claimTest s.smu x c b.toNat w.toNat = none →
        t.smu.holds = insertHold
          ⟨c, b.toNat, w.toNat, ⟨s.now, s.eventNo + 1⟩, .armed (s.now + 900000 + 100 * s.own.toNat)⟩ s.smu.holds)

/-- The own CLAIM that succeeds moves its CLAIMING context to SETTLING on the block, and PATH makes its record with the block's
enables ON in the forward half; the audio port is its where no path owns it, and stays with an owner of earlier settle order. The own
CLAIM that fails counts an attempt and records its reason. Below the fourth the context chooses anew by what the copy shows: SETTLING
on a hold of the call, WAITING on its wait entry, a CLAIM for the placement, a WAIT where no channel is free; at the fourth it queues
WAIT whatever the copy shows. -/
def Obligations.OwnClaimStartsSettling : Prop :=
  ∀ (s : State) (c : CallId) (b w : Byte) (i : Ref) (x : Ctx), s.echoes s.own (.claim c b w) →
    s.ctx i = some x → x.side = .origin → x.cid = c → x.state = .claiming → (∀ j z, s.ctx j = some z → j ≠ i → z.cid ≠ c) →
    (claimTest s.smu s.own c b.toNat w.toNat = none → PathLaw s →
        (∀ o q, s.path.owner = some o → s.path.record o = some q → q.order.older ⟨s.now, s.eventNo + 1⟩ = true) →
      ∃ t r, exec (.claimTaken s.own c b w) s = .next t
        ∧ t.ctx i = some { x.stopTimers with
            state := .settling, path := some (b.toNat, w.toNat), trimmed := decide (w.toNat < x.wanted) }
        ∧ t.path.record i = some r ∧ r.base = b.toNat ∧ r.width = w.toNat ∧ r.sendHalf = .forward
        ∧ (∀ j, j ≠ i → t.path.record j = s.path.record j)
        ∧ (s.path.owner = none → t.path.owner = some i ∧ t.path.rate = w.toNat ∧ t.path.gate = false)
        ∧ (s.path.owner ≠ none → t.path.owner = s.path.owner ∧ t.path.rate = s.path.rate ∧ t.path.gate = s.path.gate)
        ∧ (∀ n, b.toNat ≤ n → n < b.toNat + w.toNat →
          t.path.enable n = some ⟨i, .forward, if s.path.owner = none then .stream else .silence⟩)
        ∧ (∀ n, n < b.toNat ∨ b.toNat + w.toNat ≤ n → t.path.enable n = s.path.enable n))
    ∧ (∀ k, claimTest s.smu s.own c b.toNat w.toNat = some k →
      let base := s.onEcho ⟨.claim, .call c⟩
      let y := { x with attempts := x.attempts + 1, lastReason := some k }
      let queues := fun (f : Frame) => base.accepts f = true →
        ∃ t, exec (.claimTaken s.own c b w) s = .next t ∧ t.ctx i = some y ∧ OtherContextsKept i s t ∧ t.smu = s.smu
          ∧ t.rif.queue = base.rif.queue ++ [Entry.fresh f]
      let moves := fun (t : State) => exec (.claimTaken s.own c b w) s = .next t ∧ OtherContextsKept i s t ∧ t.smu = s.smu
        ∧ t.rif.queue = base.rif.queue
      (y.attempts < 4 → s.smu.has c = false → ∀ p, placement s.smu.holds x.wanted = some p →
        queues (.claim c (byte p.1) (byte p.2)))
      ∧ (4 ≤ y.attempts ∨ (s.smu.has c = false ∧ placement s.smu.holds x.wanted = none) → queues (.wait c (byte x.wanted)))
      ∧ (y.attempts < 4 → PathLaw s → SlotLaw s.smu →
        (∀ h, s.smu.holdOf c = some h →
          ∃ t, moves t ∧ SettlesOn i y (h.base, h.width) (decide (h.width < x.wanted)) t)
        ∧ (∀ p, s.smu.holdOf c = none → s.smu.position c = some p →
          ∃ t, moves t ∧ Posted (.callState i c (.waiting p)) t
            ∧ t.ctx i = some { y.stopTimers with state := .waiting, wait := some (s.now + 1000 * s.sport.config.waitLimit) })))

/-- A WAIT is taken: refused, the copy is unchanged; added with no channel free, it stands last in the list with its audit armed;
added with a channel free, the scan grants it at once by the placement rule. The own WAIT moves its CLAIMING context: added and not
granted, to WAITING with the wait timer running and a CALL_STATE notice of its position; granted at once, to SETTLING on the block; refused
for a full list, to a final clearing with cause CONGESTED, and refused otherwise, to one with cause PATH_FAULT, its RELEASE queued. -/
def Obligations.WaitTakenAppendsOrIsGranted : Prop :=
  (∀ (s : State) (x : Byte) (c : CallId) (w : Byte), s.takesFrame x (.wait c w) → SlotLaw s.smu →
    ∃ t, exec (.waitTaken x c w) s = .next t ∧ SameFixtures s t ∧ SameStation s t ∧ OtherCallsKept c s t
      ∧ (waitTest s.smu x c w.toNat ≠ none → t.smu = s.smu)
      ∧ (waitTest s.smu x c w.toNat = none → freeCount s.smu.holds = 0 →
        t.smu.holds = s.smu.holds ∧ t.smu.waits = s.smu.waits ++
          [⟨c, w.toNat, ⟨s.now, s.eventNo + 1⟩, .armed (s.now + 120000 + 100 * s.own.toNat)⟩])
      ∧ (waitTest s.smu x c w.toNat = none → freeCount s.smu.holds ≠ 0 →
        t.smu.waits = [] ∧ ∃ k, placement s.smu.holds w.toNat = some k ∧ t.smu.holds = insertHold
          ⟨c, k.1, k.2, ⟨s.now, s.eventNo + 1⟩, .armed (s.now + 900000 + 100 * s.own.toNat)⟩ s.smu.holds))
  ∧ (∀ (s : State) (c : CallId) (w : Byte) (i : Ref) (y : Ctx), s.echoes s.own (.wait c w) → SlotLaw s.smu → PathLaw s →
      s.ctx i = some y → y.side = .origin → y.cid = c → y.state = .claiming → (∀ j z, s.ctx j = some z → j ≠ i → z.cid ≠ c) →
      let base := s.onEcho ⟨.wait, .call c⟩
      ∃ t, exec (.waitTaken s.own c w) s = .next t ∧ OtherContextsKept i s t
        ∧ (waitTest s.smu s.own c w.toNat = none → freeCount s.smu.holds = 0 → t.rif.queue = base.rif.queue
          ∧ t.ctx i = some { y.stopTimers with state := .waiting, wait := some (s.now + 1000 * s.sport.config.waitLimit) }
          ∧ Posted (.callState i c (.waiting (s.smu.waits.length + 1))) t)
        ∧ (waitTest s.smu s.own c w.toNat = none → ∀ k, placement s.smu.holds w.toNat = some k →
          t.rif.queue = base.rif.queue ∧ SettlesOn i y k (decide (k.2 < w.toNat)) t)
        ∧ (∀ r, waitTest s.smu s.own c w.toNat = some r → y.cause = none → y.announced = true →
          let k := if r = .full then Cause.congested else .pathFault
          EndSaid i y k s t
            ∧ (base.accepts (.release c (causeByte (some k))) = true →
              (∃ z, t.ctx i = some z ∧ Clearing y k false z ∧ z.awaits = .release)
                ∧ t.rif.queue = base.rif.queue ++ [Entry.fresh (.release c (causeByte (some k)))])))

/-- A RELEASE or a RECLAIM is taken: the call id's hold and wait entry are gone, every other hold stays, the waiting calls are
granted from the head of the list until no channel is free or none waits, and one that names no item changes nothing. -/
def Obligations.ReleaseAndReclaimFreeTheCall : Prop :=
  ∀ (s : State) (x : Byte) (c : CallId) (k : Byte) (cmd : Instr),
    (cmd = .releaseTaken x c k ∧ s.takesFrame x (.release c k)) ∨ (cmd = .reclaimTaken x c ∧ s.takesFrame x (.reclaim c)) →
    SlotLaw s.smu →
    ∃ t, exec cmd s = .next t ∧ SameFixtures s t ∧ SameStation s t ∧ t.smu.has c = false
      ∧ (s.smu.has c = false → x ≠ s.own → t.smu = s.smu)
      ∧ (∀ h ∈ s.smu.holds, h.cid ≠ c →
        ∃ h' ∈ t.smu.holds, h'.cid = h.cid ∧ h'.base = h.base ∧ h'.width = h.width ∧ h'.age = h.age)
      ∧ (∃ granted, (s.smu.waits.filter fun w => w.cid ≠ c).map WaitEntry.cid = granted ++ t.smu.waits.map WaitEntry.cid
        ∧ ∀ g ∈ granted, (t.smu.holdOf g).isSome = true)
      ∧ (t.smu.waits = [] ∨ freeCount t.smu.holds = 0)

/-- The own RELEASE, taken, frees its context in CLEARING; where that leaves no context live in LEAVING, the LEAVE is queued. Another
station's RELEASE, or a RECLAIM that frees the call's hold or wait entry, ends the call's context in every state outside CLEARING: an
ORIGIN context with its frames recalled, an ANSWER-side one in ALERTING or ANSWERING with cause CANCELLED, and otherwise with the
RELEASE's cause, PEER_HUNG_UP for HUNG_UP or an unknown value; a RECLAIM's cause is RECLAIMED. In CLEARING it makes a reversible
clearing final, and a context that awaits its ANSWER's recall superseded, also after its own ANSWER was taken (log 39, DESIGN CHOICE).
A RECLAIM that finds no item does nothing (log 27, deduced). Every enable of the freed block goes off, and a path that mutes on it is
removed and its RELEASE queued, and other contexts stay where none waits. Whichever call such a frame names, a context here whose call
waits and is granted a block goes to SETTLING, and a clearing one records the block: where it cleared reversibly with CONGESTED the
recall of its RELEASE is asked, or, where another context is outside CLEARING at ENTRY or UNIT, the clearing is final. A context that
the same frame ends counts as ended for one of higher index, and as outside CLEARING for one of lower: the model's choice of order (log
50, DESIGN CHOICE). That an ended context which waits in CLEARING for a
recall posts its CALL_ENDED at its ending is the model's reading (log 14, deduced), as is its place before the PATH notice of a new
port owner, which shows at 15 waiting notices (log 15, DESIGN CHOICE). -/
def Obligations.ReleaseEndsTheCall : Prop :=
  (∀ (s : State) (c : CallId) (k : Byte) (i : Ref) (x : Ctx), s.echoes s.own (.release c k) → s.ctx i = some x → x.cid = c →
    x.state = .clearing →
    ∃ t, exec (.releaseTaken s.own c k) s = .next t ∧ t.ctx i = none ∧ SameFixtures s t
      ∧ (s.stc.state = .leaving → s.liveCount = 1 → s.kindQueued .join = false → s.kindQueued .leave = false →
        Entry.fresh .leave ∈ t.rif.queue))
  ∧ (∀ (s : State) (x : Byte) (c : CallId) (k : Byte) (cmd : Instr) (i : Ref) (y : Ctx),
      (cmd = .releaseTaken x c k ∧ s.hears x (.release c k)) ∨ (cmd = .reclaimTaken x c ∧ s.takesFrame x (.reclaim c)) →
      SlotLaw s.smu → s.ctx i = some y → y.cid = c → (∀ j z, s.ctx j = some z → j ≠ i → z.cid ≠ c) →
      let release := cmd = .releaseTaken x c k
      let cause := if cmd = .reclaimTaken x c then Cause.reclaimed
        else if y.side = .answer ∧ (y.state = .alerting ∨ y.state = .answering) then .cancelled else peerCause k
      let freed := fun (b : Block) => ∃ h, s.smu.holdOf c = some h ∧ b = (h.base, h.width)
      let mutes := fun (j : Ref) => ∃ r, s.path.record j = some r ∧ r.stage = .mute ∧ s.path.lit j = true ∧ freed r.block
      let apart := fun (b : Block) (r : PathRec) => r.base + r.width ≤ b.1 ∨ b.1 + b.2 ≤ r.base
      ∃ t, exec cmd s = .next t
        ∧ (¬ release → s.smu.has c = false → t.ctx i = some y ∧ OtherContextsKept i s t ∧ t.smu.snapHolds = s.smu.snapHolds
          ∧ t.smu.snapWaits = s.smu.snapWaits)
        ∧ (release ∨ s.smu.has c = true →
          (y.state ≠ .clearing → ¬ mutes i → EndedByFrame i y cause s t)
          ∧ (y.state = .clearing → ¬ mutes i → t.ctx i = some
              (if y.side = .origin then { y with reversible := false }
                else if y.awaits = .answerRecall then { y with superseded := true } else y))
          ∧ (y.state = .clearing → y.announced = true ∨ y.side = .answer → mutes i → s.rif.count .call ≤ 4 →
            t.path.record i = none ∧ Entry.fresh (.release c (causeByte y.cause)) ∈ t.rif.queue
              ∧ t.ctx i = some { y with awaits := .release, reversible := if y.side = .origin then false else y.reversible })
          ∧ (s.smu.waits = [] → (∀ j, ¬ mutes j) →
            OtherContextsKept i s t
              ∧ (y.state ≠ .clearing → EndSaid i y cause s t)
              ∧ ∀ b, freed b → (∀ j r, s.path.record j = some r → r.block = b ∨ apart b r) →
                ∀ n, b.1 ≤ n → n < b.1 + b.2 → t.path.enable n = none)))
  ∧ (∀ (s : State) (x : Byte) (c : CallId) (k : Byte) (cmd : Instr),
      (cmd = .releaseTaken x c k ∧ s.takesFrame x (.release c k)) ∨ (cmd = .reclaimTaken x c ∧ s.takesFrame x (.reclaim c)) →
      SlotLaw s.smu → PathLaw s → (∀ j l z w, s.ctx j = some z → s.ctx l = some w → z.cid = w.cid → j = l) →
      let others := cmd = .releaseTaken x c k → x ≠ s.own
      ∃ t, exec cmd s = .next t ∧
        ∀ j z g e, s.ctx j = some z → s.smu.waitOf z.cid = some e → t.smu.holdOf z.cid = some g →
          let b := (g.base, g.width)
          let records := { z with path := some b, trimmed := decide (g.width < z.wanted) }
          (z.state = .claiming ∨ z.state = .waiting → SettlesOn j z b (decide (g.width < e.wanted)) t)
            ∧ (z.state = .awaitPath → SettlesOn j z b (decide (g.width < z.wanted)) t)
            ∧ (z.state = .clearing → z.reversible = false ∨ z.cause ≠ some .congested → t.ctx j = some records)
            ∧ (z.state = .clearing → z.reversible = true → z.cause = some .congested →
              (s.role = .desk ∨ (∀ l, l ≠ j → s.outsideClearing l = true →
                  others ∧ l < j ∧ ∃ w, s.ctx l = some w ∧ w.cid = c) →
                t.ctx j = some records ∧ (s.queued ⟨.release, .call z.cid⟩ = true → t.recallOpen ⟨.release, .call z.cid⟩))
              ∧ (∀ l w, s.role ≠ .desk → l ≠ j → s.ctx l = some w → w.state ≠ .clearing → w.cid ≠ c ∨ j < l →
                t.ctx j = some { records with reversible := false })))

/-- The placement rule: the widest width not above W that has a free aligned block, at its lowest base; none exactly where no
channel is free or W is 0. The grant scan: it grants the entries from the head of the list in order, passes over none, and ends
with no entry left or no channel free. -/
def Obligations.PlacementAndGrantScan : Prop :=
  (∀ (hs : List Hold) (w : Nat),
    (placement hs w = none ↔ freeCount hs = 0 ∨ w = 0)
    ∧ ∀ b k, placement hs w = some (b, k) →
      (k = 1 ∨ k = 2 ∨ k = 4) ∧ k ≤ w ∧ b % k = 0 ∧ b + k ≤ 24 ∧ blockFree hs b k = true
        ∧ (∀ b', b' < b → b' % k = 0 → blockFree hs b' k = false)
        ∧ (∀ k' b', (k' = 2 ∨ k' = 4) → k < k' → k' ≤ w → b' % k' = 0 → b' + k' ≤ 24 → blockFree hs b' k' = false))
  ∧ (∀ (mk : CallId → Block → Hold) (hs : List Hold) (ws : List WaitEntry),
      (∀ c b, (mk c b).cid = c ∧ (mk c b).base = b.1 ∧ (mk c b).width = b.2) → (∀ w ∈ ws, 1 ≤ w.wanted) →
      let r := scanFrom mk hs ws
      (r.waits = [] ∨ freeCount r.holds = 0)
        ∧ (∃ done, ws = done ++ r.waits ∧ r.grants.map NewHold.cid = done.map WaitEntry.cid)
        ∧ (∀ g ∈ r.grants, mk g.cid g.block ∈ r.holds) ∧ (∀ h ∈ hs, h ∈ r.holds))

/-! ### The directory -/

/-- Filling a line: a station that the unit's line lists keeps its place and takes the capability; any other leaves the line that
lists it, and joins the unit's line last where it holds fewer than four, or replaces a line of another unit. -/
def Obligations.FillLineSteps : Prop :=
  ∀ (v : Vector (Option DirLine) 64) (u : UnitNum) (a cap : Byte),
    (∀ ms, membersOf v u = some ms → (∃ m ∈ ms, m.addr = a) →
      (fillLine v u a cap)[lineIndex u] = some ⟨u, ms.map fun m => if m.addr = a then { m with cap := cap } else m⟩
        ∧ ∀ j, j ≠ lineIndex u → (fillLine v u a cap)[j] = v[j])
    ∧ ((∀ ms, membersOf v u = some ms → ¬ ∃ m ∈ ms, m.addr = a) →
      (∀ j, j ≠ lineIndex u → (fillLine v u a cap)[j] = withoutMember a v[j])
        ∧ (membersOf v u = none → (fillLine v u a cap)[lineIndex u] = some ⟨u, [⟨a, cap⟩]⟩)
        ∧ (∀ ms, membersOf v u = some ms →
          (fillLine v u a cap)[lineIndex u] = if ms.length < 4 then some ⟨u, ms ++ [⟨a, cap⟩]⟩ else some ⟨u, ms⟩))
    ∧ (∀ l, withoutMember a (some l) =
      if ∀ m ∈ l.members, m.addr = a then none else some { l with members := l.members.filter fun m => m.addr ≠ a })

/-- Another station's JOIN fills or clears its place in the directory and arms the snapshot stagger timer in JOINED; its OFFER fills
its line where the unit is at most 9999; its LEAVE takes it from its line. Contexts, copy and notices are untouched. The own LEAVE,
taken in LEAVING, takes the station to CONFIGURED; the own OFFER, taken, ends the pending OFFER; the own JOIN, taken in JOINED, acts
on the directory alone and arms no stagger timer, and taken in LEAVING with no context live it lets the LEAVE be queued. -/
def Obligations.JoinOfferLeaveKeepTheDirectory : Prop :=
  (∀ (s : State) (x : Byte),
    (∀ r u w, s.hears x (.join r u w) →
      ∃ t, exec (.joinTaken x r u w) s = .next t ∧ SameFixtures s t ∧ t.smu = s.smu ∧ t.ctxs = s.ctxs ∧ t.sport = s.sport
        ∧ t.udir = { s.udir with lines := if joinServes r u then fillLine s.udir.lines u x (recordedCap w)
                                          else removeStation x s.udir.lines }
        ∧ t.stc = { s.stc with stagger :=
            if s.stc.state = .joined ∧ s.stc.stagger = none ∧ s.kindQueued .snapshot = false then some (s.now + 2 * s.own.toNat)
            else s.stc.stagger })
    ∧ (∀ u w, s.hears x (.offer u w) →
      ∃ t, exec (.offerTaken x u w) s = .next t ∧ SameFixtures s t ∧ t.smu = s.smu ∧ t.ctxs = s.ctxs ∧ t.sport = s.sport
        ∧ t.stc = s.stc
        ∧ t.udir = { s.udir with lines := if u.toNat ≤ 9999 then fillLine s.udir.lines u x (recordedCap w) else s.udir.lines })
    ∧ (s.hears x .leave →
      ∃ t, exec (.leaveTaken x) s = .next t ∧ SameFixtures s t ∧ t.smu = s.smu ∧ t.ctxs = s.ctxs ∧ t.sport = s.sport
        ∧ t.stc = s.stc ∧ t.udir = { s.udir with lines := removeStation x s.udir.lines }))
  ∧ (∀ s : State,
      (s.echoes s.own .leave → s.stc.state = .leaving →
        ∃ t, exec (.leaveTaken s.own) s = .next t ∧ t.nowConfigured .leaving .left ∧ SameFixtures s t)
      ∧ (∀ u w, s.echoes s.own (.offer u w) →
        ∃ t, exec (.offerTaken s.own u w) s = .next t ∧ t.udir.offer = .none ∧ t.ctxs = s.ctxs ∧ t.smu = s.smu
          ∧ t.udir.lines = if u.toNat ≤ 9999 then fillLine s.udir.lines u s.own (recordedCap w) else s.udir.lines)
      ∧ (∀ r u w, s.echoes s.own (.join r u w) → QueueLaw s →
        let echoed := s.rif.queue.eraseP fun e => e.carriage = .carrying
        ∃ t, exec (.joinTaken s.own r u w) s = .next t ∧ SameFixtures s t ∧ t.smu = s.smu ∧ t.ctxs = s.ctxs ∧ t.sport = s.sport
          ∧ t.stc = s.stc
          ∧ t.udir = { s.udir with lines := if joinServes r u then fillLine s.udir.lines u s.own (recordedCap w)
                                            else removeStation s.own s.udir.lines }
          ∧ QueueOrLeave echoed s t
          ∧ (s.stc.state = .leaving → s.liveCount = 0 → t.rif.queue = echoed ++ [Entry.fresh .leave])))

/-- A SEEK opens the record for its unit for 40 ms: the own SEEK a QUEUED record, another station's a PENDING or QUEUED one; an open
record keeps its window, and a JOINED UNIT or DESK station owes an OFFER for its own unit. A seek window's expiry removes the record
and gives each of its contexts the result from the line: a SEEKING one is RINGING with its RING queued, or ends with cause
UNKNOWN_UNIT; a RINGING one that forwards queues its forward RING, or clears reversibly with cause NO_ANSWER and its RELEASE queued.
The clock's move to the expiry is the model's choice (log 1). -/
def Obligations.SeeksOpenAndResolve : Prop :=
  (∀ (s : State) (x : Byte) (u : UnitNum), u.toNat ≤ 9999 →
    (s.hears x (.seek u) →
      ∃ t, exec (.seekTaken x u) s = .next t ∧ SameFixtures s t ∧ t.smu = s.smu ∧ t.ctxs = s.ctxs ∧ t.sport = s.sport
        ∧ t.udir.lines = s.udir.lines
        ∧ (∀ r, s.udir.seekOf u = some r → r.state = .pending ∨ r.state = .queued →
          t.udir.seekOf u = some { r with state := .opened (s.now + 40) })
        ∧ (∀ r e, s.udir.seekOf u = some r → r.state = .opened e → t.udir.seekOf u = some r)
        ∧ (s.stc.state = .joined → s.role ≠ .entry → s.sport.config.unit = u → t.udir.offer ≠ .none)
        ∧ (s.stc.state ≠ .joined ∨ s.role = .entry ∨ s.sport.config.unit ≠ u → t.udir.offer = s.udir.offer))
    ∧ (s.echoes x (.seek u) → ∀ r, s.udir.seekOf u = some r → r.state = .queued →
      ∃ t, exec (.seekTaken x u) s = .next t ∧ t.udir.seekOf u = some { r with state := .opened (s.now + 40) }
        ∧ t.ctxs = s.ctxs ∧ t.smu = s.smu ∧ t.udir.lines = s.udir.lines))
  ∧ (∀ (s : State) (u : UnitNum) (r : Seek) (e : Nat) (i : Ref) (x : Ctx),
      s.udir.seekOf u = some r → r.state = .opened e → r.refs = [i] → s.ctx i = some x → x.state = .seeking →
      ∃ t, exec (.seekWindowExpiry u) s = .next t ∧ t.now = max s.now e ∧ (∀ y ∈ t.udir.seeks, y.unit ≠ u)
        ∧ OtherContextsKept i s t ∧ t.smu = s.smu ∧ t.udir.lines = s.udir.lines
        ∧ (∀ ms, s.lookup u = some ms → s.accepts (s.ringFrame x 0 ms) = true →
          t.ctx i = some { x with state := .ringing, members := ms }
            ∧ t.rif.queue = s.rif.queue ++ [Entry.fresh (s.ringFrame x 0 ms)]
            ∧ Posted (.callState i x.cid (.ringing 0 ms.length false)) t)
        ∧ (s.lookup u = none → x.endPosted = false → x.cause = none →
          t.ctx i = none ∧ t.rif.queue = s.rif.queue ∧ Posted (.callEnded i x.cid (some .unknownUnit)) t))
  ∧ (∀ (s : State) (u : UnitNum) (r : Seek) (e : Nat), s.udir.seekOf u = some r → r.state = .opened e →
      r.refs.Nodup → s.stc.state.sends = true → s.rif.count .call + r.refs.length ≤ 8 →
      ∃ t, exec (.seekWindowExpiry u) s = .next t ∧ t.now = max s.now e ∧ (∀ y ∈ t.udir.seeks, y.unit ≠ u) ∧ t.smu = s.smu
        ∧ t.udir.lines = s.udir.lines ∧ (∀ j : Ref, j ∉ r.refs → t.ctx j = s.ctx j)
        ∧ ∀ i x, i ∈ r.refs → s.ctx i = some x →
          (x.state = .seeking →
            (∀ ms, s.lookup u = some ms →
              t.ctx i = some { x with state := .ringing, members := ms } ∧ Entry.fresh (s.ringFrame x 0 ms) ∈ t.rif.queue)
            ∧ (s.lookup u = none → t.ctx i = none ∧ (s.sport.notices = [] → EndSaid i x .unknownUnit s t)))
          ∧ (x.state = .ringing → x.forward = .seeking →
            (∀ ms, s.lookup u = some ms →
              t.ctx i = some { x with forward := .queued } ∧ Entry.fresh (s.ringFrame x 1 ms) ∈ t.rif.queue)
            ∧ (s.lookup u = none → x.announced = true → x.cause = none →
              (∃ z, t.ctx i = some z ∧ Clearing x .noAnswer true z ∧ z.awaits = .release)
                ∧ Entry.fresh (.release x.cid 3#8) ∈ t.rif.queue)))

/-! ### Calls: frames -/

/-- A RING that lists this station opens the lowest free context in ALERTING with the RING's fields, the alert limit running, the
ringer sounding and an INCOMING notice, where the role accepts it. Its members are the addresses that the RING carries, each once; that
they stand in the order of their first places is the model's choice (log 38, DESIGN CHOICE). -/
def Obligations.RingOpensAnAlertingContext : Prop :=
  (distinctMembers [] = [] ∧ ∀ (ms : List Byte) (m : Byte),
    distinctMembers (ms ++ [m]) = if m ∈ ms then distinctMembers ms else distinctMembers ms ++ [m])
  ∧ (∀ (s : State) (x : Byte) (c : CallId) (u : UnitNum) (w r p : Byte) (ms : List Byte) (i : Ref),
    s.hears x (.ring c u w r p ms) → s.stc.state = .joined → c.orig = x → p = 0#8 ∨ p = 1#8 → s.findCtx .answer c = none →
    s.own ∈ ms → s.liveCount < s.role.limit → s.freeRef = some i →
    s.role = .desk ∨ (s.role = .unit ∧ (s.sport.dnd = false ∨ Role.ofCode r = some .desk) ∧ s.activeCount = 0) →
    let wanted := min (normWidth w) s.sport.config.capability.toNat
    ∃ t, exec (.ringTaken x c u w r p ms) s = .next t ∧ SameFixtures s t ∧ SameStation s t ∧ OtherContextsKept i s t
      ∧ t.ctx i = some
        { side := .answer, cid := c, state := .alerting, peerUnit := u, members := distinctMembers ms, origAddr := x, origRole := r
          wanted := wanted, ringPhase := p.toNat, alert := some (s.now + 90000), alertedAt := s.eventNo + 1 }
      ∧ t.oku.alerting[i] = true ∧ t.oku.ringer ≠ .silent
      ∧ (s.oku.ringer = .silent → t.oku.ringer = .cadence true (s.now + 1000))
      ∧ Posted (.incoming i c x r u p.toNat wanted) t ∧ t.rif = s.rif ∧ t.smu = s.smu ∧ t.udir = s.udir ∧ t.path = s.path)

/-- A RING that lists this station, for a call with no live ANSWER-side context, is refused by the first row of its role: a REFUSE is
queued and nothing else changes. A RING for a call with such a context refuses nothing. In ALERTING and ANSWERING one that lists the
station brings its members and phase, the alert limit running on, and one that does not ends the context, FORWARDED for a higher phase
and ANSWERED_ELSEWHERE otherwise. From AWAIT_PATH on, one of no higher phase that does not list the station ends it with
ANSWERED_ELSEWHERE: its path is cut at once, the hold stays, and no RELEASE is queued; any other does nothing. In CLEARING one that does
not list it marks a context that awaits its ANSWER's recall superseded, also after its own ANSWER was taken (log 39, DESIGN CHOICE). The
members are the addresses that the RING carries, each once, in the order of their first places (log 38, DESIGN CHOICE). That a context
which waits in CLEARING for its ANSWER's recall posts its CALL_ENDED at its ending (log 14, deduced), and that a CALL_ENDED comes before
the PATH notice of a new port owner, which shows at 15 waiting notices (log 15, DESIGN CHOICE), is the model's reading. -/
def Obligations.RingIsRefusedByTheRole : Prop :=
  (∀ (s : State) (x : Byte) (c : CallId) (u : UnitNum) (w r p : Byte) (ms : List Byte),
    s.hears x (.ring c u w r p ms) → s.own ∈ ms →
    let refuses := fun (k : Byte) =>
      exec (.ringTaken x c u w r p ms) s
        = .next { s with eventNo := s.eventNo + 1, rif := { s.rif with queue := s.queueWith (.refuse c k) } }
    (s.stc.state = .leaving → s.noLeaveDue → refuses 3#8)
      ∧ (s.stc.state = .joined → c.orig = x → p = 0#8 ∨ p = 1#8 → s.findCtx .answer c = none →
        (s.role = .entry → refuses 4#8)
        ∧ (s.role = .unit → s.sport.dnd = true → Role.ofCode r ≠ some .desk → refuses 1#8)
        ∧ (s.role = .unit → s.sport.dnd = false ∨ Role.ofCode r = some .desk → s.activeCount ≠ 0 → refuses 2#8)
        ∧ (s.role = .unit → s.sport.dnd = false ∨ Role.ofCode r = some .desk → s.activeCount = 0 →
          s.liveCount = s.role.limit → refuses 3#8)
        ∧ (s.role = .desk → s.liveCount = s.role.limit → refuses 3#8)))
  ∧ (∀ (s : State) (x : Byte) (c : CallId) (u : UnitNum) (w r p : Byte) (ms : List Byte) (i : Ref) (y : Ctx),
      s.hears x (.ring c u w r p ms) → s.stc.state = .joined ∨ s.own ∉ ms → c.orig = x → p = 0#8 ∨ p = 1#8 →
      s.findCtx .answer c = some i → s.ctx i = some y → y.side.has y.state = true →
      let base := { s with eventNo := s.eventNo + 1 }
      let becomes := fun (z : Ctx) => exec (.ringTaken x c u w r p ms) s = .next (base.setCtx i (some z))
      let higher := y.ringPhase < p.toNat
      let ends := fun (t : State) (k : Cause) => exec (.ringTaken x c u w r p ms) s = .next t ∧ OtherContextsKept i s t
        ∧ t.smu = s.smu ∧ QueueOrLeave s.rif.queue s t ∧ EndSaid i y k s t
      (y.state = .clearing →
        (s.own ∉ ms → y.awaits = .answerRecall → becomes { y with superseded := true })
        ∧ (s.own ∈ ms ∨ y.awaits ≠ .answerRecall → becomes y))
      ∧ (y.state = .alerting ∨ y.state = .answering →
        (s.own ∈ ms → becomes { y with members := distinctMembers ms, ringPhase := p.toNat })
        ∧ (s.own ∉ ms → let k := if higher then Cause.forwarded else .answeredElsewhere
          ∃ t, ends t k ∧ SteppedBack i y k s t))
      ∧ (y.state ∈ [CtxState.awaitPath, .settling, .talk] →
        (s.own ∈ ms ∨ higher → becomes y)
        ∧ (s.own ∉ ms → ¬ higher →
          ∃ t, ends t .answeredElsewhere ∧ t.ctx i = none ∧ t.path.record i = none ∧ t.path.owner ≠ some i
            ∧ ∀ q, s.path.record i = some q → s.path.lit i = true → s.path.ApartFrom i q →
              ∀ n, q.base ≤ n → n < q.base + q.width → t.path.enable n = none)))

/-- The own RING, taken. In RINGING the direct one announces the call and starts the ring timer for the record's ring time, and the
forward one brings its members and phase 1, empties the refused set and starts the ring timer again; the members stand each once, in the
order of their first places (log 38, DESIGN CHOICE). The forward one taken with an answer accepted queues the narrowing RING to the
answerer alone (log 9, deduced), with the context's narrowed width (log 49, DESIGN CHOICE), and on FULL clears the call with
SEND_FAILED; it sets ring phase 1 there and in CLEARING, and leaves the members and the refused set (log 51, DESIGN CHOICE) and in
CLEARING the forward (log 47). The narrowing one sets forward NONE and does nothing
else. In CLEARING a RING announces the call, and queues the RELEASE of a clearing that waited for its fate (log 9); while the path still
mutes the RELEASE waits for that (log 37, DESIGN CHOICE). A direct one taken in any other state announces the call (log 32, deduced). A
REFUSE of a current member joins the refused set; when every member has refused the call ends, with cause DND where every reason is DND
and BUSY otherwise; any other REFUSE is ignored. -/
def Obligations.OwnRingAndRefusals : Prop :=
  (∀ (s : State) (c : CallId) (u : UnitNum) (w r p : Byte) (ms : List Byte) (i : Ref) (y : Ctx),
    s.echoes s.own (.ring c u w r p ms) → s.stc.state = .joined ∨ s.own ∉ ms → s.findCtx .origin c = some i → s.ctx i = some y →
    let base := s.onEcho ⟨.ring, .call c⟩
    let ring := some (s.now + 1000 * s.sport.config.ringTime)
    let becomes := fun (z : Ctx) => exec (.ringTaken s.own c u w r p ms) s = .next (base.setCtx i (some z))
    let queues := fun (z : Ctx) (f : Frame) => exec (.ringTaken s.own c u w r p ms) s
      = .next { base.setCtx i (some z) with rif := { base.rif with queue := base.rif.queue ++ [Entry.fresh f] } }
    (y.state = .ringing → p = 0#8 → becomes { y with announced := true, ring := ring })
    ∧ (y.state = .ringing → p = 1#8 → y.forward = .queued →
      exec (.ringTaken s.own c u w r p ms) s = .next
        ((base.setCtx i (some
            { y with members := distinctMembers ms, refused := [], ringPhase := 1, forward := .none, ring := ring })).post
          (.callState i c (.ringing 1 (distinctMembers ms).length true))))
    ∧ (y.state ≠ .ringing → y.state ≠ .clearing → p = 1#8 → y.forward = .queued →
      let narrowing := Frame.ring c y.peerUnit (byte y.wanted) s.role.code 1#8 [y.answerer.getD 0#8]
      (base.accepts narrowing = true → queues { y with ringPhase := 1, forward := .narrowing } narrowing)
      ∧ (base.accepts narrowing = false → y.cause = none → y.announced = true →
        (y.state = .claiming ∨ y.state = .waiting →
          ∃ t, exec (.ringTaken s.own c u w r p ms) s = .next t ∧ t.ctx i = none ∧ OtherContextsKept i s t
            ∧ EndSaid i y .sendFailed s t ∧ Posted (.sendFailed i c .release) t ∧ t.smu = s.smu)
        ∧ (y.state = .settling ∨ y.state = .talk → s.path.lit i = true →
          ∃ t z, exec (.ringTaken s.own c u w r p ms) s = .next t ∧ t.ctx i = some z ∧ Clearing y .sendFailed false z
            ∧ z.awaits = .pathOff ∧ OtherContextsKept i s t ∧ t.rif.queue = base.rif.queue ∧ t.smu = s.smu)))
    ∧ (y.forward = .narrowing → y.state ≠ .ringing ∨ p ≠ 0#8 → becomes { y with forward := .none })
    ∧ (y.forward ≠ .narrowing → y.state = .clearing →
      let phase := if p = 1#8 then 1 else y.ringPhase
      (y.awaits ≠ .ringFate → becomes { y with announced := true, ringPhase := phase })
      ∧ (y.awaits = .ringFate → base.accepts (.release c (causeByte y.cause)) = true →
        queues { y with announced := true, ringPhase := phase, awaits := .release } (.release c (causeByte y.cause))))
    ∧ (y.forward ≠ .narrowing → y.state ≠ .ringing → y.state ≠ .clearing → p = 0#8 → becomes { y with announced := true })
    ∧ (y.forward ≠ .narrowing → y.state ≠ .clearing → p ≠ 0#8 → y.forward ≠ .queued ∨ p ≠ 1#8 → becomes y))
  ∧ (∀ (s : State) (x : Byte) (c : CallId) (k : Byte) (i : Ref) (y : Ctx),
      s.hears x (.refuse c k) → s.findCtx .origin c = some i → s.ctx i = some y →
      let counts := y.state = .ringing ∧ y.forward = .none ∧ x ∈ y.members ∧ ∀ q ∈ y.refused, q.1 ≠ x
      let refused := y.refused ++ [(x, k)]
      let every := ∀ m ∈ y.members, ∃ q ∈ refused, q.1 = m
      ∃ t, exec (.refuseTaken x c k) s = .next t
        ∧ (¬ counts → t = { s with eventNo := s.eventNo + 1 })
        ∧ (counts → ¬ every → t = { s with eventNo := s.eventNo + 1 }.setCtx i (some { y with refused := refused }))
        ∧ (counts → every → t.ctx i = none ∧ OtherContextsKept i s t ∧ QueueOrLeave s.rif.queue s t ∧ t.smu = s.smu
          ∧ SameFixtures s t
          ∧ (y.endPosted = false → y.cause = none →
            Posted (.callEnded i c (some (if ∀ q ∈ refused, q.2 = 1#8 then .dnd else .busy))) t)))

/-- The first ANSWER of a current member is accepted in RINGING: the answerer is recorded, the wanted width narrowed, a queued forward
RING put under recall, a forward seek left, its record removed and its queued SEEK put under recall where no other context is in it,
and the CLAIM for the placement, or the WAIT where no channel is free, is queued. In a reversible clearing with cause NO_ANSWER it is
recorded too, and the recall of the RELEASE is asked, or the clearing is final where the role limit bars the reversal. Any other
ANSWER is ignored. A station in LEAVING acts alike. -/
def Obligations.AnswerIsAcceptedOnce : Prop :=
  ∀ (s : State) (x : Byte) (c : CallId) (cap : Byte) (i : Ref) (y : Ctx),
    s.hears x (.answer c cap) → s.findCtx .origin c = some i → s.findCtx .answer c = none → s.ctx i = some y →
    let wanted := min y.wanted (normWidth cap)
    let base := { s with eventNo := s.eventNo + 1 }
    let reversing := y.state = .clearing ∧ y.reversible = true ∧ y.cause = some .noAnswer
    let allowed := s.role = .desk ∨ ∀ j, j ≠ i → s.outsideClearing j = false
    (x ∉ y.members ∨ y.answerer ≠ none ∨ (y.state ≠ .ringing ∧ ¬ reversing) → exec (.answerTaken x c cap) s = .next base)
      ∧ (x ∈ y.members → y.answerer = none → y.state = .ringing → s.smu.has c = false →
          (∀ q r, q ∈ s.udir.seeks → r ∈ s.udir.seeks → i ∈ q.refs → i ∈ r.refs → q = r) → (s.udir.seeks.map Seek.unit).Nodup →
        let claims := { y with
          state := .claiming, answerer := some x, wanted := wanted, ring := none
          forward := if y.forward = .seeking then .none else y.forward }
        ∃ t, exec (.answerTaken x c cap) s = .next t ∧ OtherContextsKept i s t ∧ t.smu = s.smu
          ∧ t.udir = { s.udir with seeks := t.udir.seeks }
          ∧ (∀ q ∈ t.udir.seeks, i ∉ q.refs)
          ∧ (∀ r ∈ s.udir.seeks, i ∉ r.refs → r ∈ t.udir.seeks)
          ∧ (∀ r ∈ s.udir.seeks, i ∈ r.refs →
            let rest := r.refs.filter fun j => j ≠ i
            (rest ≠ [] → { r with refs := rest } ∈ t.udir.seeks)
              ∧ (rest = [] → (∀ q ∈ t.udir.seeks, q.unit ≠ r.unit)
                ∧ (r.state = .queued → s.queued ⟨.seek, .unit r.unit⟩ = true → t.recallOpen ⟨.seek, .unit r.unit⟩)))
          ∧ (s.sport.notices.length < 16 → .callState i c (.claiming x wanted) ∈ t.sport.notices)
          ∧ (y.forward = .queued → s.queued ⟨.ring, .call c⟩ = true → t.recallOpen ⟨.ring, .call c⟩)
          ∧ (∀ b, placement s.smu.holds wanted = some b → s.accepts (.claim c (byte b.1) (byte b.2)) = true →
            t.ctx i = some claims ∧ t.rif.queue = s.rif.queue ++ [Entry.fresh (.claim c (byte b.1) (byte b.2))])
          ∧ (placement s.smu.holds wanted = none → s.accepts (.wait c (byte wanted)) = true →
            t.ctx i = some claims ∧ t.rif.queue = s.rif.queue ++ [Entry.fresh (.wait c (byte wanted))]))
      ∧ (x ∈ y.members → y.answerer = none → reversing →
        (¬ allowed → exec (.answerTaken x c cap) s
          = .next (base.setCtx i (some { y with answerer := some x, wanted := wanted, reversible := false })))
        ∧ (allowed → ∃ t, exec (.answerTaken x c cap) s = .next t
          ∧ t.ctx i = some { y with answerer := some x, wanted := wanted } ∧ OtherContextsKept i s t
          ∧ (s.queued ⟨.release, .call c⟩ = true → t.recallOpen ⟨.release, .call c⟩)
          ∧ t.rif.queue = s.rif.queue ∧ t.smu = s.smu ∧ t.udir = s.udir ∧ t.path = s.path ∧ t.oku = s.oku ∧ t.sport = s.sport))

/-- The own ANSWER, taken in ANSWERING: AWAIT_PATH with the path wait at 75 s where the copy has nothing for the call, and the end with
cause ANSWERED_ELSEWHERE where it has. Taken in CLEARING it queues the RELEASE, unless the context is superseded or the copy has the
call. Another member's ANSWER, and a CLAIM or WAIT for the call, end a context in ALERTING or ANSWERING with cause ANSWERED_ELSEWHERE,
from ANSWERING by way of the recall of its ANSWER, and mark one that awaits that recall superseded, also after its own ANSWER was taken
(log 39, DESIGN CHOICE). That a context which waits for that recall posts its CALL_ENDED at its ending is the model's reading (log 14,
deduced). An ANSWER of a station that is no member is ignored, as is, in AWAIT_PATH, a failed CLAIM or a WAIT not granted. -/
def Obligations.AnswersAtTheAnsweringSide : Prop :=
  (∀ (s : State) (c : CallId) (cap : Byte) (i : Ref) (y : Ctx),
    s.echoes s.own (.answer c cap) → s.findCtx .origin c = none → s.findCtx .answer c = some i → s.ctx i = some y →
    (y.state = .answering → ∃ t, exec (.answerTaken s.own c cap) s = .next t ∧ OtherContextsKept i s t ∧ t.smu = s.smu
      ∧ (s.smu.has c = false →
        t.ctx i = some { y with state := .awaitPath, pathWait := some (s.now + 75000) } ∧ Posted (.callState i c .awaitPath) t)
      ∧ (s.smu.has c = true → t.ctx i = none
        ∧ (y.endPosted = false → y.cause = none → Posted (.callEnded i c (some .answeredElsewhere)) t)))
    ∧ (y.state = .clearing →
      let base := s.onEcho ⟨.answer, .call c⟩
      let sends := y.awaits = .answerRecall ∧ y.superseded = false ∧ s.smu.has c = false
      let f := Frame.release c (causeByte y.cause)
      (¬ sends → exec (.answerTaken s.own c cap) s = .next base)
      ∧ (sends → base.accepts f = true → exec (.answerTaken s.own c cap) s = .next
          { base.setCtx i (some { y with awaits := .release }) with
            rif := { base.rif with queue := base.rif.queue ++ [Entry.fresh f] } })))
  ∧ (∀ (s : State) (x : Byte) (c : CallId) (cap : Byte) (i : Ref) (y : Ctx),
      s.hears x (.answer c cap) → s.findCtx .origin c = none → s.findCtx .answer c = some i → s.ctx i = some y →
      let base := { s with eventNo := s.eventNo + 1 }
      let steps := y.state = .alerting ∨ y.state = .answering
      let marks := y.state = .clearing ∧ y.awaits = .answerRecall
      (x ∉ y.members ∨ (¬ steps ∧ ¬ marks) → exec (.answerTaken x c cap) s = .next base)
        ∧ (x ∈ y.members → marks → exec (.answerTaken x c cap) s = .next (base.setCtx i (some { y with superseded := true })))
        ∧ (x ∈ y.members → steps → ∃ t, exec (.answerTaken x c cap) s = .next t ∧ SteppedBack i y .answeredElsewhere s t
          ∧ EndSaid i y .answeredElsewhere s t ∧ OtherContextsKept i s t ∧ QueueOrLeave s.rif.queue s t ∧ t.smu = s.smu))
  ∧ (∀ (s : State) (x : Byte) (c : CallId) (b w : Byte) (cmd : Instr) (i : Ref) (y : Ctx),
      (cmd = .claimTaken x c b w ∧ s.hears x (.claim c b w)) ∨ (cmd = .waitTaken x c w ∧ s.hears x (.wait c w)) →
      s.ctx i = some y → y.side = .answer → y.cid = c → (∀ j z, s.ctx j = some z → j ≠ i → z.cid ≠ c) →
      ∃ t, exec cmd s = .next t
        ∧ (y.state = .alerting ∨ y.state = .answering →
          SteppedBack i y .answeredElsewhere s t ∧ EndSaid i y .answeredElsewhere s t)
        ∧ (y.state = .clearing → y.awaits = .answerRecall →
          ∃ z, t.ctx i = some z ∧ z.superseded = true ∧ z.awaits = .answerRecall ∧ z.state = .clearing ∧ z.cause = y.cause)
        ∧ (y.state = .awaitPath → t.smu.holdOf c = none → t.ctx i = some y))

/-- An OPEN at the panel that originated the call: answered ENERGIZED with a full strike pulse where the call is in TALK with the
sender and the strike fault status is CLEAR, FAULT where it is SET, NOT_IN_TALK otherwise, with a DOOR notice; elsewhere ignored. A
station in LEAVING, no LEAVE falling due, acts alike. -/
def Obligations.OpenIsAnsweredAtThePanel : Prop :=
  ∀ (s : State) (x : Byte) (c : CallId), s.hears x (.open_ c) → s.noLeaveDue →
    let talks := ∃ i y, s.findCtx .origin c = some i ∧ s.ctx i = some y ∧ y.state = .talk ∧ y.answerer = some x
    (s.role ≠ .entry ∨ c.orig ≠ s.own → exec (.openTaken x c) s = .next { s with eventNo := s.eventNo + 1 })
      ∧ (s.role = .entry → c.orig = s.own →
        ∃ t, exec (.openTaken x c) s = .next t ∧ t.ctxs = s.ctxs ∧ t.smu = s.smu ∧ t.udir = s.udir ∧ t.stc = s.stc
          ∧ t.path = s.path ∧ SameFixtures s t
          ∧ (talks → s.oku.strikeFault.sticky = false →
            t.oku = { s.oku with strike := some (s.now + 1000 * s.sport.config.strikePulse) }
              ∧ t.rif.queue = s.queueWith (.opened c 1#8) ∧ Posted (.door (s.findCtx .origin c) c .energized x) t)
          ∧ (talks → s.oku.strikeFault.sticky = true →
            t.oku = s.oku ∧ t.rif.queue = s.queueWith (.opened c 2#8) ∧ Posted (.door (s.findCtx .origin c) c .fault x) t)
          ∧ (¬ talks →
            t.oku = s.oku ∧ t.rif.queue = s.queueWith (.opened c 3#8) ∧ Posted (.door (s.findCtx .origin c) c .notInTalk x) t))

/-- An OPENED of the call's originator with a known result ends the pending door request with a DOOR notice; any other is ignored, in
JOINED and LEAVING alike, no LEAVE falling due. The reply wait's expiry ends it with NO_REPLY; the clock's move to that expiry is the
model's choice (log 1). -/
def Obligations.DoorRequestEndsOnce : Prop :=
  ∀ s : State,
    (∀ x c k i r, s.hears x (.opened c k) → s.findCtx .answer c = some i → s.oku.door[i] ≠ none →
      x = c.orig → (k, r) ∈ [(1#8, DoorResult.energized), (2#8, .fault), (3#8, .notInTalk)] →
      exec (.openedTaken x c k) s = .next (({ s with eventNo := s.eventNo + 1 }.setDoor i none).post (.door (some i) c r 0#8)))
    ∧ (∀ x c k, s.hears x (.opened c k) → s.noLeaveDue →
      x ≠ c.orig ∨ k ∉ [1#8, 2#8, 3#8] ∨ (∀ i, s.findCtx .answer c = some i → s.oku.door[i] = none) →
      exec (.openedTaken x c k) s = .next { s with eventNo := s.eventNo + 1 })
    ∧ (∀ (i : Ref) (y : Ctx) (e : Nat), s.oku.door[i] = some e → s.ctx i = some y →
      exec (.replyWaitExpiry i) s = .next (((s.at e).setDoor i none).post (.door (some i) y.cid .noReply 0#8)))

/-! ### Calls: timers -/

/-- The ring timer's expiry: with no forward left the call goes into a reversible clearing with cause NO_ANSWER and its RELEASE is
queued; else it forwards to the desk line, or seeks unit 0. The clock's move to the expiry is the model's choice
(log 1). -/
def Obligations.RingTimerExpiryForwardsOrClears : Prop :=
  ∀ (s : State) (i : Ref) (y : Ctx) (e : Nat), s.ctx i = some y → y.ring = some e → y.state = .ringing → y.announced = true →
    let last := y.ringPhase = 1 ∨ s.sport.config.forward = false ∨ y.peerUnit = 0#16 ∨ s.role = .desk
    ∃ t, exec (.ringTimerExpiry i) s = .next t ∧ t.now = max s.now e ∧ OtherContextsKept i s t ∧ t.smu = s.smu
      ∧ (last → y.cause = none → s.accepts (.release y.cid 3#8) = true →
        (∃ z, t.ctx i = some z ∧ Clearing y .noAnswer true z ∧ z.awaits = .release)
          ∧ t.rif.queue = s.rif.queue ++ [Entry.fresh (.release y.cid 3#8)] ∧ t.sport = s.sport)
      ∧ (¬ last → ∀ ms, s.lookup 0#16 = some ms → s.accepts (s.ringFrame y 1 ms) = true →
        t.ctx i = some { y with ring := none, forward := .queued }
          ∧ t.rif.queue = s.rif.queue ++ [Entry.fresh (s.ringFrame y 1 ms)] ∧ t.sport = s.sport)
      ∧ (¬ last → s.lookup 0#16 = none →
        t.ctx i = some { y with ring := none, forward := .seeking } ∧ (∃ r ∈ t.udir.seeks, r.unit = 0#16 ∧ i ∈ r.refs)
          ∧ t.sport = s.sport)

/-- The wait timer's expiry: a reversible clearing with cause CONGESTED. The path wait's: a final one with cause PATH_TIMEOUT. Each
queues its RELEASE at once. The alert limit's expiry ends the context with cause NO_ANSWER: no frame, freed at once with its
CALL_ENDED notice, and OKU told it no longer alerts. The clock's move to each expiry is the model's choice (log 1). -/
def Obligations.CallTimersEndTheCall : Prop :=
  (∀ (s : State) (i : Ref) (y : Ctx) (e : Nat), s.ctx i = some y → y.cause = none →
    (y.wait = some e → y.state = .waiting → y.announced = true → s.accepts (.release y.cid 7#8) = true →
      ∃ t z, exec (.waitTimerExpiry i) s = .next t ∧ t.now = max s.now e ∧ t.ctx i = some z ∧ Clearing y .congested true z
        ∧ z.awaits = .release ∧ OtherContextsKept i s t ∧ t.rif.queue = s.rif.queue ++ [Entry.fresh (.release y.cid 7#8)]
        ∧ t.sport = s.sport ∧ t.smu = s.smu)
    ∧ (y.pathWait = some e → y.state = .awaitPath → y.side = .answer → y.endPosted = false →
        s.accepts (.release y.cid 8#8) = true →
      ∃ t z, exec (.pathWaitExpiry i) s = .next t ∧ t.now = max s.now e ∧ t.ctx i = some z ∧ Clearing y .pathTimeout false z
        ∧ z.awaits = .release ∧ OtherContextsKept i s t ∧ t.rif.queue = s.rif.queue ++ [Entry.fresh (.release y.cid 8#8)]
        ∧ Posted (.callEnded i y.cid (some .pathTimeout)) t ∧ t.smu = s.smu))
  ∧ (∀ (s : State) (i : Ref) (y : Ctx) (e : Nat), s.ctx i = some y → y.alert = some e → y.state = .alerting → y.cause = none →
      y.endPosted = false →
      ∃ t, exec (.alertLimitExpiry i) s = .next t ∧ t.now = max s.now e ∧ t.ctx i = none ∧ OtherContextsKept i s t
        ∧ t.rif.queue = s.rif.queue ∧ t.oku.alerting[i] = false ∧ (∀ j : Ref, j ≠ i → t.oku.alerting[j] = s.oku.alerting[j])
        ∧ Posted (.callEnded i y.cid (some .noAnswer)) t ∧ t.smu = s.smu)

/-- The talk timer's expiry: a final clearing with cause TIME_LIMIT; the path goes to MUTE with its enables in SILENCE for 10 ms,
and no RELEASE is queued before the transmitters are off. A loss timer's expiry clears a context in TALK with CARRIER_LOST and
mutes its path in the same way; the mute timer's expiry turns the block's enables off, removes the record and queues the RELEASE
that waited for it. The clock's move to each expiry is the model's choice (log 1). -/
def Obligations.TalkEndsMuteThePath : Prop :=
  (∀ (s : State) (i : Ref) (y : Ctx) (r : PathRec) (e : Nat), s.ctx i = some y → y.talk = some e → y.state = .talk →
    y.announced = true → y.cause = none → y.endPosted = false → s.path.record i = some r → s.path.lit i = true →
    ∃ t z r', exec (.talkTimerExpiry i) s = .next t ∧ t.now = max s.now e ∧ t.ctx i = some z ∧ Clearing y .timeLimit false z
      ∧ z.awaits = .pathOff ∧ OtherContextsKept i s t ∧ t.rif.queue = s.rif.queue ∧ t.smu = s.smu
      ∧ t.path.record i = some r' ∧ r'.stage = .mute ∧ r'.muteTimer = some (max s.now e + 10) ∧ r'.block = r.block
      ∧ r'.settleTimer = none ∧ r'.unmuteTimer = none ∧ r'.loss = noLoss ∧ t.path.owner ≠ some i
      ∧ (r.base + r.width ≤ 24 → s.path.ApartFrom i r →
        ∀ n, r.base ≤ n → n < r.base + r.width → t.path.enable n = some ⟨i, r.sendHalf, .silence⟩)
      ∧ (s.sport.notices.length < 16 → .callEnded i y.cid (some .timeLimit) ∈ t.sport.notices))
  ∧ (∀ (s : State) (i : Ref) (r : PathRec) (y : Ctx) (e : Nat), s.path.record i = some r → s.ctx i = some y → s.path.lit i = true →
      (∀ n : Channel, r.lossOf n.val = some e → y.state = .talk → y.announced = true ∨ y.side = .answer → y.cause = none →
        ∃ t z r', exec (.carrierLossTimerExpiry i n) s = .next t ∧ t.now = max s.now e ∧ t.ctx i = some z
          ∧ Clearing y .carrierLost false z ∧ z.awaits = .pathOff ∧ t.path.record i = some r' ∧ r'.stage = .mute
          ∧ r'.loss = noLoss ∧ r'.muteTimer = some (max s.now e + 10) ∧ OtherContextsKept i s t ∧ t.rif.queue = s.rif.queue
          ∧ t.smu = s.smu ∧ r'.block = r.block ∧ t.path.owner ≠ some i
          ∧ (r.base + r.width ≤ 24 → s.path.ApartFrom i r →
            ∀ n, r.base ≤ n → n < r.base + r.width → t.path.enable n = some ⟨i, r.sendHalf, .silence⟩))
      ∧ (r.muteTimer = some e → r.stage = .mute → y.state = .clearing → y.awaits = .pathOff → y.announced = true ∨ y.side = .answer →
          s.accepts (.release y.cid (causeByte y.cause)) = true → s.path.ApartFrom i r →
        ∃ t, exec (.muteTimerExpiry i) s = .next t ∧ t.now = max s.now e ∧ t.path.record i = none
          ∧ (∀ n, r.base ≤ n → n < r.base + r.width → t.path.enable n = none)
          ∧ t.ctx i = some { y with awaits := .release } ∧ OtherContextsKept i s t
          ∧ (∀ j, j ≠ i → t.path.record j = s.path.record j)
          ∧ t.rif.queue = s.rif.queue ++ [Entry.fresh (.release y.cid (causeByte y.cause))] ∧ t.smu = s.smu
          ∧ (s.path.owner = s.path.bestOwner → t.path.owner = s.path.owner ∧ t.sport = s.sport)))

/-- The stagger timer's expiry queues a SNAPSHOT in JOINED, and in no other state. An audit's expiry, in JOINED and LEAVING alike (R41),
queues the item's RECLAIM where the slot is free and leaves it OVERDUE where it is not. The slot is free where RIF accepts a RECLAIM and
no "recalled" for an earlier one is on its way back: that the place stays taken until that answer reaches the SMU is the model's reading
(logs 7 and 19, deduced). Neither changes holds or wait entries apart from the audit. The clock's move to each expiry is the model's
choice (log 1). -/
def Obligations.StaggerAndAuditExpiries : Prop :=
  ∀ (s : State) (e : Nat),
    (s.stc.stagger = some e →
      exec .staggerTimerExpiry s = .next
        { s with
          now := max s.now e
          stc := { s.stc with stagger := none }
          rif := { s.rif with queue := if s.stc.state = .joined then s.queueWith (.snapshot [] []) else s.rif.queue } })
    ∧ (∀ c, s.smu.auditExpiry c = some e →
      let free := s.accepts (.reclaim c) = true ∧ ∀ r ∈ s.rif.recalls, r.id.kind = .reclaim → r.status ≠ .answered .recalled
      let expired := fun (audit : Audit) (queue : List Entry) =>
        exec (.auditExpiry c) s = .next
          { s with
            now := max s.now e
            smu := ⟨s.smu.holds.map fun h => if h.cid = c then { h with audit := audit } else h,
                    s.smu.waits.map fun w => if w.cid = c then { w with audit := audit } else w⟩
            rif := { s.rif with queue := queue } }
      (free → expired .reclaimQueued (s.rif.queue ++ [Entry.fresh (.reclaim c)])) ∧ (¬ free → expired .overdue s.rif.queue))

/-! ### PATH -/

/-- A detector's change: the one report changes, a waiting CARRIER settle stage completes where every watched half is PRESENT, and
the carrier watch starts or stops the channel's loss timer. That a change while the supply is LOST (log 17, deduced), or to the level
that stands (log 3, deduced), does nothing is the model's reading. -/
def Obligations.DetectorChangeDrivesSettleAndWatch : Prop :=
  ∀ (s : State) (h : Half) (n : Channel) (b : Bool),
    (s.rif.supply = .lost ∨ s.path.detector h n = b → exec (.carrierDetectorChange h n b) s = .next s)
    ∧ (s.rif.supply = .present → s.path.detector h n ≠ b →
      ∃ t, exec (.carrierDetectorChange h n b) s = .next t ∧ t.path.detector h n = b
        ∧ (∀ h' n', (h', n') ≠ (h, n.val) → t.path.detector h' n' = s.path.detector h' n')
        ∧ t.path.enables = s.path.enables ∧ t.path.owner = s.path.owner ∧ t.path.gate = s.path.gate ∧ t.path.rate = s.path.rate
        ∧ t.ctxs = s.ctxs ∧ t.smu = s.smu ∧ t.sport = s.sport ∧ t.rif = s.rif ∧ t.oku = s.oku
        ∧ ∀ i, (s.path.record i = none → t.path.record i = none)
          ∧ ∀ r, s.path.record i = some r →
            let watched := h = otherHalf r.sendHalf ∧ r.base ≤ n.val ∧ n.val < r.base + r.width
            let all := ∀ k, k < r.width → t.path.detector (otherHalf r.sendHalf) (r.base + k) = true
            (¬ watched ∨ r.stage = .mute → t.path.record i = some r)
              ∧ (watched → r.stage = .settle → s.sport.config.settle = .carrier → r.settleTimer ≠ none → all →
                ∃ r', t.path.record i = some r' ∧ r'.stage = .unmute ∧ r'.settleTimer = none
                  ∧ r'.unmuteTimer = some (s.now + 60) ∧ r'.block = r.block ∧ r'.loss = noLoss)
              ∧ (watched → r.stage = .settle → s.sport.config.settle ≠ .carrier ∨ r.settleTimer = none ∨ ¬ all →
                t.path.record i = some r)
              ∧ (watched → r.stage = .unmute ∨ r.stage = .opened → t.path.record i = some { r with
                  loss := r.loss.setIfInBounds (n.val - r.base) (if b then none else some (s.now + 2000)) }))

/-- The settle timer's expiry: in a timed mode the stage completes, with the unmute delay and the watch started; in mode CARRIER a
SETTLING context clears with NO_CARRIER and its lit path goes to MUTE. The unmute timer's expiry: stage OPEN, the gate open
where the record owns the port, the SETTLING context in TALK, the talk timer running for an originator, and the PATH notice. The
clock's move to each expiry is the model's choice (log 1). -/
def Obligations.SettleAndUnmuteExpiries : Prop :=
  (∀ (s : State) (i : Ref) (r : PathRec) (e : Nat), s.path.record i = some r → r.settleTimer = some e →
    (s.sport.config.settle ≠ .carrier →
      ∃ t r', exec (.settleTimerExpiry i) s = .next t ∧ t.now = max s.now e ∧ t.path.record i = some r' ∧ r'.stage = .unmute
        ∧ r'.settleTimer = none ∧ r'.unmuteTimer = some (max s.now e + 60) ∧ r'.block = r.block
        ∧ (∀ k : Fin 4, r'.loss[k] = if k.val < r.width ∧ s.path.detector (otherHalf r.sendHalf) (r.base + k.val) = false
            then some (max s.now e + 2000) else none)
        ∧ (∀ j, j ≠ i → t.path.record j = s.path.record j) ∧ t.path.enables = s.path.enables ∧ t.path.owner = s.path.owner
        ∧ t.ctxs = s.ctxs ∧ t.smu = s.smu ∧ t.rif = s.rif ∧ t.sport = s.sport)
    ∧ (∀ y, s.sport.config.settle = .carrier → s.ctx i = some y → y.state = .settling → y.announced = true ∨ y.side = .answer →
        y.cause = none → s.path.lit i = true →
      ∃ t z r', exec (.settleTimerExpiry i) s = .next t ∧ t.now = max s.now e ∧ t.ctx i = some z
        ∧ Clearing y .noCarrier false z ∧ z.awaits = .pathOff ∧ t.path.record i = some r' ∧ r'.stage = .mute
        ∧ r'.muteTimer = some (max s.now e + 10) ∧ OtherContextsKept i s t ∧ t.rif.queue = s.rif.queue ∧ t.smu = s.smu))
  ∧ (∀ (s : State) (i : Ref) (r : PathRec) (y : Ctx) (e : Nat), s.path.record i = some r → r.unmuteTimer = some e →
      s.ctx i = some y → y.state = .settling →
      ∃ t, exec (.unmuteTimerExpiry i) s = .next t ∧ t.now = max s.now e
        ∧ t.path.record i = some { r with stage := .opened, unmuteTimer := none }
        ∧ (s.path.owner = some i → t.path.gate = true) ∧ (s.path.owner ≠ some i → t.path.gate = s.path.gate)
        ∧ t.path.owner = s.path.owner ∧ t.path.rate = s.path.rate ∧ t.path.enables = s.path.enables
        ∧ t.ctx i = some { y with
            state := .talk
            talk := if y.side = .origin then some (max s.now e + 1000 * s.sport.config.talkLimit) else none }
        ∧ OtherContextsKept i s t ∧ Posted (.path i y.cid r.base r.width r.trimmed (decide (s.path.owner = some i))) t
        ∧ t.smu = s.smu ∧ t.rif = s.rif)

/-! ### OKU -/

/-- A key's input: away from the debounced level the debounce timer starts at 10 ms unless it runs; at that level no timer runs. A
debounce timer's expiry: the debounced state takes the other level. The clock's move to the expiry is the model's choice (log 1). A
DOORKEY or DESKKEY release is no event. A HOOK lifted answers the context that entered ALERTING earliest, and does nothing where none
alerts. That a key without use at the role is debounced like any other, and that a HOOK put down at ENTRY, where R122 and R163 have
none, is counted and does nothing, is the model's reading (log 33, deduced). A HOOK put down at UNIT or DESK makes each reversible
clearing final, leaves final clearings and ALERTING contexts as they are, and clears every other context with cause HUNG_UP, a lone
one in the steps of a HANGUP request. A DOORKEY press asks for the door for the context that owns the audio port where an OPEN_DOOR
for it would be accepted, and is ignored otherwise. A DESKKEY press at UNIT opens a call to unit 0 with the width capability, as DIAL
does, where that would be accepted, and is ignored otherwise and at the other roles. -/
def Obligations.KeysAreDebounced : Prop :=
  (∀ (s : State) (k : Key) (b : Bool),
    let key := s.oku.key k
    ∃ t, exec (.keyInputChange k b) s = .next t ∧ (t.oku.key k).active = key.active
      ∧ (b = key.active → (t.oku.key k).timer = none)
      ∧ (b ≠ key.active → key.timer = none → (t.oku.key k).timer = some (s.now + 10))
      ∧ (b ≠ key.active → key.timer ≠ none → (t.oku.key k).timer = key.timer)
      ∧ t.pins.level k = b ∧ (∀ j, j ≠ k → t.oku.key j = s.oku.key j ∧ t.pins.level j = s.pins.level j)
      ∧ t = { s with pins := t.pins, oku := t.oku } ∧ t.pins.supply = s.pins.supply ∧ t.oku.strike = s.oku.strike
      ∧ t.oku.ringer = s.oku.ringer ∧ t.oku.door = s.oku.door)
  ∧ (∀ (s : State) (k : Key) (e : Nat), (s.oku.key k).timer = some e →
      let counted := { s with now := max s.now e, oku := s.oku.setKey k ⟨!(s.oku.key k).active, none⟩ }
      (∃ t, exec (.debounceTimerExpiry k) s = .next t ∧ t.now = max s.now e ∧ t.oku.key k = ⟨!(s.oku.key k).active, none⟩
        ∧ t.smu = s.smu ∧ t.sport.config = s.sport.config ∧ t.oku.strike = s.oku.strike)
      ∧ ((s.oku.key k).active = true → k ≠ .hook → exec (.debounceTimerExpiry k) s = .next counted)
      ∧ ((s.oku.key k).active = false → k = .hook → (∀ i y, s.ctx i = some y → y.state ≠ .alerting) →
        exec (.debounceTimerExpiry k) s = .next counted)
      ∧ (∀ i y a, (s.oku.key k).active = false → k = .hook → s.ctx i = some y → y.state = .alerting → y.alert = some a →
          (∀ j z, s.ctx j = some z → z.state = .alerting → j ≠ i →
            ∃ b, z.alert = some b ∧ (a < b ∨ (a = b ∧ y.alertedAt < z.alertedAt))) →
          s.accepts (.answer y.cid s.sport.config.capability) = true →
        ∃ t, exec (.debounceTimerExpiry k) s = .next t ∧ t.ctx i = some { y with alert := none, state := .answering }
          ∧ OtherContextsKept i s t
          ∧ t.rif.queue = s.rif.queue ++ [Entry.fresh (.answer y.cid s.sport.config.capability)])
      ∧ ((s.oku.key k).active = false → k = .deskKey → s.role ≠ .unit →
        exec (.debounceTimerExpiry k) s = .next { counted with eventNo := s.eventNo + 1 })
      ∧ ((s.oku.key k).active = true → k = .hook →
        (s.role = .entry → exec (.debounceTimerExpiry k) s = .next counted)
        ∧ (s.role ≠ .entry → ∃ t, exec (.debounceTimerExpiry k) s = .next t ∧ ∀ i,
          (s.ctx i = none → t.ctx i = none)
          ∧ ∀ y, s.ctx i = some y →
            (y.side = .origin → y.state = .clearing → t.ctx i = some { y with reversible := false })
            ∧ (y.side = .answer → y.state = .alerting ∨ y.state = .clearing → t.ctx i = some y)
            ∧ (y.side = .origin → y.state = .seeking → t.ctx i = none)
            ∧ (y.cause = none → y.side.has y.state = true → y.state ∉ [CtxState.clearing, .seeking, .alerting] →
              t.ctx i = none ∨ ∃ z, t.ctx i = some z ∧ Clearing y .hungUp false z))
        ∧ (∀ i y, s.role ≠ .entry → s.ctx i = some y → (∀ j z, s.ctx j = some z → j = i) → y.cause = none → y.endPosted = false →
            (y.side = .origin ∧ y.state ∈ [CtxState.ringing, .claiming, .waiting]) ∨ (y.side = .answer ∧ y.state = .answering)
              ∨ (y.state ∈ [CtxState.settling, .talk] ∧ s.path.lit i = true) →
          ∃ t, exec (.debounceTimerExpiry k) s = .next t ∧ HungUp i y counted t))
      ∧ ((s.oku.key k).active = false → k = .doorKey →
        (∀ i y, s.stc.state = .joined → s.path.owner = some i → s.ctx i = some y → y.side = .answer → y.origRole = 0#8 →
            y.state = .talk → s.oku.door[i] = none → s.accepts (.open_ y.cid) = true →
          exec (.debounceTimerExpiry k) s = .next
            ({ counted with rif := { s.rif with queue := s.rif.queue ++ [Entry.fresh (.open_ y.cid)] } }.setDoor i
              (some (max s.now e + 2000))))
        ∧ (s.stc.state ≠ .joined ∨ s.path.owner = none
            ∨ (∃ i, s.path.owner = some i ∧ (s.ctx i = none ∨ s.oku.door[i] ≠ none
              ∨ ∃ y, s.ctx i = some y ∧ (y.side = .origin ∨ y.origRole ≠ 0#8 ∨ y.state ≠ .talk))) →
          exec (.debounceTimerExpiry k) s = .next counted))
      ∧ ((s.oku.key k).active = false → k = .deskKey → s.role = .unit →
        (∀ i, s.dialTest 0#16 s.sport.config.capability = .accepted → s.freeRef = some i →
          let c : CallId := ⟨s.own, s.nextSeq⟩
          let y : Ctx := { side := .origin, cid := c, state := .seeking, wanted := s.sport.config.capability.toNat }
          ∃ t, exec (.debounceTimerExpiry k) s = .next t ∧ t.stc.sequence = s.nextSeq ∧ OtherContextsKept i s t ∧ t.smu = s.smu
            ∧ SameFixtures { counted with oku := t.oku } t ∧ SameStation s t
            ∧ (∀ ms, s.lookup 0#16 = some ms → s.accepts (s.ringFrame y 0 ms) = true →
              t.ctx i = some { y with state := .ringing, members := ms }
                ∧ t.rif.queue = s.rif.queue ++ [Entry.fresh (s.ringFrame y 0 ms)]
                ∧ Posted (.callState i c (.ringing 0 ms.length false)) t)
            ∧ (s.lookup 0#16 = none →
              t.ctx i = some y ∧ (∃ r ∈ t.udir.seeks, r.unit = 0#16 ∧ i ∈ r.refs) ∧ Posted (.callState i c (.seeking 0#16)) t))
        ∧ (s.dialTest 0#16 s.sport.config.capability ≠ .accepted →
          exec (.debounceTimerExpiry k) s = .next { counted with eventNo := s.eventNo + 1 })))

/-- The strike pulse's expiry turns the strike off; the ringer's phases alternate, ON for 1 s and OFF for 2 s. The outputs: STRIKE
is on while the strike is ENERGIZED; RINGER in an ON phase while the ringer fault status is CLEAR. The clock's move to each
expiry is the model's choice (log 1). -/
def Obligations.StrikeAndRinger : Prop :=
  (∀ (s : State) (e : Nat),
    (s.oku.strike = some e →
      exec .strikePulseExpiry s = .next { s with now := max s.now e, oku := { s.oku with strike := none } })
    ∧ (s.oku.ringer = .cadence true e →
      exec .ringerPhaseExpiry s = .next
        { s with now := max s.now e, oku := { s.oku with ringer := .cadence false (max s.now e + 2000) } })
    ∧ (s.oku.ringer = .cadence false e →
      exec .ringerPhaseExpiry s = .next
        { s with now := max s.now e, oku := { s.oku with ringer := .cadence true (max s.now e + 1000) } }))
  ∧ (∀ o : Oku, (o.strikeOn = true ↔ o.strike ≠ none)
      ∧ (o.ringerOn = true ↔ (∃ e, o.ringer = .cadence true e) ∧ o.ringerFault.sticky = false))

/-- One sample of a fault input: inactive resets the counter; active raises it to the setting and no further; the sample that reaches
the setting qualifies a CLEAR status: output off, status SET, FAULT notice. That a counter which stands above a lowered setting goes
to the setting with that sample is the model's reading (log 28, deduced). The other input is untouched. The two fault commands: the
millisecond's sample takes both inputs, the strike's first (log 15), and moves the clock by 1 ms (log 1); FAULT_QUALIFIES is the
active sample that completes a run, and nothing short of one (log 16). -/
def Obligations.FaultSampling : Prop :=
  (∀ (s : State) (k : FaultKind), 1 ≤ s.sport.config.faultSamples →
    let x := s.oku.fault k
    let set := s.sport.config.faultSamples
    (s.sampleFault k false).oku.fault k = { x with counter := 0, sample := false }
      ∧ (s.sampleFault k false).sport = s.sport
      ∧ (x.counter + 1 < set → (s.sampleFault k true).oku.fault k = { x with counter := x.counter + 1, sample := true }
        ∧ (s.sampleFault k true).sport = s.sport)
      ∧ (set ≤ x.counter + 1 → x.sticky = true →
        (s.sampleFault k true).oku.fault k = { x with counter := set, sample := true } ∧ (s.sampleFault k true).sport = s.sport)
      ∧ (set ≤ x.counter + 1 → x.sticky = false →
        (s.sampleFault k true).oku.fault k = ⟨set, true, true⟩ ∧ (s.sampleFault k true).oku.outputOn k = false
          ∧ Posted (.fault (faultNotice k) (s.oku.outputOn k)) (s.sampleFault k true))
      ∧ (∀ b j, j ≠ k → (s.sampleFault k b).oku.fault j = s.oku.fault j)
      ∧ (∀ b, (s.sampleFault k b).ctxs = s.ctxs ∧ (s.sampleFault k b).smu = s.smu ∧ (s.sampleFault k b).rif = s.rif
        ∧ (s.sampleFault k b).oku.ringer = s.oku.ringer ∧ (s.sampleFault k b).oku.door = s.oku.door))
  ∧ (∀ s : State,
      (∀ a b, exec (.faultSample a b) s = .next ((({ s with now := s.now + 1 }).sampleFault .strike a).sampleFault .ringer b))
      ∧ ∀ k, (s.sport.config.faultSamples ≤ (s.oku.fault k).counter + 1 →
          exec (.faultQualifies k) s = .next (s.sampleFault k true))
        ∧ ((s.oku.fault k).counter + 1 < s.sport.config.faultSamples → exec (.faultQualifies k) s = .next s))

/-! ### The station port -/

/-- A request of the wrong length is answered BAD_VALUE, an unknown code UNKNOWN_REQUEST, and a broken-off transaction nothing; in
each case nothing but the transaction changes. The requests that a station's state refuses are answered by the table, and
nothing else changes. -/
def Obligations.RequestDecode : Prop :=
  (∀ (s : State) (fs : List Byte),
    (∀ (n : Nat) (cmd : Instr),
      (n, cmd) ∈ [(18, Instr.configure fs), (0, .join fs), (0, .restart fs), (3, .dial fs), (1, .answer fs), (1, .hangup fs),
        (1, .openDoor fs), (1, .setDnd fs), (1, .clearFault fs), (0, .purge fs), (0, .readNotice fs), (0, .readStatus fs),
        (0, .readSlots fs), (0, .readWaits fs), (1, .readLine fs), (1, .readContext fs)] →
      fs.length ≠ n → exec cmd s = .next (s.reply .badValue))
    ∧ (∀ code, code ∉ requestCodes → exec (.unknownRequest code fs) s = .next (s.reply .unknownRequest))
    ∧ exec .transactionDiscarded s = .next { s with sport := { s.sport with transaction := none } })
  ∧ (∀ (s : State) (fs : List Byte) (st : Status) (cmd : Instr),
      (s.stc.state, st) ∈ [(StationState.unconfigured, Status.notConfigured), (.configured, .notJoined), (.learning, .notJoined),
        (.leaving, .busy), (.isolated, .notJoined)] →
      (cmd = .dial fs ∧ fs.length = 3) ∨ (cmd = .answer fs ∧ fs.length = 1) ∨ (cmd = .hangup fs ∧ fs.length = 1)
        ∨ (cmd = .openDoor fs ∧ fs.length = 1) →
      exec cmd s = .next (s.reply st))

/-- CONFIGURE: LOCKED while the record is locked, BAD_VALUE for a record that is none, and otherwise the record is replaced whole,
seeks and pending OFFER cleared, the lines recomputed, and the station in CONFIGURED. -/
def Obligations.ConfigureRows : Prop :=
  ∀ (s : State) (fs : List Byte), fs.length = 18 →
    (s.stc.locked = true → exec (.configure fs) s = .next (s.reply .locked))
    ∧ (s.stc.locked = false → parseConfig fs = none → exec (.configure fs) s = .next (s.reply .badValue))
    ∧ (∀ r, s.stc.locked = false → parseConfig fs = some r →
      let set := { s with
        sport := { s.sport with config := r, attn0 := attn0Of r.attn s.sport.notices, attn1 := attn1Of r.attn s.sport.notices }
        udir := { s.udir with seeks := [], offer := .none } }
      (s.stc.state ≠ .unconfigured → exec (.configure fs) s = .next (set.reply .accepted))
        ∧ (s.stc.state = .unconfigured → exec (.configure fs) s = .next
          ((({ set with stc := { s.stc with state := .configured, locked := false } }).post
            (.station .unconfigured .configured .configured)).reply .accepted)))

/-- JOIN by station state and supply. -/
def Obligations.JoinRequestRows : Prop :=
  ∀ s : State,
    (s.stc.state = .unconfigured → exec (.join []) s = .next (s.reply .notConfigured))
    ∧ (s.stc.state = .leaving → exec (.join []) s = .next (s.reply .busy))
    ∧ (s.stc.state = .learning ∨ s.stc.state = .joined ∨ s.stc.state = .isolated → exec (.join []) s = .next (s.reply .wrongState))
    ∧ (s.stc.state = .configured → s.rif.supply = .present → s.rif.queue = [] →
      ∃ t, exec (.join []) s = .next t ∧ t.sport.transaction = some ⟨⟨.accepted, []⟩, .nothing⟩ ∧ t.stc.state = .learning
        ∧ t.stc.locked = true ∧ t.stc.buffer = [] ∧ t.stc.learn = none ∧ t.stc.stagger = none ∧ t.stc.outcome = .none
        ∧ t.rif.polarity = .unknown ∧ t.smu = { holds := [], waits := [] } ∧ t.rif.queue = [Entry.fresh s.joinFrame]
        ∧ Posted (.station .configured .learning .joinRequested) t ∧ t.udir.lines = s.udir.lines ∧ t.ctxs = s.ctxs)
    ∧ (s.stc.state = .configured → s.rif.supply = .lost →
      ∃ t, exec (.join []) s = .next t ∧ t.sport.transaction = some ⟨⟨.accepted, []⟩, .nothing⟩ ∧ t.stc.state = .isolated
        ∧ t.stc.locked = true ∧ t.offTheRiser ∧ Posted (.station .configured .isolated .riserLost) t)

/-- RESTART by station state: LEARNING and ISOLATED go to CONFIGURED without a frame; JOINED goes to LEAVING with every context in
CLEARING or freed, the recall of the own queued SNAPSHOT and JOIN asked, and at once queues its LEAVE where no context is live and no
JOIN is queued. A context outside CLEARING clears with cause RESTART by its normal clearing, one in ALERTING ends at once, and a
clearing goes on, a reversible one made final. Their CALL_ENDED notices come before the STATION notice, in ascending index where no
path stands that a teardown could pass the audio port to. -/
def Obligations.RestartRequestRows : Prop :=
  ∀ s : State,
    (s.stc.state = .unconfigured → exec (.restart []) s = .next (s.reply .notConfigured))
    ∧ (s.stc.state = .configured → exec (.restart []) s = .next (s.reply .wrongState))
    ∧ (s.stc.state = .leaving → exec (.restart []) s = .next (s.reply .busy))
    ∧ (s.stc.state = .learning ∨ s.stc.state = .isolated →
      ∃ t, exec (.restart []) s = .next t ∧ t.nowConfigured s.stc.state .restartRequested
        ∧ t.sport.transaction = some ⟨⟨.accepted, []⟩, .nothing⟩ ∧ SameFixtures s t)
    ∧ (s.stc.state = .joined → ContextLaw s →
      ∃ t, exec (.restart []) s = .next t ∧ t.stc.state = .leaving ∧ t.stc.locked = true ∧ t.stc.stagger = none
        ∧ t.sport.transaction.map Transaction.answer = some ⟨.accepted, []⟩ ∧ t.smu = s.smu ∧ t.udir.lines = s.udir.lines
        ∧ (∀ i y, t.ctx i = some y → y.state = .clearing) ∧ Posted (.station .joined .leaving .restartRequested) t
        ∧ SameFixtures s t
        ∧ (s.queued ⟨.snapshot, .bare⟩ = true → t.recallOpen ⟨.snapshot, .bare⟩)
        ∧ (s.queued s.joinFrame.ident = true → t.recallOpen s.joinFrame.ident)
        ∧ (PathLaw s → SlotLaw s.smu → s.rif.count .call ≤ 4 →
          (∀ i y, s.ctx i = some y → RestartedCtx i y s t ∧ (y.state ≠ .clearing → s.sport.notices = [] → EndSaid i y .restart s t))
            ∧ ((∀ i : Ref, s.path.record i = none) →
              PostsInTurn (s.restartNotices ++ [.station .joined .leaving .restartRequested]) s t))
        ∧ (s.liveCount = 0 → (∀ e ∈ s.rif.queue, e.frame.kind ≠ .join ∧ e.frame.kind ≠ .leave) →
          t.rif.queue = s.rif.queue ++ [Entry.fresh .leave]))

/-- DIAL in JOINED, by the first row: BAD_VALUE, NOT_PERMITTED, OUT_OF_RANGE, IN_CALL, NO_CONTEXT, with nothing changed. An accepted
DIAL opens the lowest free context with the issued call id, and answers with both: RINGING with its RING queued on a hit,
SEEKING in the unit's seek record on a miss. -/
def Obligations.DialRows : Prop :=
  (∀ (s : State) (u1 u0 w : Byte), s.stc.state = .joined →
    let u := wordOf u1 u0
    let badWidth := ¬ (w = 1#8 ∨ w = 2#8 ∨ w = 4#8)
    let barred := s.role = .unit ∧ u ≠ 0#16
    let outside := ¬ (u = 0#16 ∨ (s.sport.config.lower.toNat ≤ u.toNat ∧ u.toNat ≤ s.sport.config.upper.toNat))
    let inCall := s.role ≠ .desk ∧ s.activeCount ≠ 0
    let answers := fun (st : Status) => exec (.dial [u1, u0, w]) s = .next (s.reply st)
    (badWidth → answers .badValue)
      ∧ (¬ badWidth → barred → answers .notPermitted)
      ∧ (¬ badWidth → ¬ barred → outside → answers .outOfRange)
      ∧ (¬ badWidth → ¬ barred → ¬ outside → inCall → answers .inCall)
      ∧ (¬ badWidth → ¬ barred → ¬ outside → ¬ inCall → s.role.limit ≤ s.liveCount → answers .noContext))
  ∧ (∀ (s : State) (u1 u0 w : Byte) (i : Ref), s.dialTest (wordOf u1 u0) w = .accepted → s.freeRef = some i →
      let u := wordOf u1 u0
      let c : CallId := ⟨s.own, s.nextSeq⟩
      let y : Ctx := { side := .origin, cid := c, state := .seeking, peerUnit := u
                       wanted := min w.toNat s.sport.config.capability.toNat }
      ∃ t, exec (.dial [u1, u0, w]) s = .next t ∧ t.stc.sequence = s.nextSeq ∧ OtherContextsKept i s t ∧ t.smu = s.smu
        ∧ t.sport.transaction = some ⟨⟨.accepted, [byte i.val, c.orig, c.seq]⟩, .nothing⟩ ∧ SameFixtures s t ∧ SameStation s t
        ∧ (∀ ms, s.lookup u = some ms → s.accepts (s.ringFrame y 0 ms) = true →
          t.ctx i = some { y with state := .ringing, members := ms }
            ∧ t.rif.queue = s.rif.queue ++ [Entry.fresh (s.ringFrame y 0 ms)]
            ∧ Posted (.callState i c (.ringing 0 ms.length false)) t)
        ∧ (s.lookup u = none →
          t.ctx i = some y ∧ (∃ r ∈ t.udir.seeks, r.unit = u ∧ i ∈ r.refs) ∧ Posted (.callState i c (.seeking u)) t))

/-- The issued sequence number is the first above the counter, wrapping, whose call id is not present. -/
def Obligations.SequenceNumberIsTheNextAbsent : Prop :=
  ∀ s : State, s.smu.holds.length ≤ 24 → s.smu.waits.length ≤ 16 →
    s.callPresent ⟨s.own, s.nextSeq⟩ = false
      ∧ ∃ n : Nat, s.nextSeq = s.stc.sequence + 1#8 + BitVec.ofNat 8 n ∧ n < 256
        ∧ ∀ m, m < n → s.callPresent ⟨s.own, s.stc.sequence + 1#8 + BitVec.ofNat 8 m⟩ = true

/-- ANSWER, HANGUP and OPEN_DOOR in JOINED: BAD_REF for no live context; ANSWER answers an ALERTING context; HANGUP frees a
SEEKING call; clears RINGING, CLAIMING and WAITING with cause HUNG_UP, their queued frames under recall, with the RELEASE of an
announced call queued, and where the RING was never taken with its fate awaited or the call freed; clears SETTLING and TALK with the
lit path in MUTE; clears ANSWERING with its queued ANSWER under recall, or frees it; and clears AWAIT_PATH with its RELEASE queued;
OPEN_DOOR queues OPEN with a reply wait of 2 s, by its rows. -/
def Obligations.ContextRequestsActOnTheirContext : Prop :=
  ∀ (s : State) (b : Byte), s.stc.state = .joined →
    ((4 ≤ b.toNat ∨ ∀ i : Ref, i.val = b.toNat → s.ctx i = none) →
      exec (.answer [b]) s = .next (s.reply .badRef) ∧ exec (.hangup [b]) s = .next (s.reply .badRef)
        ∧ exec (.openDoor [b]) s = .next (s.reply .badRef))
    ∧ (∀ (i : Ref) (y : Ctx), i.val = b.toNat → s.ctx i = some y →
      (y.side = .origin ∨ y.state ≠ .alerting → exec (.answer [b]) s = .next (s.reply .wrongState))
      ∧ (y.side = .answer → y.state = .alerting → s.accepts (.answer y.cid s.sport.config.capability) = true →
        ∃ t, exec (.answer [b]) s = .next t ∧ t.ctx i = some { y with alert := none, state := .answering }
          ∧ OtherContextsKept i s t ∧ t.oku.alerting[i] = false ∧ t.smu = s.smu
          ∧ t.rif.queue = s.rif.queue ++ [Entry.fresh (.answer y.cid s.sport.config.capability)]
          ∧ t.sport.transaction = some ⟨⟨.accepted, []⟩, .nothing⟩
          ∧ Posted (.callState i y.cid (.answering s.sport.config.capability)) t)
      ∧ (y.state = .clearing → y.reversible = false ∨ y.side = .answer → exec (.hangup [b]) s = .next (s.reply .wrongState))
      ∧ (y.side = .answer → y.state = .alerting → exec (.hangup [b]) s = .next (s.reply .wrongState))
      ∧ (y.side = .origin → y.state = .clearing → y.reversible = true →
        exec (.hangup [b]) s = .next ((s.setCtx i (some { y with reversible := false })).reply .accepted))
      ∧ (y.side = .origin → y.state = .seeking → y.cause = none → y.endPosted = false →
        ∃ t, exec (.hangup [b]) s = .next t ∧ t.ctx i = none ∧ OtherContextsKept i s t ∧ t.rif.queue = s.rif.queue
          ∧ t.smu = s.smu ∧ Posted (.callEnded i y.cid (some .hungUp)) t)
      ∧ (y.cause = none → y.endPosted = false →
          (y.side = .origin ∧ y.state ∈ [CtxState.ringing, .claiming, .waiting]) ∨ (y.side = .answer ∧ y.state = .answering)
            ∨ (y.state ∈ [CtxState.settling, .talk] ∧ s.path.lit i = true) →
        ∃ t, exec (.hangup [b]) s = .next t ∧ HungUp i y s t)
      ∧ (y.side = .answer → y.state = .awaitPath → y.cause = none → y.endPosted = false →
          s.accepts (.release y.cid 1#8) = true →
        ∃ t z, exec (.hangup [b]) s = .next t ∧ t.ctx i = some z ∧ Clearing y .hungUp false z ∧ OtherContextsKept i s t
          ∧ t.rif.queue = s.rif.queue ++ [Entry.fresh (.release y.cid 1#8)] ∧ t.smu = s.smu
          ∧ Posted (.callEnded i y.cid (some .hungUp)) t)
      ∧ (y.side = .origin ∨ y.origRole ≠ 0#8 → exec (.openDoor [b]) s = .next (s.reply .notPermitted))
      ∧ (y.side = .answer → y.origRole = 0#8 → y.state ≠ .talk → exec (.openDoor [b]) s = .next (s.reply .wrongState))
      ∧ (y.side = .answer → y.origRole = 0#8 → y.state = .talk → s.oku.door[i] ≠ none →
        exec (.openDoor [b]) s = .next (s.reply .busy))
      ∧ (y.side = .answer → y.origRole = 0#8 → y.state = .talk → s.oku.door[i] = none → s.accepts (.open_ y.cid) = true →
        exec (.openDoor [b]) s = .next
          ((({ s with rif := { s.rif with queue := s.rif.queue ++ [Entry.fresh (.open_ y.cid)] } }).setDoor i
            (some (s.now + 2000))).reply .accepted)))

/-- SET_DND and CLEAR_FAULT, by the first row, in every station state. -/
def Obligations.SettingRequestRows : Prop :=
  ∀ (s : State) (b : Byte),
    (b ≠ 0#8 → b ≠ 1#8 → exec (.setDnd [b]) s = .next (s.reply .badValue))
    ∧ (b = 0#8 ∨ b = 1#8 → s.role ≠ .unit → exec (.setDnd [b]) s = .next (s.reply .notPermitted))
    ∧ (b = 0#8 ∨ b = 1#8 → s.role = .unit →
      exec (.setDnd [b]) s = .next (State.reply { s with sport := { s.sport with dnd := decide (b = 1#8) } } .accepted))
    ∧ (b ≠ 1#8 → b ≠ 2#8 → exec (.clearFault [b]) s = .next (s.reply .badValue))
    ∧ (∀ k, (b, k) ∈ [(1#8, FaultKind.strike), (2#8, .ringer)] →
      ((s.oku.fault k).sticky = false → exec (.clearFault [b]) s = .next (s.reply .accepted))
      ∧ ((s.oku.fault k).sticky = true → (s.oku.fault k).sample = true → exec (.clearFault [b]) s = .next (s.reply .stillPresent))
      ∧ ((s.oku.fault k).sticky = true → (s.oku.fault k).sample = false →
        exec (.clearFault [b]) s = .next
          (State.reply { s with oku := s.oku.setFault k { s.oku.fault k with sticky := false } } .accepted)))

/-- PURGE invalidates every line and changes nothing else of the directory, and READ_LINE answers one line, in every station state. The
00h in the tag and member count bytes of an invalid line is the model's choice (log 36, DESIGN CHOICE). -/
def Obligations.PurgeAndReadLine : Prop :=
  ∀ s : State,
    (∃ t, exec (.purge []) s = .next t ∧ (∀ k, t.udir.lineAt k = none) ∧ t = State.reply { s with udir := t.udir } .accepted
      ∧ t.udir.seeks = s.udir.seeks ∧ t.udir.offer = s.udir.offer)
    ∧ (∀ b : Byte, 63 < b.toNat → exec (.readLine [b]) s = .next (s.reply .badValue))
    ∧ (∀ (b : Byte) (k : Fin 64), k.val = b.toNat →
      (s.udir.lineAt k = none → exec (.readLine [b]) s = .next (s.respond .accepted (List.replicate 12 0#8) .nothing))
      ∧ ∀ l, s.udir.lineAt k = some l → l.members.length ≤ 4 →
        exec (.readLine [b]) s = .next (s.respond .accepted
          ([1#8] ++ wordBytes l.unit ++ [byte l.members.length] ++ l.members.flatMap (fun m => [m.addr, m.cap])
            ++ List.replicate (8 - 2 * l.members.length) 0#8) .nothing))

/-- The status, slot, wait and context reads answer from the state as it stands, in these bytes, and change nothing but the
transaction; ages are whole seconds of the model's clock (log 1). The transaction as bytes: the code names the request, L field
bytes follow it, and a request phase cut short is discarded; the answer follows L and the turnaround byte as status, M and its
field bytes, with 00h before and after it. -/
def Obligations.ReadsAnswerTheStateAsItStands : Prop :=
  (∀ s : State,
    let age := fun (a : Stamp) => wordBytes (BitVec.ofNat 16 (min 65535 ((s.now - a.ms) / 1000)))
    exec (.readStatus []) s = .next (s.respond .accepted
      [s.stc.state.code, s.rif.polarity.code, s.rif.supply.code, flagByte s.sport.overflow, flagByte s.oku.strikeFault.sticky,
        flagByte s.oku.ringerFault.sticky, flagByte s.sport.dnd, s.stc.outcome.code, s.stc.sequence,
        byte s.sport.notices.length] (.clearOverflow false))
    ∧ (∃ fs, exec (.readSlots []) s = .next (s.respond .accepted fs .nothing) ∧ fs.length = 50 + 6 * s.smu.holds.length
      ∧ fs.head? = some (byte (freeCount s.smu.holds))
      ∧ (∀ n, n < 24 → fs[1 + 2 * n]? = some (((holderOf s.smu.holds n).map CallId.orig).getD 0#8)
        ∧ fs[2 + 2 * n]? = some (((holderOf s.smu.holds n).map CallId.seq).getD 0#8))
      ∧ fs[49]? = some (byte s.smu.holds.length)
      ∧ fs.drop 50 = s.smu.holds.flatMap fun h => [byte h.base, byte h.width, h.cid.orig, h.cid.seq] ++ age h.age)
    ∧ (∃ fs, exec (.readWaits []) s = .next (s.respond .accepted fs .nothing) ∧ fs.length = 3 + 7 * s.smu.waits.length
      ∧ fs.head? = some (byte s.smu.waits.length)
      ∧ (∀ old w new, s.smu.waits = old ++ w :: new →
        (fs.drop (1 + 7 * old.length)).take 7 = [byte (old.length + 1), w.cid.orig, w.cid.seq, byte w.wanted] ++ age w.age
          ++ [match w.audit with | .armed _ => 0#8 | .overdue => 1#8 | .reclaimQueued => 2#8])
      ∧ ((∀ x ∈ s.rif.queue, x.frame.kind ≠ .reclaim) → fs.drop (1 + 7 * s.smu.waits.length) = [0#8, 0#8])
      ∧ (∀ pre x post c, s.rif.queue = pre ++ x :: post → (∀ y ∈ pre, y.frame.kind ≠ .reclaim) → x.frame = .reclaim c →
        fs.drop (1 + 7 * s.smu.waits.length) = [c.orig, c.seq]))
    ∧ (∀ b : Byte, 4 ≤ b.toNat → exec (.readContext [b]) s = .next (s.reply .badRef))
    ∧ (∀ (b : Byte) (i : Ref), i.val = b.toNat → s.ctx i = none →
      exec (.readContext [b]) s = .next (s.respond .accepted (List.replicate 32 0#8) .nothing))
    ∧ (∀ (b : Byte) (i : Ref) (y : Ctx), i.val = b.toNat → s.ctx i = some y →
      ∃ timer, exec (.readContext [b]) s = .next (s.respond .accepted
          ([y.side.code, y.state.code, y.cid.orig, y.cid.seq] ++ wordBytes y.peerUnit
            ++ [byte y.members.length] ++ (y.members ++ List.replicate 4 0#8).take 4 ++ [byte y.refused.length]
            ++ [y.answerer.getD 0#8, y.origAddr, y.origRole]
            ++ [byte y.wanted, byte ((y.path.map Prod.fst).getD 0), byte ((y.path.map Prod.snd).getD 0), flagByte y.trimmed]
            ++ [byte y.attempts, claimReasonByte y.lastReason, byte y.ringPhase]
            ++ [flagByte y.announced, flagByte y.reversible, flagByte y.superseded, flagByte (s.oku.door[i]).isSome, y.forward.code]
            ++ [causeByte y.cause, stageByte ((s.path.record i).map PathRec.stage)] ++ timer) .nothing)
        ∧ let timers := [(1#8, y.ring), (2#8, y.wait), (3#8, y.talk), (4#8, y.alert), (5#8, y.pathWait)]
          ((∀ p ∈ timers, p.2 = none) → timer = [0#8, 0#8, 0#8])
          ∧ (∀ code e, (code, some e) ∈ timers → (∀ p ∈ timers, p.1 ≠ code → p.2 = none) →
            timer = code :: wordBytes (BitVec.ofNat 16 ((e - s.now + 99) / 100)))))
  ∧ (∀ fs : List Byte,
      (∀ code cmd, (code, cmd) ∈ [(0x01#8, Instr.configure fs), (0x02#8, .join fs), (0x03#8, .restart fs), (0x10#8, .dial fs),
          (0x11#8, .answer fs), (0x12#8, .hangup fs), (0x13#8, .openDoor fs), (0x20#8, .setDnd fs), (0x21#8, .clearFault fs),
          (0x22#8, .purge fs), (0x30#8, .readNotice fs), (0x31#8, .readStatus fs), (0x32#8, .readSlots fs),
          (0x33#8, .readWaits fs), (0x34#8, .readLine fs), (0x35#8, .readContext fs)] →
        requestOf code fs = cmd)
      ∧ (∀ code, code ∉ requestCodes → requestOf code fs = .unknownRequest code fs)
      ∧ (∀ code rest, fs.length < 256 → transactionOf (code :: byte fs.length :: fs ++ rest) = requestOf code fs)
      ∧ (∀ code len, fs.length < len.toNat → transactionOf (code :: len :: fs) = .transactionDiscarded)
      ∧ (fs.length < 2 → transactionOf fs = .transactionDiscarded))
  ∧ (∀ (s : State) (a : Answer) (tail : Tail) (len : Nat), s.sport.transaction = some ⟨a, tail⟩ →
      (∀ n, n < 3 + len → s.sdo len n = 0#8)
      ∧ s.sdo len (3 + len) = a.status.code ∧ s.sdo len (4 + len) = byte a.fields.length
      ∧ ∀ k, s.sdo len (5 + len + k) = a.fields.getD k 0#8)
  ∧ (∀ (s : State) (len n : Nat), s.sport.transaction = none → s.sdo len n = 0#8)

/-- READ_NOTICE answers the oldest notice and the count left behind it, which leaves the queue at the answer's last byte, the lines
recomputed; an empty queue answers no notice, and nothing is removed. A posting joins the queue last and the lines are
recomputed; at 16 notices it is dropped and the overflow flag set, and a READ_STATUS whose answer is being clocked out then leaves the
flag set. ATTN0 and ATTN1 follow the queue by the attention mode. The code, reference, call id and detail bytes of each notice kind. -/
def Obligations.NoticesPostedAndRead : Prop :=
  (∀ s : State,
    (s.sport.notices = [] →
      exec (.readNotice []) s = .next
        (s.respond .accepted [0#8, 255#8, 0#8, 0#8, 0#8, 0#8, 0#8, 0#8, 0#8, 0#8, 0#8, 0#8, 0#8] .nothing))
    ∧ (∀ n ns, s.sport.notices = n :: ns →
      exec (.readNotice []) s = .next (s.respond .accepted
        ([n.code, n.refByte] ++ n.callBytes ++ (n.detail ++ List.replicate 8 0#8).take 8 ++ [byte ns.length]) .removeNotice))
    ∧ (∀ a, s.sport.transaction = some ⟨a, .removeNotice⟩ →
      exec .noticeRemoved s = .next
        { s with sport := { s.sport with
          notices := s.sport.notices.drop 1
          attn0 := attn0Of s.sport.config.attn (s.sport.notices.drop 1)
          attn1 := attn1Of s.sport.config.attn (s.sport.notices.drop 1)
          transaction := some ⟨a, .nothing⟩ } })
    ∧ (∀ a dropped, s.sport.transaction = some ⟨a, .clearOverflow dropped⟩ →
      exec .overflowFlagCleared s = .next
        { s with sport := { s.sport with overflow := s.sport.overflow && dropped, transaction := some ⟨a, .nothing⟩ } }))
  ∧ ((∀ (s : State) (n : Notice),
      (s.sport.notices.length < 16 →
        (s.post n).sport.notices = s.sport.notices ++ [n] ∧ (s.post n).sport.overflow = s.sport.overflow
          ∧ (s.post n).sport.transaction = s.sport.transaction
          ∧ (s.post n).sport.attn0 = attn0Of s.sport.config.attn (s.sport.notices ++ [n])
          ∧ (s.post n).sport.attn1 = attn1Of s.sport.config.attn (s.sport.notices ++ [n]))
      ∧ (16 ≤ s.sport.notices.length →
        (s.post n).sport.notices = s.sport.notices ∧ (s.post n).sport.overflow = true ∧ (s.post n).sport.attn0 = s.sport.attn0
          ∧ (s.post n).sport.attn1 = s.sport.attn1
          ∧ (∀ a dropped, s.sport.transaction = some ⟨a, .clearOverflow dropped⟩ →
            (s.post n).sport.transaction = some ⟨a, .clearOverflow true⟩
              ∧ ∃ t, exec .overflowFlagCleared (s.post n) = .next t ∧ t.sport.overflow = true)))
    ∧ ∀ q : List Notice,
      let call := fun (n : Notice) => n.code = 1#8 ∨ n.code = 2#8 ∨ n.code = 3#8 ∨ n.code = 4#8 ∨ n.code = 5#8
      (attn0Of .single q = true ↔ q ≠ []) ∧ attn1Of .single q = false
        ∧ (attn0Of .split q = true ↔ ∃ n ∈ q, call n) ∧ (attn1Of .split q = true ↔ ∃ n ∈ q, ¬ call n))
  ∧ (∀ (i : Ref) (c : CallId),
      let carries := fun (n : Notice) (code : Byte) (detail : List Byte) =>
        n.code = code ∧ n.refByte = byte i.val ∧ n.callBytes = [c.orig, c.seq] ∧ n.detail = detail
      let carriesNone := fun (n : Notice) (code : Byte) (detail : List Byte) =>
        n.code = code ∧ n.refByte = 0xFF#8 ∧ n.callBytes = [0#8, 0#8] ∧ n.detail = detail
      let state := fun (d : CallDetail) (detail : List Byte) => carries (.callState i c d) 0x02#8 detail
      (∀ a r u p w, carries (.incoming i c a r u p w) 0x01#8 ([a, r] ++ wordBytes u ++ [byte p, byte w]))
        ∧ (∀ u, state (.seeking u) (0x01#8 :: wordBytes u))
        ∧ (∀ p m f, state (.ringing p m f) [0x02#8, byte p, byte m, flagByte f])
        ∧ (∀ a w, state (.claiming a w) [0x03#8, a, byte w]) ∧ (∀ p, state (.waiting p) [0x04#8, byte p])
        ∧ (∀ b w f, state (.settling b w f) [0x05#8, byte b, byte w, flagByte f])
        ∧ (∀ w, state (.answering w) [0x09#8, w]) ∧ state .awaitPath [0x0A#8]
        ∧ (∀ b w f o, carries (.path i c b w f o) 0x03#8 [byte b, byte w, flagByte f, flagByte o])
        ∧ (∀ k, carries (.callEnded i c k) 0x04#8 [causeByte k])
        ∧ (∀ r x, carries (.door (some i) c r x) 0x05#8 [r.code, x] ∧ (Notice.door none c r x).code = 0x05#8
          ∧ (Notice.door none c r x).refByte = 0xFF#8 ∧ (Notice.door none c r x).callBytes = [c.orig, c.seq]
          ∧ (Notice.door none c r x).detail = [r.code, x])
        ∧ (∀ k e, carriesNone (.fault k e) 0x06#8 [k.code, flagByte e])
        ∧ (∀ p n r, carriesNone (.station p n r) 0x07#8 [p.code, n.code, r.code])
        ∧ (∀ a b d e f, carriesNone (.divergence a b d e f) 0x08#8 [a, byte b, byte d, byte e, byte f])
        ∧ (∀ r, carriesNone (.learnRestart r) 0x09#8 [r.code]) ∧ (∀ k, carries (.sendFailed i c k) 0x0A#8 [k.code]))
  ∧ ([DoorResult.energized, .fault, .notInTalk, .noReply].map DoorResult.code = [0x01#8, 0x02#8, 0x03#8, 0x04#8]
      ∧ [FaultNotice.strike, .ringer, .conflict].map FaultNotice.code = [0x01#8, 0x02#8, 0x03#8]
      ∧ [StationReason.configured, .joinRequested, .learned, .restartRequested, .left, .riserLost, .riserReturned, .conflict].map
          StationReason.code = [0x01#8, 0x02#8, 0x03#8, 0x04#8, 0x05#8, 0x06#8, 0x07#8, 0x08#8]
      ∧ [StationState.unconfigured, .configured, .learning, .joined, .leaving, .isolated].map StationState.code
          = [0x00#8, 0x01#8, 0x02#8, 0x03#8, 0x04#8, 0x05#8]
      ∧ [LearnReason.overflow, .joinDropped].map LearnReason.code = [0x01#8, 0x02#8])

/-! ### Laws -/

/-- The copy, the directory, the queue, the notices, the lock, the contexts, the strike, the ringer, the alerting set and the door
requests stand lawful after reset. -/
def Obligations.ResetIsLawful : Prop :=
  SlotLaw State.reset.smu ∧ DirectoryLaw State.reset ∧ QueueLaw State.reset ∧ NoticeLaw State.reset ∧ RoleLaw State.reset
    ∧ ContextLaw State.reset ∧ StrikeLaw State.reset ∧ RingerLaw State.reset ∧ AlertLaw State.reset ∧ DoorLaw State.reset

/-- Every step keeps the slot map's law: aligned blocks that share no channel, no call id twice, and no free channel beside a waiting
call. -/
def Obligations.SlotLawIsKept : Prop := KeptByStep fun s => SlotLaw s.smu

/-- Every step keeps the directory's law. -/
def Obligations.DirectoryLawIsKept : Prop := KeptByStep DirectoryLaw

/-- Every step keeps the allowances of the transmit queue, and with them its limit of 12 frames. -/
def Obligations.QueueLawIsKept : Prop := KeptByStep QueueLaw ∧ ∀ s, QueueLaw s → s.rif.queue.length ≤ 12

/-- Every step keeps the notice queue's limit and the attention lines, the lock of the record, the strike off under a strike fault,
and the ringer silent exactly while the alerting set is empty. From a state whose copy, role limit and contexts are lawful, every step keeps
the transmitter law: an enable is ON only on a channel that the copy holds for a context in SETTLING or TALK, or in CLEARING for at
most 10 ms more, and the port owner, its rate and its gate stand as the arbitration gives them; after reset it holds. -/
def Obligations.OutputLawsAreKept : Prop :=
  KeptByStep NoticeLaw ∧ KeptByStep LockLaw ∧ KeptByStep StrikeLaw ∧ KeptByStep RingerLaw
    ∧ PathLaw State.reset
    ∧ (∀ s t, PathLaw s → SlotLaw s.smu → RoleLaw s → ContextLaw s → step s = .next t → PathLaw t)

/-- Every step keeps the role limit of live contexts, and nothing live off the riser. Every step keeps each context's timers to its
state. From a state whose path, contexts and role limit are lawful, every step keeps OKU's alerting set the set of contexts in ALERTING,
and a door request pending only for an ANSWER-side context in TALK. -/
def Obligations.ContextLawsAreKept : Prop :=
  KeptByStep RoleLaw
  ∧ KeptByStep ContextLaw
  ∧ (∀ s t, AlertLaw s → PathLaw s → ContextLaw s → RoleLaw s → step s = .next t → AlertLaw t)
  ∧ (∀ s t, DoorLaw s → PathLaw s → ContextLaw s → RoleLaw s → step s = .next t → DoorLaw t)

/-- A frame that suits its kind is read from its kind code and body bytes as it was. The configuration record's bytes: a CONFIGURE's
field bytes give a record exactly where they are the bytes of a valid one. -/
def Obligations.FramesAndRecordsAreReadAsSent : Prop :=
  (∀ f : Frame, f.suits = true → parseFrame f.kind.code f.body = some f)
  ∧ (∀ (fs : List Byte) (r : ConfigRecord), parseConfig fs = some r ↔ r.valid = true ∧ fs = configBytes r)

end Statements
end

