-- ==== Sys2Proof/Laws/Calm.lean ====
section
/-! SUPPORT. What the operations of CENG, of PATH's commands and of UDIR's seeks leave alone, said once: `Calm a t`. From it follow
the frames of those operations and the laws of the notice queue and the transmit queue. Each lemma has the form
"Calm a s gives Calm a (s.op …)", so that a chain of operations is one chain of lemmas. -/

namespace Sys2Proof.Machine

/-- The part of RIF that no queue request or recall changes. -/
def Rif.still (r : Rif) : Supply × Timer × Timer × Polarity × Bool := (r.supply, r.lossTimer, r.returnTimer, r.polarity, r.spoilMark)

/-- The part of STC that only STC's own events change: all but the call sequence counter. -/
def Stc.still (c : Stc) : StationState × Bool × List (Byte × Frame) × Timer × Timer × LearnOutcome :=
  (c.state, c.locked, c.buffer, c.learn, c.stagger, c.outcome)

/-- The part of OKU that no call changes: keys, strike and faults. -/
def Oku.still (o : Oku) : KeyState × KeyState × KeyState × Timer × FaultInput × FaultInput :=
  (o.hook, o.doorKey, o.deskKey, o.strike, o.strikeFault, o.ringerFault)

/-- From a to t only contexts, seek records, PATH, alerting set, door records, the call sequence counter and recalls may have
changed, notices may have been posted and frames queued. -/
structure Calm (a t : State) : Prop where
  pending : t.pending = a.pending
  now : t.now = a.now
  eventNo : t.eventNo = a.eventNo
  pins : t.pins = a.pins
  smu : t.smu = a.smu
  stc : t.stc.still = a.stc.still
  rif : t.rif.still = a.rif.still
  lines : t.udir.lines = a.udir.lines
  oku : t.oku.still = a.oku.still
  fwd : t.path.fwd = a.path.fwd
  ret : t.path.ret = a.path.ret
  config : t.sport.config = a.sport.config
  dnd : t.sport.dnd = a.sport.dnd
  queued : a.rif.queue <+: t.rif.queue
  posted : a.sport.notices <+: t.sport.notices
  notices : NoticeLaw a → NoticeLaw t
  allowances : QueueLaw a → QueueLaw t
  ringing : RingerLaw a → RingerLaw t

theorem Calm.refl (a : State) : Calm a a where
  pending := rfl
  now := rfl
  eventNo := rfl
  pins := rfl
  smu := rfl
  stc := rfl
  rif := rfl
  lines := rfl
  oku := rfl
  fwd := rfl
  ret := rfl
  config := rfl
  dnd := rfl
  queued := List.prefix_refl _
  posted := List.prefix_refl _
  notices := id
  allowances := id
  ringing := id

theorem Calm.trans {a s t : State} (h : Calm a s) (k : Calm s t) : Calm a t where
  pending := k.pending.trans h.pending
  now := k.now.trans h.now
  eventNo := k.eventNo.trans h.eventNo
  pins := k.pins.trans h.pins
  smu := k.smu.trans h.smu
  stc := k.stc.trans h.stc
  rif := k.rif.trans h.rif
  lines := k.lines.trans h.lines
  oku := k.oku.trans h.oku
  fwd := k.fwd.trans h.fwd
  ret := k.ret.trans h.ret
  config := k.config.trans h.config
  dnd := k.dnd.trans h.dnd
  queued := h.queued.trans k.queued
  posted := h.posted.trans k.posted
  notices := k.notices ∘ h.notices
  allowances := k.allowances ∘ h.allowances
  ringing := k.ringing ∘ h.ringing

/-! ### Updates of one block -/

/-- Contexts alone changed. -/
theorem Calm.withCtxs {a s : State} (h : Calm a s) (v : Vector (Option Ctx) 4) : Calm a { s with ctxs := v } :=
  h.trans { Calm.refl s with }

/-- Recalls alone changed. -/
theorem Calm.withRecalls {a s : State} (h : Calm a s) (r : List Recall) : Calm a { s with rif := { s.rif with recalls := r } } :=
  h.trans { Calm.refl s with }

/-- UDIR alone changed, the lines apart. -/
theorem Calm.withUdir {a s : State} (h : Calm a s) (u : Udir) (hl : u.lines = s.udir.lines) : Calm a { s with udir := u } :=
  h.trans { Calm.refl s with lines := hl }

/-- PATH alone changed, the detectors apart. -/
theorem Calm.withPath {a s : State} (h : Calm a s) (p : Path) (hf : p.fwd = s.path.fwd) (hr : p.ret = s.path.ret) :
    Calm a { s with path := p } :=
  h.trans { Calm.refl s with fwd := hf, ret := hr }

/-- The alerting set, the ringer and the door records alone changed. -/
theorem Calm.withOku {a s : State} (h : Calm a s) (o : Oku) (ho : o.still = s.oku.still)
    (hr : RingerLaw s → RingerLaw { s with oku := o }) : Calm a { s with oku := o } :=
  h.trans { Calm.refl s with oku := ho, ringing := hr }

/-- The call sequence counter alone changed. -/
theorem Calm.withSequence {a s : State} (h : Calm a s) (q : Byte) : Calm a { s with stc := { s.stc with sequence := q } } :=
  h.trans { Calm.refl s with }

/-! ### Ops -/

variable {a s : State}

theorem Calm.setCtx (h : Calm a s) (i : Ref) (c : Option Ctx) : Calm a (s.setCtx i c) := h.withCtxs _

theorem Calm.modifyCtx (h : Calm a s) (i : Ref) (f : Ctx → Ctx) : Calm a (s.modifyCtx i f) := by
  unfold State.modifyCtx; split
  · exact h.setCtx _ _
  · exact h

theorem Calm.eachRef (h : Calm a s) {f : State → Ref → State} (hf : ∀ t i, Calm a t → Calm a (f t i)) : Calm a (s.eachRef f) :=
  hf _ _ (hf _ _ (hf _ _ (hf _ _ h)))

theorem Calm.eachCtx (h : Calm a s) {f : State → Ref → Ctx → State} (hf : ∀ t i c, Calm a t → Calm a (f t i c)) :
    Calm a (s.eachCtx f) := by
  refine h.eachRef fun t i ht => ?_
  split
  · exact hf _ _ _ ht
  · exact ht

theorem Calm.foldl {β : Type} (h : Calm a s) {f : State → β → State} (hf : ∀ t b, Calm a t → Calm a (f t b)) (l : List β) :
    Calm a (l.foldl f s) := by
  induction l generalizing s with
  | nil => exact h
  | cons b l ih => exact ih (hf _ _ h)

/-- A posting appends its notice while fewer than 16 wait, and otherwise leaves the queue (R180). -/
theorem post_notices (s : State) (n : Notice) :
    (s.post n).sport.notices =
      if s.sport.notices.length < Config.noticeCap then s.sport.notices ++ [n] else s.sport.notices := by
  unfold State.post; split <;> rfl

theorem noticeLaw_post (s : State) (n : Notice) (h : NoticeLaw s) : NoticeLaw (s.post n) := by
  unfold State.post
  split
  · rename_i hl
    refine ⟨?_, rfl, rfl⟩
    show (s.sport.notices ++ [n]).length ≤ _
    rw [List.length_append]
    exact hl
  · exact h

theorem Calm.post (h : Calm a s) (n : Notice) : Calm a (s.post n) := by
  refine h.trans ?_
  have hn := noticeLaw_post s n
  unfold State.post at hn ⊢
  split
  · rename_i hl
    rw [if_pos hl] at hn
    exact { Calm.refl s with posted := List.prefix_append _ _, notices := hn }
  · exact { Calm.refl s with }

/-- The queue after a queue request (R47, R48). -/
theorem queueFrame_queue (s : State) (f : Frame) :
    (s.queueFrame f).rif.queue = if s.accepts f then s.rif.queue ++ [⟨f, 0, .waiting⟩] else s.rif.queue := by
  unfold State.queueFrame; split <;> rfl

/-- A queue request keeps the allowances (R48). -/
theorem queueLaw_queueFrame (s : State) (f : Frame) (h : QueueLaw s) : QueueLaw (s.queueFrame f) := by
  unfold State.queueFrame
  split
  · rename_i ha
    obtain ⟨hc, hatt, hcar⟩ := h
    refine ⟨fun k => ?_, fun e he => ?_, ?_⟩
    · show (s.rif.queue ++ [(⟨f, 0, .waiting⟩ : Entry)]).countP _ ≤ _
      have hk := hc k
      simp only [Rif.count] at hk
      simp only [List.countP_append, List.countP_cons, List.countP_nil]
      by_cases hf : frameCategory f = k
      · subst hf
        simp only [State.accepts, Bool.and_eq_true, Rif.count] at ha
        have := of_decide_eq_true ha.2
        simp only [decide_true, if_true]
        omega
      · simpa [hf] using hk
    · rcases List.mem_append.mp he with he | he
      · exact hatt e he
      · rw [List.mem_singleton.mp he]; show 0 < Config.dropAttempts; decide
    · show (s.rif.queue ++ [(⟨f, 0, .waiting⟩ : Entry)]).countP _ ≤ 1
      simpa [List.countP_append] using hcar
  · exact h

theorem Calm.queueFrame (h : Calm a s) (f : Frame) : Calm a (s.queueFrame f) := by
  refine h.trans ?_
  have hq := queueLaw_queueFrame s f
  unfold State.queueFrame at hq ⊢
  split
  · rename_i ha
    rw [if_pos ha] at hq
    exact { Calm.refl s with queued := List.prefix_append _ _, allowances := hq }
  · exact Calm.refl s

/-- A queue request changes RIF alone. -/
theorem queueFrame_udir (s : State) (f : Frame) : (s.queueFrame f).udir = s.udir := by
  unfold State.queueFrame; split <;> rfl

theorem Calm.askRecall (h : Calm a s) (id : FrameId) : Calm a (s.askRecall id) := by
  unfold State.askRecall; split
  · exact h.withRecalls _
  · exact h

/-! ### UDIR: seeks and the shared place -/

theorem Calm.handOut (h : Calm a s) : Calm a s.handOut := by
  unfold State.handOut; dsimp only
  split
  · exact h
  split
  · split
    · exact (h.queueFrame _).withUdir _ (by rw [queueFrame_udir])
    · exact h
  · split
    · split
      · exact (h.queueFrame _).withUdir _ (by rw [queueFrame_udir])
      · exact h
    · exact h

theorem Calm.joinSeek (h : Calm a s) (i : Ref) (u : UnitNum) : Calm a (s.joinSeek i u) := by
  unfold State.joinSeek; split
  · exact h.withUdir _ (by rfl)
  · exact (h.withUdir _ (by rfl)).handOut

theorem Calm.leaveSeek (h : Calm a s) (i : Ref) : Calm a (s.leaveSeek i) := by
  unfold State.leaveSeek; split
  · dsimp only; split
    · split
      · exact (h.withUdir _ (by rfl)).askRecall _
      · exact h.withUdir _ (by rfl)
    · exact h.withUdir _ (by rfl)
  · exact h

theorem Calm.openSeek (h : Calm a s) (u : UnitNum) : Calm a (s.openSeek u) := h.withUdir _ (by rfl)
theorem Calm.removeSeek (h : Calm a s) (u : UnitNum) : Calm a (s.removeSeek u) := h.withUdir _ (by rfl)
theorem Calm.setOffer (h : Calm a s) (o : OfferState) : Calm a (s.setOffer o) := h.withUdir _ (by rfl)

theorem Calm.oweOffer (h : Calm a s) : Calm a s.oweOffer := by
  unfold State.oweOffer; split
  · exact (h.setOffer _).handOut
  · exact h

theorem Calm.seekTaken (h : Calm a s) (sender : Byte) (u : UnitNum) : Calm a (s.seekTaken sender u) := by
  unfold State.seekTaken; dsimp only
  repeat' split
  all_goals first
    | exact h
    | exact h.handOut
    | exact (h.openSeek _).handOut
    | exact h.oweOffer
    | exact (h.openSeek _).oweOffer
    | exact ((h.askRecall _).openSeek _).oweOffer
    | exact h.openSeek _
    | exact (h.askRecall _).openSeek _

/-! ### OKU: alerting set and door records -/

theorem Oku.followAlerting_still (o : Oku) (now : Nat) : (o.followAlerting now).still = o.still := by
  unfold Oku.followAlerting; repeat' split
  all_goals rfl

/-- The ringer is SILENT exactly while the alerting set is empty, once it has followed the set (R169). -/
theorem Oku.followAlerting_law (o : Oku) (now : Nat) :
    (o.followAlerting now).ringer = .silent ↔ ∀ i : Ref, (o.followAlerting now).alerting[i] = false := by
  have hany : (refs.any fun i => o.alerting[i]) = true ↔ ¬ ∀ i : Ref, o.alerting[i] = false := by
    simp only [List.any_eq_true, refs]
    constructor
    · rintro ⟨i, _, hi⟩ hall; exact absurd (hall i) (by simp [hi])
    · intro hn
      by_contra hc
      refine hn fun i => ?_
      cases hi : o.alerting[i] with
      | false => rfl
      | true => exact absurd ⟨i, by fin_cases i <;> simp, hi⟩ hc
  unfold Oku.followAlerting
  split
  · rename_i h
    split
    · exact ⟨fun k => (Ringer.noConfusion k), fun k => absurd k (hany.mp h)⟩
    · rename_i hr
      exact ⟨fun k => (by rw [hr] at k; cases k), fun k => absurd k (hany.mp h)⟩
  · rename_i h
    refine ⟨fun _ => ?_, fun _ => rfl⟩
    by_contra hc
    exact h (hany.mpr hc)

theorem Calm.setAlerting (h : Calm a s) (i : Ref) (b : Bool) : Calm a (s.setAlerting i b) :=
  h.withOku _ (Oku.followAlerting_still _ _) fun _ => Oku.followAlerting_law _ _

theorem Calm.setDoor (h : Calm a s) (i : Ref) (t : Timer) : Calm a (s.setDoor i t) := h.withOku _ rfl id

/-! ### PATH -/

theorem Path.setBlock_fwd (p : Path) (b : Block) (e : Option Enable) : (p.setBlock b e).fwd = p.fwd := rfl
theorem Path.setBlock_ret (p : Path) (b : Block) (e : Option Enable) : (p.setBlock b e).ret = p.ret := rfl

theorem Path.setContent_fwd (p : Path) (i : Ref) (c : Content) : (p.setContent i c).fwd = p.fwd := by
  unfold Path.setContent; repeat' split
  all_goals rfl

theorem Path.setContent_ret (p : Path) (i : Ref) (c : Content) : (p.setContent i c).ret = p.ret := by
  unfold Path.setContent; repeat' split
  all_goals rfl

theorem Path.withOwner_fwd (p : Path) (o : Option Ref) : (p.withOwner o).fwd = p.fwd := by
  unfold Path.withOwner; repeat' split
  all_goals rfl

theorem Path.withOwner_ret (p : Path) (o : Option Ref) : (p.withOwner o).ret = p.ret := by
  unfold Path.withOwner; repeat' split
  all_goals rfl

theorem Path.changeOwner_fwd (p : Path) (o : Option Ref) : (p.changeOwner o).fwd = p.fwd := by
  unfold Path.changeOwner; dsimp only; rw [Path.withOwner_fwd]
  repeat' split
  all_goals simp [Path.setContent_fwd]

theorem Path.changeOwner_ret (p : Path) (o : Option Ref) : (p.changeOwner o).ret = p.ret := by
  unfold Path.changeOwner; dsimp only; rw [Path.withOwner_ret]
  repeat' split
  all_goals simp [Path.setContent_ret]

theorem Path.remove_fwd (p : Path) (i : Ref) : (p.remove i).fwd = p.fwd := by
  unfold Path.remove; repeat' split
  all_goals rfl

theorem Path.remove_ret (p : Path) (i : Ref) : (p.remove i).ret = p.ret := by
  unfold Path.remove; repeat' split
  all_goals rfl

theorem Calm.postPath (h : Calm a s) (i : Ref) (o : Bool) : Calm a (s.postPath i o) := by
  unfold State.postPath; split
  · exact h.post _
  · exact h

theorem Calm.reckonOwner (h : Calm a s) : Calm a s.reckonOwner := by
  have hp : ∀ o, Calm a { s with path := s.path.changeOwner o } := fun o =>
    h.withPath _ (Path.changeOwner_fwd _ _) (Path.changeOwner_ret _ _)
  unfold State.reckonOwner; dsimp only
  repeat' split
  all_goals first
    | exact h
    | exact hp _
    | exact (hp _).postPath _ _

theorem Calm.startSettle (h : Calm a s) (i : Ref) (side : Side) (b : Block) (t : Bool) : Calm a (s.startSettle i side b t) := by
  unfold State.startSettle
  exact Calm.reckonOwner (h.withPath _ (by rfl) (by rfl))

theorem Calm.cutPath (h : Calm a s) (i : Ref) : Calm a (s.cutPath i) := h.withPath _ (Path.remove_fwd _ _) (Path.remove_ret _ _)

theorem Calm.teardown (h : Calm a s) (i : Ref) : Calm a (s.teardown i) := by
  unfold State.teardown
  cases s.path.record i with
  | none => exact h
  | some r =>
    dsimp only
    split
    · exact (h.cutPath _).reckonOwner
    · refine Calm.reckonOwner (Calm.withPath h _ ?_ ?_)
      · rw [Path.setContent_fwd]; rfl
      · rw [Path.setContent_ret]; rfl

theorem Path.dropRec_det (p q : Path) (b : Block) (i : Ref) :
    (if p.litOn b i then q.setRec i none else q).fwd = q.fwd ∧ (if p.litOn b i then q.setRec i none else q).ret = q.ret := by
  split <;> exact ⟨rfl, rfl⟩

theorem Calm.freeBlock (h : Calm a s) (b : Block) : Calm a (s.freeBlock b) := by
  refine h.withPath _ ?_ ?_
  · rw [Path.setBlock_fwd]; dsimp only
    rw [(Path.dropRec_det _ _ _ _).1, (Path.dropRec_det _ _ _ _).1, (Path.dropRec_det _ _ _ _).1, (Path.dropRec_det _ _ _ _).1]
  · rw [Path.setBlock_ret]; dsimp only
    rw [(Path.dropRec_det _ _ _ _).2, (Path.dropRec_det _ _ _ _).2, (Path.dropRec_det _ _ _ _).2, (Path.dropRec_det _ _ _ _).2]

theorem Calm.cutUnbacked (h : Calm a s) (i : Ref) : Calm a (s.cutUnbacked i) := by
  unfold State.cutUnbacked; split
  · split
    · exact h.withPath _ rfl rfl
    · exact h
  · exact h

theorem Calm.installPath (h : Calm a s) : Calm a s.installPath := (h.eachRef fun _ _ ht => ht.cutUnbacked _).reckonOwner

theorem Calm.clearPath (h : Calm a s) : Calm a s.clearPath := h.withPath _ rfl rfl

end Sys2Proof.Machine
end

