-- ==== Sys2Proof/Laws/CalmCalls.lean ====
section
/-! SUPPORT. The operations of CENG are calm, each in the chain form of Laws/Calm.lean. -/

namespace Sys2Proof.Machine

variable {a s : State}

/-! ### Ending and clearing -/

theorem Calm.dropDuties (h : Calm a s) (i : Ref) : Calm a (s.dropDuties i) := ((h.leaveSeek i).setAlerting i false).setDoor i none

theorem Calm.postEnd (h : Calm a s) (i : Ref) : Calm a (s.postEnd i) := by
  unfold State.postEnd; split
  · split
    · exact h
    · exact (h.post _).setCtx _ _
  · exact h

theorem Calm.freeCtx (h : Calm a s) (i : Ref) : Calm a (s.freeCtx i) := (h.postEnd i).setCtx i none

theorem Calm.endNow (h : Calm a s) (i : Ref) (x : Cause) : Calm a (s.endNow i x) := ((h.modifyCtx i _).dropDuties i).freeCtx i

theorem Calm.enterClearing (h : Calm a s) (i : Ref) (x : Cause) (final : Bool) : Calm a (s.enterClearing i x final) := by
  unfold State.enterClearing; dsimp only; split
  · exact ((h.modifyCtx i _).dropDuties i).postEnd i
  · exact (h.modifyCtx i _).dropDuties i

theorem Calm.setAwaits (h : Calm a s) (i : Ref) (w : Awaits) : Calm a (s.setAwaits i w) := h.modifyCtx i _

theorem Calm.queueRelease (h : Calm a s) (i : Ref) : Calm a (s.queueRelease i) := by
  unfold State.queueRelease; split
  · dsimp only; split
    · exact (h.queueFrame _).setAwaits i _
    · exact (h.post _).freeCtx i
  · exact h

theorem Calm.sendRelease (h : Calm a s) (i : Ref) : Calm a (s.sendRelease i) := by
  unfold State.sendRelease; split
  · repeat' split
    · exact h.queueRelease i
    · exact h.setAwaits i _
    · exact h.freeCtx i
  · exact h

theorem Calm.teardownThenRelease (h : Calm a s) (i : Ref) : Calm a (s.teardownThenRelease i) := by
  unfold State.teardownThenRelease; split
  · exact (h.teardown i).sendRelease i
  · exact (h.teardown i).setAwaits i _

theorem Calm.recallCall (h : Calm a s) (c : CallId) : Calm a (s.recallCall c) := ((h.askRecall _).askRecall _).askRecall _

theorem Calm.clearOrigin (h : Calm a s) (i : Ref) (x : Cause) (final : Bool) : Calm a (s.clearOrigin i x final) := by
  unfold State.clearOrigin; split
  · rename_i c _
    have h1 := (h.enterClearing i x final).recallCall c.cid
    dsimp only
    split
    · exact h1.teardownThenRelease i
    · exact h1.sendRelease i
  · exact h

theorem Calm.awaitAnswerRecall (h : Calm a s) (i : Ref) (c : CallId) : Calm a (s.awaitAnswerRecall i c) := by
  unfold State.awaitAnswerRecall; split
  · exact (h.askRecall _).setAwaits i _
  · exact h.freeCtx i

theorem Calm.clearAnswer (h : Calm a s) (i : Ref) (x : Cause) : Calm a (s.clearAnswer i x) := by
  unfold State.clearAnswer; split
  · split
    · exact (h.enterClearing i x true).awaitAnswerRecall i _
    · exact (h.enterClearing i x true).teardownThenRelease i
    · exact (h.enterClearing i x true).teardownThenRelease i
    · exact (h.enterClearing i x true).queueRelease i
    · exact h.endNow i x
    · exact h
  · exact h

theorem Calm.clearCall (h : Calm a s) (i : Ref) (x : Cause) : Calm a (s.clearCall i x) := by
  unfold State.clearCall; split
  · split
    · exact h.clearOrigin i x true
    · exact h.clearAnswer i x
  · exact h

theorem Calm.endAnswer (h : Calm a s) (i : Ref) (x : Cause) : Calm a (s.endAnswer i x) := by
  unfold State.endAnswer; split
  · split
    · exact ((h.enterClearing i x true).modifyCtx i _).awaitAnswerRecall i _
    · exact h
    · exact ((h.cutPath i).endNow i x).reckonOwner
  · exact h

theorem Calm.supersede (h : Calm a s) (i : Ref) : Calm a (s.supersede i) := h.modifyCtx i _

theorem Calm.endOrigin (h : Calm a s) (i : Ref) (x : Cause) : Calm a (s.endOrigin i x) := by
  unfold State.endOrigin; split
  · rename_i c _
    have h1 := (((h.enterClearing i x true).cutPath i).recallCall c.cid).reckonOwner
    dsimp only; split
    · exact h1.setAwaits i _
    · exact h1.freeCtx i
  · exact h

theorem Calm.makeFinal (h : Calm a s) (i : Ref) : Calm a (s.makeFinal i) := h.modifyCtx i _

/-! ### Settling and placing -/

theorem Calm.callState (h : Calm a s) (i : Ref) (d : CallDetail) : Calm a (s.callState i d) := by
  unfold State.callState; split
  · exact h.post _
  · exact h

theorem Calm.enterSettling (h : Calm a s) (i : Ref) (b : Block) (t : Bool) : Calm a (s.enterSettling i b t) := by
  unfold State.enterSettling
  cases s.ctx i with
  | none => exact h
  | some c =>
    have h1 := (h.setCtx i (some { c.stopTimers with state := .settling, path := some b, trimmed := t })).callState i
      (.settling b.1 b.2 t)
    dsimp only
    split
    · exact h1
    · split
      · exact h1.startSettle i _ _ _
      · exact h1.clearCall i _

theorem Calm.settleOn (h : Calm a s) (i : Ref) (b : Block) : Calm a (s.settleOn i b) := by
  unfold State.settleOn; split
  · exact h.enterSettling i b _
  · exact h

theorem Calm.enterWaiting (h : Calm a s) (i : Ref) (p : Nat) : Calm a (s.enterWaiting i p) := (h.modifyCtx i _).callState i _

theorem Calm.queueWait (h : Calm a s) (i : Ref) : Calm a (s.queueWait i) := by
  unfold State.queueWait; split
  · dsimp only; split
    · exact h.queueFrame _
    · exact h.clearOrigin i _ _
  · exact h

theorem Calm.chooseFrame (n : Nat) : ∀ {s : State}, Calm a s → ∀ i, Calm a (State.chooseFrame n s i) := by
  induction n with
  | zero => intro s h i; exact h.queueWait i
  | succ n ih =>
    intro s h i
    unfold State.chooseFrame
    cases s.ctx i with
    | none => exact h
    | some c =>
      dsimp only
      repeat' split
      · exact h.settleOn i _
      · exact h.enterWaiting i _
      · exact h.queueFrame _
      · exact ih (h.setCtx i _) i
      · exact (h.setCtx i _).queueWait i
      · exact h.queueWait i

theorem Calm.choose (h : Calm a s) (i : Ref) : Calm a (s.choose i) := Calm.chooseFrame _ h i

theorem Calm.claimFailed (h : Calm a s) (i : Ref) (r : ClaimReason) : Calm a (s.claimFailed i r) := by
  unfold State.claimFailed; split
  · dsimp only; split
    · exact (h.setCtx i _).choose i
    · exact (h.setCtx i _).queueWait i
  · exact h

/-! ### Reversal -/

theorem Calm.askReversal (h : Calm a s) (i : Ref) : Calm a (s.askReversal i) := by
  unfold State.askReversal; split
  · split
    · exact h.askRecall _
    · exact h.makeFinal i
  · exact h

theorem Calm.releaseRecalled (h : Calm a s) (i : Ref) : Calm a (s.releaseRecalled i) := by
  unfold State.releaseRecalled; split
  · dsimp only; split
    · split
      · exact (h.setCtx i _).enterSettling i _ _
      · exact ((h.setCtx i _).callState i _).choose i
    · exact (h.makeFinal i).queueRelease i
  · exact h

/-! ### Outcomes and change reports -/

theorem Calm.outcomeAtAnswer (h : Calm a s) (i : Ref) (c : Ctx) : Calm a (s.outcomeAtAnswer i c) := by
  unfold State.outcomeAtAnswer; split
  · exact h.endAnswer i _
  · exact h.endAnswer i _
  · exact h.supersede i
  · exact h

theorem Calm.claimOutcome (h : Calm a s) (sender : Byte) (id : CallId) (r : Option ClaimReason) (b : Block) :
    Calm a (s.claimOutcome sender id r b) := by
  refine h.eachCtx fun t i c ht => ?_
  repeat' split
  · exact ht
  · exact ht.outcomeAtAnswer i c
  · exact ht.settleOn i b
  · exact ht.claimFailed i _
  · exact ht

theorem Calm.waitOutcome (h : Calm a s) (sender : Byte) (id : CallId) (r : WaitResult) : Calm a (s.waitOutcome sender id r) := by
  refine h.eachCtx fun t i c ht => ?_
  repeat' split
  · exact ht
  · exact ht.outcomeAtAnswer i c
  · exact ht
  · exact ht.enterWaiting i _
  · exact ht.clearOrigin i _ _
  · exact ht.clearOrigin i _ _
  · exact ht

theorem Calm.releaseAt (h : Calm a s) (i : Ref) (c : Ctx) (own : Bool) (x : Byte) : Calm a (s.releaseAt i c own x) := by
  unfold State.releaseAt
  repeat' split
  · exact h.freeCtx i
  · exact h.makeFinal i
  · exact h
  · exact h.endOrigin i _
  · exact h.freeCtx i
  · exact h.supersede i
  · exact h.endAnswer i _
  · exact h.endAnswer i _
  · exact h
  · exact h.endAnswer i _

theorem Calm.reclaimAt (h : Calm a s) (i : Ref) (c : Ctx) : Calm a (s.reclaimAt i c) := by
  unfold State.reclaimAt; split
  · exact h.makeFinal i
  · exact h.endOrigin i _
  · exact h.supersede i
  · exact h.endAnswer i _

theorem Calm.newHoldAt (h : Calm a s) (i : Ref) (c : Ctx) (n : NewHold) : Calm a (s.newHoldAt i c n) := by
  unfold State.newHoldAt; split
  · exact h.enterSettling i _ _
  · exact h.enterSettling i _ _
  · exact h.settleOn i _
  · dsimp only; split
    · exact (h.modifyCtx i _).askReversal i
    · exact h.modifyCtx i _
  · exact h

theorem Calm.reportAt (h : Calm a s) (r : Report) (i : Ref) (c : Ctx) : Calm a (State.reportAt r s i c) := by
  unfold State.reportAt; repeat' split
  · exact h.releaseAt i c _ _
  · exact h.reclaimAt i c
  · exact h.newHoldAt i c _
  · exact h

theorem Calm.changeReport (h : Calm a s) (r : Report) : Calm a (s.changeReport r) := by
  unfold State.changeReport
  dsimp only
  refine Calm.reckonOwner (Calm.eachCtx ?_ fun t i c ht => ht.reportAt r i c)
  split
  · exact Calm.foldl (h.freeBlock _) (fun t i ht => ht.sendRelease i) _
  · exact h

/-! ### Ringing -/

theorem Calm.startRinging (h : Calm a s) (i : Ref) (ms : List Byte) : Calm a (s.startRinging i ms) := by
  unfold State.startRinging
  cases s.ctx i with
  | none => exact h
  | some c =>
    have h1 := (h.setCtx i (some { c with state := .ringing, members := ms })).callState i (.ringing 0 ms.length false)
    dsimp only
    split
    · exact h1.queueFrame _
    · exact h1.endNow i _

theorem Calm.queueForward (h : Calm a s) (i : Ref) (ms : List Byte) : Calm a (s.queueForward i ms) := by
  unfold State.queueForward; split
  · dsimp only; split
    · exact (h.queueFrame _).setCtx i _
    · exact (h.setCtx i _).clearOrigin i _ _
  · exact h

theorem Calm.forwardFails (h : Calm a s) (i : Ref) : Calm a (s.forwardFails i) := (h.modifyCtx i _).clearOrigin i _ _

theorem Calm.seekResult (h : Calm a s) (r : Option (List Byte)) (i : Ref) : Calm a (State.seekResult r s i) := by
  unfold State.seekResult; repeat' split
  · exact h.startRinging i _
  · exact h.endNow i _
  · exact h.queueForward i _
  · exact h.forwardFails i
  · exact h
  · exact h

theorem Calm.endSeek (h : Calm a s) (r : Seek) : Calm a (s.endSeek r) :=
  Calm.foldl (h.removeSeek _) (fun _ i ht => ht.seekResult _ i) _

theorem Calm.ringExpires (h : Calm a s) (i : Ref) : Calm a (s.ringExpires i) := by
  unfold State.ringExpires; split
  · dsimp only; repeat' split
    · exact (h.setCtx i _).clearOrigin i _ _
    · exact (h.setCtx i _).queueForward i _
    · exact ((h.setCtx i _).setCtx i _).joinSeek i _
  · exact h

theorem Calm.queueNarrowing (h : Calm a s) (i : Ref) : Calm a (s.queueNarrowing i) := by
  unfold State.queueNarrowing; split
  · dsimp only; split
    · exact (h.queueFrame _).setCtx i _
    · exact (h.setCtx i _).clearOrigin i _ _
  · exact h

theorem Calm.ownRing (h : Calm a s) (i : Ref) (p : Byte) (ms : List Byte) : Calm a (s.ownRing i p ms) := by
  unfold State.ownRing; split
  · dsimp only; repeat' split
    · exact h.setCtx i _
    · exact (h.setCtx i _).callState i _
    · exact h.queueNarrowing i
    · exact h.setCtx i _
    · exact (h.setCtx i _).queueRelease i
    · exact h.setCtx i _
    · exact h.setCtx i _
    · exact h
  · exact h

theorem Calm.refuseAt (h : Calm a s) (i : Ref) (sender r : Byte) : Calm a (s.refuseAt i sender r) := by
  unfold State.refuseAt; split
  · dsimp only; repeat' split
    all_goals first
      | exact h
      | exact (h.setCtx i _).endNow i _
      | exact h.setCtx i _
  · exact h

theorem Calm.answerAtOrigin (h : Calm a s) (i : Ref) (sender cap : Byte) : Calm a (s.answerAtOrigin i sender cap) := by
  unfold State.answerAtOrigin
  cases s.ctx i with
  | none => exact h
  | some c =>
    dsimp only
    split
    · exact h
    · split
      · refine Calm.choose (Calm.callState ?_ i _) i
        split
        · exact ((h.setCtx i _).leaveSeek i).askRecall _
        · exact (h.setCtx i _).leaveSeek i
      · split
        · exact (h.setCtx i _).askReversal i
        · exact h

/-! ### Opening contexts -/

theorem Calm.dialOpen (h : Calm a s) (i : Ref) (u : UnitNum) (w : Byte) : Calm a (s.dialOpen i u w) := by
  unfold State.dialOpen; dsimp only
  split
  · exact ((h.withSequence _).setCtx i _).startRinging i _
  · exact (((h.withSequence _).setCtx i _).joinSeek i _).callState i _

theorem Calm.deskPress (h : Calm a s) : Calm a s.deskPress := by
  unfold State.deskPress; repeat' split
  · exact h.dialOpen _ _ _
  · exact h
  · exact h

theorem Calm.refuse (h : Calm a s) (c : CallId) (r : Byte) : Calm a (s.refuse c r) := h.queueFrame _

theorem Calm.openAlerting (h : Calm a s) (i : Ref) (sender : Byte) (c : CallId) (u : UnitNum) (w role p : Byte) (ms : List Byte) :
    Calm a (s.openAlerting i sender c u w role p ms) :=
  ((h.setCtx i _).setAlerting i true).post _

theorem Calm.acceptRing (h : Calm a s) (sender : Byte) (c : CallId) (u : UnitNum) (w role p : Byte) (ms : List Byte) :
    Calm a (s.acceptRing sender c u w role p ms) := by
  unfold State.acceptRing; dsimp only; repeat' split
  all_goals first
    | exact h.refuse _ _
    | exact h.openAlerting _ _ _ _ _ _ _ _

theorem Calm.ringAtAnswer (h : Calm a s) (i : Ref) (p : Byte) (ms : List Byte) : Calm a (s.ringAtAnswer i p ms) := by
  unfold State.ringAtAnswer; split
  · dsimp only; repeat' split
    all_goals first
      | exact h
      | exact h.supersede i
      | exact h.setCtx i _
      | exact h.endAnswer i _
  · exact h

theorem Calm.ringTaken (h : Calm a s) (sender : Byte) (c : CallId) (u : UnitNum) (w role p : Byte) (ms : List Byte) :
    Calm a (s.ringTaken sender c u w role p ms) := by
  unfold State.ringTaken; repeat' split
  · exact h.refuse _ _
  · exact h
  · exact h.ringAtAnswer _ _ _
  · exact h.acceptRing _ _ _ _ _ _ _
  · exact h

/-! ### Answering and hanging up -/

theorem Calm.acceptAnswer (h : Calm a s) (i : Ref) : Calm a (s.acceptAnswer i) := by
  unfold State.acceptAnswer
  cases s.ctx i with
  | none => exact h
  | some c =>
    have h1 := ((h.setCtx i (some { c with alert := none, state := .answering })).setAlerting i false).callState i
      (.answering s.sport.config.capability)
    dsimp only
    split
    · exact h1.queueFrame _
    · exact h1.endNow i _

theorem Calm.ownAnswer (h : Calm a s) (i : Ref) : Calm a (s.ownAnswer i) := by
  unfold State.ownAnswer; split
  · dsimp only; repeat' split
    · exact h.endNow i _
    · exact (h.setCtx i _).callState i _
    · exact h.queueRelease i
    · exact h
  · exact h

theorem Calm.answerAtAnswer (h : Calm a s) (i : Ref) (sender : Byte) : Calm a (s.answerAtAnswer i sender) := by
  unfold State.answerAtAnswer; repeat' split
  all_goals first
    | exact h
    | exact h.endAnswer i _
    | exact h.supersede i

theorem Calm.atCall (h : Calm a s) (side : Side) (c : CallId) {f : State → Ref → State} (hf : ∀ t i, Calm a t → Calm a (f t i)) :
    Calm a (s.atCall side c f) := by
  unfold State.atCall; split
  · exact hf _ _ h
  · exact h

theorem Calm.atParty (h : Calm a s) (c : CallId) {f : State → Ref → State} (hf : ∀ t i, Calm a t → Calm a (f t i)) :
    Calm a (s.atParty c f) := by
  unfold State.atParty; split
  · exact hf _ _ h
  · exact h

theorem Calm.answerTaken (h : Calm a s) (sender : Byte) (c : CallId) (cap : Byte) : Calm a (s.answerTaken sender c cap) := by
  refine Calm.atCall (h.atCall _ _ fun t i ht => ht.answerAtOrigin i _ _) _ _ fun t i ht => ?_
  split
  · exact ht.ownAnswer i
  · exact ht.answerAtAnswer i _

theorem Calm.hangUp (h : Calm a s) (i : Ref) (c : Ctx) : Calm a (s.hangUp i c) := by
  unfold State.hangUp; split
  · exact h.endNow i _
  · exact h.makeFinal i
  · exact h.clearOrigin i _ _
  · exact h.clearAnswer i _

theorem Calm.onHook (h : Calm a s) : Calm a s.onHook := by
  unfold State.onHook; split
  · exact h
  · refine h.eachCtx fun t i c ht => ?_
    split
    · exact ht.hangUp i c
    · exact ht

theorem Calm.offHook (h : Calm a s) : Calm a s.offHook := by
  unfold State.offHook; split
  · exact h.acceptAnswer _
  · exact h

/-! ### Door requests -/

theorem Calm.endDoor (h : Calm a s) (i : Ref) (c : CallId) (r : DoorResult) : Calm a (s.endDoor i c r) := (h.setDoor i none).post _

theorem Calm.requestDoor (h : Calm a s) (i : Ref) (c : CallId) : Calm a (s.requestDoor i c) := by
  unfold State.requestDoor; split
  · exact (h.queueFrame _).setDoor i _
  · exact h.endDoor i c _

theorem Calm.doorPress (h : Calm a s) : Calm a s.doorPress := by
  unfold State.doorPress; repeat' split
  all_goals first
    | exact h
    | exact h.requestDoor _ _

theorem Calm.openedTaken (h : Calm a s) (sender : Byte) (c : CallId) (r : Byte) : Calm a (s.openedTaken sender c r) := by
  unfold State.openedTaken; repeat' split
  all_goals first
    | exact h
    | exact h.endDoor _ _ _

/-! ### Installation and stale self-release -/

theorem Calm.settleCtx (h : Calm a s) (i : Ref) (c : Ctx) : Calm a (s.settleCtx i c) := by
  unfold State.settleCtx; dsimp only; repeat' split
  all_goals first
    | exact h
    | exact h.clearCall i _
    | exact ((h.askRecall _).askRecall _).settleOn i _
    | exact ((h.askRecall _).askRecall _).enterWaiting i _
    | exact h.settleOn i _
    | exact h.modifyCtx i _

theorem Calm.releaseStale (h : Calm a s) (c : CallId) : Calm a (s.releaseStale c) := by
  unfold State.releaseStale; repeat' split
  · exact h
  · exact ((h.setCtx _ _).postEnd _).queueRelease _
  · exact h

theorem Calm.staleSelfRelease (h : Calm a s) : Calm a s.staleSelfRelease := h.foldl (fun _ c ht => ht.releaseStale c) _

end Sys2Proof.Machine
end

