-- ==== Sys2Proof/Laws/Keeps.lean ====
section
/-! SUPPORT. What every command keeps, said once: `Keeps a t` holds of a command's state and its next state (`keeps_exec`). The
lemmas have the chain form of Laws/Calm.lean. -/

namespace Sys2Proof.Machine

/-- The waiting commands, and the laws of the notice queue, the transmit queue, the lock, the strike and the ringer. -/
structure Keeps (a t : State) : Prop where
  pending : t.pending = a.pending
  notices : NoticeLaw a → NoticeLaw t
  allowances : QueueLaw a → QueueLaw t
  lock : LockLaw a → LockLaw t
  strike : StrikeLaw a → StrikeLaw t
  ringing : RingerLaw a → RingerLaw t

theorem Keeps.refl (a : State) : Keeps a a := ⟨rfl, id, id, id, id, id⟩

theorem Keeps.trans {a s t : State} (h : Keeps a s) (k : Keeps s t) : Keeps a t :=
  ⟨k.pending.trans h.pending, k.notices ∘ h.notices, k.allowances ∘ h.allowances, k.lock ∘ h.lock, k.strike ∘ h.strike,
    k.ringing ∘ h.ringing⟩

/-- Calm operations keep. -/
theorem Calm.keeps {a t : State} (h : Calm a t) : Keeps a t where
  pending := h.pending
  notices := h.notices
  allowances := h.allowances
  lock := fun k => by
    have h1 : t.stc.state = a.stc.state := congrArg (·.1) h.stc
    have h2 : t.stc.locked = a.stc.locked := congrArg (·.2.1) h.stc
    unfold LockLaw at k ⊢; rw [h1, h2]; exact k
  strike := fun k => by
    have h1 : t.oku.strike = a.oku.strike := congrArg (·.2.2.2.1) h.oku
    have h2 : t.oku.strikeFault = a.oku.strikeFault := congrArg (·.2.2.2.2.1) h.oku
    unfold StrikeLaw at k ⊢; rw [h1, h2]; exact k
  ringing := h.ringing

variable {a s : State}

/-- A chain goes on through a calm operation. -/
theorem Keeps.calm {t : State} (h : Keeps a s) (k : Calm s t) : Keeps a t := h.trans k.keeps

/-! ### Updates of one block -/

theorem Keeps.at (h : Keeps a s) (e : Nat) : Keeps a (s.at e) := h.trans ⟨rfl, id, id, id, id, id⟩
theorem Keeps.newEvent (h : Keeps a s) : Keeps a s.newEvent := h.trans ⟨rfl, id, id, id, id, id⟩

/-- The clock and the pins alone changed. -/
theorem Keeps.withPins (h : Keeps a s) (n : Nat) (p : Pins) : Keeps a { s with now := n, pins := p } :=
  h.trans ⟨rfl, id, id, id, id, id⟩

/-- The copy alone changed. -/
theorem Keeps.withSmu (h : Keeps a s) (m : Smu) : Keeps a { s with smu := m } := h.trans ⟨rfl, id, id, id, id, id⟩

/-- The directory alone changed. -/
theorem Keeps.withUdir (h : Keeps a s) (d : Udir) : Keeps a { s with udir := d } := h.trans ⟨rfl, id, id, id, id, id⟩

/-- PATH alone changed. -/
theorem Keeps.withPath (h : Keeps a s) (p : Path) : Keeps a { s with path := p } := h.trans ⟨rfl, id, id, id, id, id⟩

/-- STC alone changed, with the lock law kept. -/
theorem Keeps.withStc (h : Keeps a s) (c : Stc) (hl : LockLaw s → c.locked = c.state.locks) : Keeps a { s with stc := c } :=
  h.trans ⟨rfl, id, id, hl, id, id⟩

/-- RIF alone changed, with the law of its queue kept. -/
theorem Keeps.withRif (h : Keeps a s) (r : Rif) (hq : QueueLaw s → QueueLaw { s with rif := r }) : Keeps a { s with rif := r } :=
  h.trans ⟨rfl, id, hq, id, id, id⟩

/-- OKU alone changed, with its laws kept. -/
theorem Keeps.withOku (h : Keeps a s) (o : Oku) (hs : StrikeLaw s → StrikeLaw { s with oku := o })
    (hr : RingerLaw s → RingerLaw { s with oku := o }) : Keeps a { s with oku := o } :=
  h.trans ⟨rfl, id, id, id, hs, hr⟩

/-- SPORT alone changed, with its law kept. -/
theorem Keeps.withSport (h : Keeps a s) (p : Sport) (hn : NoticeLaw s → NoticeLaw { s with sport := p }) :
    Keeps a { s with sport := p } :=
  h.trans ⟨rfl, hn, id, id, id, id⟩

/-! ### The transmit queue -/

/-- A queue whose entries are a sublist of another's keeps its law. -/
theorem queueLaw_sublist {s : State} {q : List Entry} (r : List Recall) (b : Bool) (h : q.Sublist s.rif.queue)
    (hq : QueueLaw s) : QueueLaw { s with rif := { s.rif with queue := q, recalls := r, spoilMark := b } } :=
  ⟨fun k => le_trans (h.countP_le) (hq.1 k), fun e he => hq.2.1 e (h.subset he), le_trans (h.countP_le) hq.2.2⟩

theorem Keeps.emptyQueue (h : Keeps a s) : Keeps a s.emptyQueue :=
  h.withRif _ fun hq => queueLaw_sublist [] s.rif.spoilMark (List.nil_sublist _) hq

theorem Keeps.dropCarrying (h : Keeps a s) : Keeps a s.dropCarrying :=
  h.withRif _ fun hq => queueLaw_sublist s.rif.recalls s.rif.spoilMark List.eraseP_sublist hq

theorem Keeps.dropQueued (h : Keeps a s) (id : FrameId) : Keeps a (s.dropQueued id) :=
  h.withRif _ fun hq => queueLaw_sublist s.rif.recalls s.rif.spoilMark List.eraseP_sublist hq

theorem Keeps.forgetRecall (h : Keeps a s) (id : FrameId) : Keeps a (s.forgetRecall id) := h.withRif _ fun hq => hq
theorem Keeps.forgetOpenRecall (h : Keeps a s) (id : FrameId) : Keeps a (s.forgetOpenRecall id) := h.withRif _ fun hq => hq
theorem Keeps.markRecall (h : Keeps a s) (id : FrameId) (st : RecallStatus) : Keeps a (s.markRecall id st) :=
  h.withRif _ fun hq => hq
theorem Keeps.setMark (h : Keeps a s) (b : Bool) : Keeps a (s.setMark b) := h.withRif _ fun hq => hq

/-! ### SMU, UDIR and STC -/

theorem Keeps.setAudit (h : Keeps a s) (c : CallId) (x : Audit) : Keeps a (s.setAudit c x) := h.withSmu _
theorem Keeps.addHold (h : Keeps a s) (c : CallId) (b : Block) : Keeps a (s.addHold c b) := h.withSmu _
theorem Keeps.grantScan (h : Keeps a s) : Keeps a s.grantScan := h.withSmu _
theorem Keeps.removeItem (h : Keeps a s) (c : CallId) : Keeps a (s.removeItem c) := h.withSmu _
theorem Keeps.appendWait (h : Keeps a s) (c : CallId) (w : Nat) : Keeps a (s.appendWait c w) := h.withSmu _
theorem Keeps.emptyCopy (h : Keeps a s) : Keeps a s.emptyCopy := h.withSmu _
theorem Keeps.installCopy (h : Keeps a s) (hs : List SnapHold) (ws : List SnapWait) : Keeps a (s.installCopy hs ws) := h.withSmu _
theorem Keeps.rearm (h : Keeps a s) (c : CallId) : Keeps a (s.rearm c) := h.setAudit _ _
theorem Keeps.directoryJoin (h : Keeps a s) (x r : Byte) (u : UnitNum) (w : Byte) : Keeps a (s.directoryJoin x r u w) := h.withUdir _
theorem Keeps.directoryLeave (h : Keeps a s) (x : Byte) : Keeps a (s.directoryLeave x) := h.withUdir _
theorem Keeps.purgeLines (h : Keeps a s) : Keeps a s.purgeLines := h.withUdir _
theorem Keeps.closeSeeks (h : Keeps a s) : Keeps a s.closeSeeks := h.withUdir _
theorem Keeps.stopLearning (h : Keeps a s) : Keeps a s.stopLearning := h.withStc _ id
theorem Keeps.stopStagger (h : Keeps a s) : Keeps a s.stopStagger := h.withStc _ id
theorem Keeps.setOutcome (h : Keeps a s) (o : LearnOutcome) : Keeps a (s.setOutcome o) := h.withStc _ id

theorem Keeps.directoryOffer (h : Keeps a s) (x : Byte) (u : UnitNum) (w : Byte) : Keeps a (s.directoryOffer x u w) := by
  unfold State.directoryOffer; split
  · exact h.withUdir _
  · exact h

theorem Keeps.queueReclaim (h : Keeps a s) (c : CallId) : Keeps a (s.queueReclaim c) := by
  unfold State.queueReclaim; split
  · exact (h.calm ((Calm.refl s).queueFrame _)).setAudit _ _
  · exact h

theorem Keeps.nextOverdue (h : Keeps a s) : Keeps a s.nextOverdue := by
  unfold State.nextOverdue; split
  · exact h.queueReclaim _
  · exact h

theorem Keeps.offerTaken (h : Keeps a s) (x : Byte) (u : UnitNum) (w : Byte) : Keeps a (s.offerTaken x u w) := by
  unfold State.offerTaken; dsimp only; split
  · exact (h.directoryOffer _ _ _).calm (((Calm.refl _).setOffer _).handOut)
  · exact h.directoryOffer _ _ _

theorem Keeps.moveTo (h : Keeps a s) (n : StationState) (r : StationReason) : Keeps a (s.moveTo n r) :=
  Keeps.calm (h.withStc { s.stc with state := n, locked := n.locks } fun _ => rfl) ((Calm.refl _).post _)

/-! ### Frames that change the copy -/

theorem Keeps.claimTaken (h : Keeps a s) (x : Byte) (c : CallId) (b w : Byte) : Keeps a (s.claimTaken x c b w) := by
  unfold State.claimTaken; dsimp only; split
  · exact (h.addHold _ _).calm (((Calm.refl _).claimOutcome _ _ _ _).changeReport _)
  · exact h.calm (((Calm.refl _).claimOutcome _ _ _ _).changeReport _)

theorem Keeps.waitTaken (h : Keeps a s) (x : Byte) (c : CallId) (w : Byte) : Keeps a (s.waitTaken x c w) := by
  unfold State.waitTaken; dsimp only; split
  · exact ((h.appendWait _ _).grantScan).calm (((Calm.refl _).waitOutcome _ _ _).changeReport _)
  · exact h.calm (((Calm.refl _).waitOutcome _ _ _).changeReport _)

theorem Keeps.freeCall (h : Keeps a s) (k : FrameKind) (x : Byte) (c : CallId) (cause : Option Byte) :
    Keeps a (s.freeCall k x c cause) := by
  have h1 := (h.removeItem c).calm ((Calm.refl _).askRecall ⟨.reclaim, .call c⟩)
  unfold State.freeCall; dsimp only; split
  · exact h1.grantScan.calm ((Calm.refl _).changeReport _)
  · exact h1.calm ((Calm.refl _).changeReport _)

theorem Keeps.releaseTaken (h : Keeps a s) (x : Byte) (c : CallId) (k : Byte) : Keeps a (s.releaseTaken x c k) := h.freeCall _ _ _ _

theorem Keeps.reclaimTaken (h : Keeps a s) (x : Byte) (c : CallId) : Keeps a (s.reclaimTaken x c) := by
  have h2 : Keeps a (if s.smu.has c then s.freeCall .reclaim x c none else s.changeReport (s.removalReport .reclaim x c none)) := by
    split
    · exact h.freeCall _ _ _ _
    · exact h.calm ((Calm.refl _).changeReport _)
  unfold State.reclaimTaken; dsimp only
  split
  · exact h2.nextOverdue
  · exact h2

/-! ### The station controller -/

theorem Keeps.endAll (h : Keeps a s) : Keeps a s.endAll := h.calm ((Calm.refl s).eachCtx fun _ i _ ht => ht.endNow i _)

theorem Keeps.offRiser (h : Keeps a s) : Keeps a s.offRiser :=
  ((((h.endAll).calm (Calm.refl _).clearPath).emptyQueue.emptyCopy).stopLearning).closeSeeks

theorem Keeps.enterIsolated (h : Keeps a s) : Keeps a s.enterIsolated := h.offRiser.moveTo _ _

theorem Keeps.enterConfigured (h : Keeps a s) (r : StationReason) : Keeps a (s.enterConfigured r) := h.offRiser.purgeLines.moveTo _ _

theorem Keeps.conflict (h : Keeps a s) : Keeps a s.conflict := (h.offRiser.purgeLines.calm ((Calm.refl _).post _)).moveTo _ _

theorem Keeps.riserLost (h : Keeps a s) : Keeps a s.riserLost := by
  unfold State.riserLost; split
  · exact h.enterIsolated
  · exact h.enterIsolated
  · exact h.enterConfigured _
  · exact h

theorem Keeps.forgetPolarity (h : Keeps a s) : Keeps a s.forgetPolarity := h.withRif _ fun hq => hq

theorem Keeps.enterLearning (h : Keeps a s) (r : StationReason) : Keeps a (s.enterLearning r) :=
  ((((((h.moveTo _ _).emptyCopy).calm (Calm.refl _).clearPath).stopLearning.closeSeeks).setOutcome _).forgetPolarity).calm
    ((Calm.refl _).queueFrame _)

theorem Keeps.riserReturned (h : Keeps a s) : Keeps a s.riserReturned := by
  unfold State.riserReturned; split
  · exact h.enterLearning _
  · exact h

theorem Keeps.learnRestart (h : Keeps a s) (r : LearnReason) : Keeps a (s.learnRestart r) := by
  have h1 := (h.stopLearning.emptyCopy).setOutcome .none
  unfold State.learnRestart; dsimp only
  refine Keeps.calm ?_ ((Calm.refl _).post _)
  split
  · exact h1
  · exact h1.calm ((Calm.refl _).queueFrame _)

theorem Calm.recallReclaim (h : Calm a s) : Calm a s.recallReclaim := by
  unfold State.recallReclaim; split
  · exact h.askRecall _
  · exact h

theorem Keeps.install (h : Keeps a s) (hs : List SnapHold) (ws : List SnapWait) : Keeps a (s.install hs ws) :=
  ((h.installCopy hs ws).calm (Calm.refl _).recallReclaim).calm
    (Calm.foldl (Calm.refl _).installPath (fun _ i ht => ht.sendRelease i) _)

theorem Keeps.becomeJoined (h : Keeps a s) (o : LearnOutcome) : Keeps a (s.becomeJoined o) :=
  (((h.stopLearning).setOutcome o).moveTo _ _).calm (Calm.refl _).staleSelfRelease

theorem Keeps.learnSnapshot (h : Keeps a s) (hs : List SnapHold) (ws : List SnapWait) : Keeps a (s.learnSnapshot hs ws) := by
  unfold State.learnSnapshot; split
  · exact (h.install hs ws).becomeJoined _
  · exact h

theorem Keeps.learnFrame (h : Keeps a s) (x : Byte) (f : Frame) : Keeps a (s.learnFrame x f) := by
  unfold State.learnFrame; split
  · exact h.withStc _ id
  · exact h.learnRestart _

theorem Keeps.applyBuffered (h : Keeps a s) (x : Byte × Frame) : Keeps a (s.applyBuffered x) := by
  obtain ⟨b, f⟩ := x
  cases f with
  | claim c n w => exact h.newEvent.claimTaken b c n w
  | wait c w => exact h.newEvent.waitTaken b c w
  | release c k => exact h.newEvent.releaseTaken b c k
  | reclaim c => exact h.newEvent.reclaimTaken b c
  | join r u w => exact h.newEvent.directoryJoin b r u w
  | offer u w => exact h.newEvent.directoryOffer b u w
  | leave => exact h.newEvent.directoryLeave b
  | _ => exact h.newEvent

theorem Keeps.foldl {β : Type} (h : Keeps a s) {f : State → β → State} (hf : ∀ t b, Keeps a t → Keeps a (f t b)) (l : List β) :
    Keeps a (l.foldl f s) := by
  induction l generalizing s with
  | nil => exact h
  | cons b l ih => exact ih (hf _ _ h)

theorem Keeps.learnExpires (h : Keeps a s) : Keeps a s.learnExpires := (h.foldl (fun _ x ht => ht.applyBuffered x) _).becomeJoined _

theorem Keeps.joinTaken (h : Keeps a s) (x r : Byte) (u : UnitNum) (w : Byte) : Keeps a (s.joinTaken x r u w) := by
  unfold State.joinTaken State.armStagger; dsimp only; repeat' split
  · exact (h.directoryJoin _ _ _ _).withStc _ id
  · exact h.directoryJoin _ _ _ _
  · exact h.directoryJoin _ _ _ _

theorem Keeps.staggerExpires (h : Keeps a s) : Keeps a s.staggerExpires := by
  unfold State.staggerExpires; split
  · exact h.stopStagger.calm ((Calm.refl _).queueFrame _)
  · exact h.stopStagger

theorem Keeps.snapshotTaken (h : Keeps a s) (x : Byte) (hs : List SnapHold) (ws : List SnapWait) :
    Keeps a (s.snapshotTaken x hs ws) := by
  have h1 := h.stopStagger.calm ((Calm.refl _).askRecall ⟨.snapshot, .bare⟩)
  unfold State.snapshotTaken State.joinedSnapshot; dsimp only; repeat' split
  · exact h1
  · exact ((h1.calm ((Calm.refl _).post _)).install hs ws).calm
      (((Calm.refl _).eachCtx fun _ i c ht => ht.settleCtx i c).staleSelfRelease)
  · exact h

theorem Calm.leaveCheck (h : Calm a s) : Calm a s.leaveCheck := by
  unfold State.leaveCheck; split
  · exact h.queueFrame _
  · exact h

theorem Keeps.leaveTaken (h : Keeps a s) (x : Byte) : Keeps a (s.leaveTaken x) := by
  unfold State.leaveTaken; dsimp only; split
  · exact (h.directoryLeave _).enterConfigured _
  · exact h.directoryLeave _

theorem Calm.restartCtx (h : Calm a s) (i : Ref) (c : Ctx) : Calm a (s.restartCtx i c) := by
  unfold State.restartCtx; repeat' split
  · exact h.makeFinal i
  · exact h
  · exact h.clearCall i _

theorem Keeps.enterLeaving (h : Keeps a s) : Keeps a s.enterLeaving := by
  have h1 := h.stopStagger.calm ((((Calm.refl _).askRecall ⟨.snapshot, .bare⟩).askRecall s.joinFrame.ident).eachCtx
    fun _ i c ht => ht.restartCtx i c)
  unfold State.enterLeaving; dsimp only
  refine Keeps.calm (Keeps.moveTo ?_ _ _) (Calm.refl _).leaveCheck
  split
  · exact h1.calm ((Calm.refl _).setOffer _)
  · exact h1

/-! ### Taken frames -/

theorem Keeps.deliver (h : Keeps a s) (x : Byte) (f : Frame) {learn act : State → State}
    (hl : ∀ t, Keeps a t → Keeps a (learn t)) (ha : ∀ t, Keeps a t → Keeps a (act t)) : Keeps a (s.deliver x f learn act) := by
  unfold State.deliver; repeat' split
  · exact h
  · exact hl _ h.newEvent
  · exact (ha _ h.newEvent).calm (Calm.refl _).leaveCheck

theorem Keeps.taking (h : Keeps a s) (x : Byte) (f : Frame) {learn act : State → State}
    (hl : ∀ t, Keeps a t → Keeps a (learn t)) (ha : ∀ t, Keeps a t → Keeps a (act t)) : Keeps a (s.taking x f learn act) := by
  unfold State.taking; repeat' split
  · exact h
  · exact ((h.dropCarrying).markRecall _ _).deliver x f hl ha
  · exact h
  · exact h.conflict
  · exact h.deliver x f hl ha

theorem Keeps.takes (h : Keeps a s) (x : Byte) (f : Frame) {act : State → State} (ha : ∀ t, Keeps a t → Keeps a (act t)) :
    Keeps a (s.takes x f act) :=
  h.taking x f (fun _ ht => ht.learnFrame x f) ha

/-- An OPEN may energize the strike, never while its fault status is SET (R167, R168). -/
theorem openResult_energized (s : State) (x : Byte) (c : CallId) (h : s.openResult x c = .energized) :
    s.oku.strikeFault.sticky = false := by
  unfold State.openResult at h
  split at h
  · cases h
  · split at h
    · cases h
    · rename_i hs; simpa using hs

theorem Keeps.openTaken (h : Keeps a s) (x : Byte) (c : CallId) : Keeps a (s.openTaken x c) := by
  unfold State.openTaken; dsimp only; split
  · exact h
  · refine Keeps.calm ?_ (((Calm.refl _).queueFrame _).post _)
    split
    · rename_i hr
      unfold State.energize
      refine h.withOku _ (fun _ hst => ?_) (fun hl => hl)
      have hst : s.oku.strikeFault.sticky = true := hst
      rw [openResult_energized s x c hr] at hst
      cases hst
    · exact h

theorem Calm.refuseTaken (h : Calm a s) (x : Byte) (c : CallId) (r : Byte) : Calm a (s.refuseTaken x c r) :=
  h.atCall _ _ fun _ i ht => ht.refuseAt i _ _

theorem Calm.ringAny (h : Calm a s) (x : Byte) (c : CallId) (u : UnitNum) (w role p : Byte) (ms : List Byte) :
    Calm a (s.ringAny x c u w role p ms) := by
  unfold State.ringAny; repeat' split
  · exact h.refuse _ _
  · exact h.atCall _ _ fun _ i ht => ht.ownRing i _ _
  · exact h.ringTaken _ _ _ _ _ _ _

/-! ### Drops and recalls -/

theorem Calm.ringGone (h : Calm a s) (i : Ref) (c : Ctx) : Calm a (s.ringGone i c) := by
  unfold State.ringGone; split
  · exact h.freeCtx i
  · exact h.setCtx i _

theorem Calm.ringDropped (h : Calm a s) (i : Ref) : Calm a (s.ringDropped i) := by
  unfold State.ringDropped; repeat' split
  · exact h.ringGone i _
  · exact h.endNow i _
  · exact (h.setCtx i _).clearOrigin i _ _
  · exact h

theorem Calm.callFrameGone (h : Calm a s) (i : Ref) (c : Ctx) : Calm a (s.callFrameGone i c) := by
  unfold State.callFrameGone; split
  · exact h.freeCtx i
  · exact h

theorem Calm.claimDropped (h : Calm a s) (i : Ref) : Calm a (s.claimDropped i) := by
  unfold State.claimDropped; repeat' split
  · exact h.claimFailed i _
  · exact h.callFrameGone i _
  · exact h

theorem Calm.waitDropped (h : Calm a s) (i : Ref) : Calm a (s.waitDropped i) := by
  unfold State.waitDropped; repeat' split
  · exact h.clearOrigin i _ _
  · exact h.callFrameGone i _
  · exact h

theorem Calm.answerDropped (h : Calm a s) (i : Ref) : Calm a (s.answerDropped i) := by
  unfold State.answerDropped; repeat' split
  · exact h.endNow i _
  · exact h.freeCtx i
  · exact h
  · exact h

theorem Calm.releaseDropped (h : Calm a s) (i : Ref) : Calm a (s.releaseDropped i) := by
  unfold State.releaseDropped; repeat' split
  · exact (h.post _).freeCtx i
  · exact h
  · exact h

theorem Calm.seekDropped (h : Calm a s) (u : UnitNum) : Calm a (s.seekDropped u) := by
  unfold State.seekDropped; repeat' split
  · exact (h.endSeek _).handOut
  · exact h.handOut
  · exact h.handOut

theorem Calm.openDropped (h : Calm a s) (i : Ref) : Calm a (s.openDropped i) := by
  unfold State.openDropped; repeat' split
  · exact h.endDoor i _ _
  · exact h
  · exact h

theorem Keeps.joinDropped (h : Keeps a s) : Keeps a s.joinDropped := by
  unfold State.joinDropped; split
  · exact h.learnRestart _
  · exact h.calm ((Calm.refl _).queueFrame _)
  · exact h

theorem Keeps.frameDropped (h : Keeps a s) (f : Frame) : Keeps a (s.frameDropped f) := by
  cases f with
  | snapshot _ _ => exact h
  | reclaim c => exact (h.rearm c).nextOverdue
  | join _ _ _ => exact h.joinDropped
  | leave => exact h.enterConfigured _
  | seek u => exact h.calm ((Calm.refl _).seekDropped u)
  | offer _ _ => exact h.calm (((Calm.refl _).setOffer _).handOut)
  | ring c _ _ _ _ _ => exact h.calm ((Calm.refl _).atCall _ c fun _ i ht => ht.ringDropped i)
  | answer c _ => exact h.calm ((Calm.refl _).atCall _ c fun _ i ht => ht.answerDropped i)
  | refuse _ _ => exact h
  | claim c _ _ => exact h.calm ((Calm.refl _).atCall _ c fun _ i ht => ht.claimDropped i)
  | wait c _ => exact h.calm ((Calm.refl _).atCall _ c fun _ i ht => ht.waitDropped i)
  | release c _ => exact h.calm ((Calm.refl _).atParty c fun _ i ht => ht.releaseDropped i)
  | open_ c => exact h.calm ((Calm.refl _).atCall _ c fun _ i ht => ht.openDropped i)
  | opened _ _ => exact h

theorem Calm.callFrameTaken (h : Calm a s) (i : Ref) (c : Ctx) : Calm a (s.callFrameTaken i c) := by
  unfold State.callFrameTaken; repeat' split
  · exact h.queueRelease i
  · exact h.freeCtx i
  · exact h

theorem Calm.callFrameAnswer (h : Calm a s) (i : Ref) (x : RecallAnswer) : Calm a (s.callFrameAnswer i x) := by
  unfold State.callFrameAnswer; repeat' split
  · exact h.callFrameGone i _
  · exact h.callFrameTaken i _
  · exact h

theorem Calm.ringAnswer (h : Calm a s) (i : Ref) (x : RecallAnswer) : Calm a (s.ringAnswer i x) := by
  unfold State.ringAnswer; repeat' split
  · exact h.ringGone i _
  · exact h
  · exact h

theorem Calm.answerAnswer (h : Calm a s) (i : Ref) : Calm a (s.answerAnswer i) := by
  unfold State.answerAnswer; repeat' split
  · exact h.freeCtx i
  · exact h
  · exact h

theorem Calm.releaseAnswer (h : Calm a s) (i : Ref) (x : RecallAnswer) : Calm a (s.releaseAnswer i x) := by
  unfold State.releaseAnswer; repeat' split
  · exact h.releaseRecalled i
  · exact h
  · exact h
  · exact h

theorem Keeps.recallResult (h : Keeps a s) (id : FrameId) (x : RecallAnswer) : Keeps a (s.recallResult id x) := by
  unfold State.recallResult; split
  · split
    · exact h.nextOverdue
    · exact h
  · split
    · exact h.calm (Calm.refl _).handOut
    · exact h
  · exact h.calm ((Calm.refl _).atCall _ _ fun _ i ht => ht.ringAnswer i x)
  · exact h.calm ((Calm.refl _).atCall _ _ fun _ i ht => ht.callFrameAnswer i x)
  · exact h.calm ((Calm.refl _).atCall _ _ fun _ i ht => ht.callFrameAnswer i x)
  · exact h.calm ((Calm.refl _).atCall _ _ fun _ i ht => ht.answerAnswer i)
  · exact h.calm ((Calm.refl _).atParty _ fun _ i ht => ht.releaseAnswer i x)
  · exact h

theorem Keeps.deliverAnswer (h : Keeps a s) (id : FrameId) (x : RecallAnswer) : Keeps a (s.deliverAnswer id x) := by
  unfold State.deliverAnswer; dsimp only
  refine Keeps.calm ?_ (Calm.refl _).leaveCheck
  split
  · exact h.newEvent.forgetRecall _
  · exact (h.newEvent.forgetRecall _).recallResult _ _

end Sys2Proof.Machine
end

