-- ==== Sys2Proof/Laws/Exec.lean ====
section
/-! SUPPORT. Every command answers a next state and keeps what Laws/Keeps.lean lists: the meanings of resets, riser events, timers,
keys, faults and requests, and `keeps_exec` over all of them. -/

namespace Sys2Proof.Machine

variable {a s : State}

/-! ### Reset, supply and openings -/

theorem Keeps.powerOn (h : Keeps a s) : Keeps a s.powerOn :=
  h.trans
    { pending := rfl
      notices := fun _ => ⟨Nat.zero_le _, rfl, rfl⟩
      allowances := fun _ => ⟨fun _ => Nat.zero_le _, fun _ he => absurd he (List.not_mem_nil), Nat.zero_le _⟩
      lock := fun _ => rfl
      strike := fun _ hs => by cases hs
      ringing := fun _ => ⟨fun _ i => by fin_cases i <;> rfl, fun _ => rfl⟩ }

/-- The start of a carriage changes the entry's contents where it is a SNAPSHOT, and its carriage alone otherwise. -/
theorem startCarriage_spec (f : Frame) (hf : f.kind = .snapshot) (k : Nat) (q : List Entry) :
    (startCarriage f k q).map (fun e => (frameCategory e.frame, e.attempts)) = q.map (fun e => (frameCategory e.frame, e.attempts))
      ∧ (startCarriage f k q).countP (fun e => e.carriage = .carrying) ≤ q.countP (fun e => e.carriage = .carrying) + 1 := by
  induction q with
  | nil => exact ⟨rfl, Nat.zero_le _⟩
  | cons e q ih =>
    unfold startCarriage
    split
    · constructor
      · simp only [List.map_cons, List.cons.injEq, Prod.mk.injEq, and_true]
        split
        · rename_i he; simp only [frameCategory, hf, he]
        · rfl
      · simp only [List.countP_cons, decide_true, if_true]; omega
    · constructor
      · simp only [List.map_cons, ih.1]
      · simp only [List.countP_cons]; have := ih.2; omega

/-- Lists of entries with equal categories have equal counts. -/
theorem count_of_categories {q r : List Entry}
    (h : q.map (fun e => (frameCategory e.frame, e.attempts)) = r.map (fun e => (frameCategory e.frame, e.attempts))) (k : Category) :
    q.countP (fun e => frameCategory e.frame = k) = r.countP (fun e => frameCategory e.frame = k) := by
  have hq : ∀ l : List Entry, l.countP (fun e => decide (frameCategory e.frame = k))
      = (l.map fun e => (frameCategory e.frame, e.attempts)).countP (fun p => decide (p.1 = k)) := by
    intro l; rw [List.countP_map]; rfl
  rw [hq, hq, h]

/-- An entry's attempts are among the attempts of a list with equal categories and attempts. -/
theorem attempts_of_categories {q r : List Entry}
    (h : q.map (fun e => (frameCategory e.frame, e.attempts)) = r.map (fun e => (frameCategory e.frame, e.attempts)))
    {n : Nat} (hr : ∀ e ∈ r, e.attempts < n) : ∀ e ∈ q, e.attempts < n := by
  intro e he
  have hm := List.mem_map_of_mem (f := fun e => (frameCategory e.frame, e.attempts)) he
  rw [h] at hm
  obtain ⟨x, hx, hxe⟩ := List.mem_map.mp hm
  have := hr x hx
  simp only [Prod.mk.injEq] at hxe
  omega

/-- With no entry in carriage, none is counted. -/
theorem no_carrying (s : State) (h : s.carrying = none) : s.rif.queue.countP (fun e => e.carriage = .carrying) = 0 := by
  rw [List.countP_eq_zero]
  intro e he
  have := List.find?_eq_none.mp h e he
  simpa using this

theorem Keeps.startCarriage (h : Keeps a s) (k : Nat) (hc : s.carrying = none) :
    Keeps a { s with rif := { s.rif with queue := startCarriage s.smu.compose k s.rif.queue } } := by
  refine h.withRif _ fun hq => ?_
  have hs := startCarriage_spec s.smu.compose rfl k s.rif.queue
  refine ⟨fun c => ?_, attempts_of_categories hs.1 hq.2.1, ?_⟩
  · show (Machine.startCarriage _ _ _).countP _ ≤ _
    rw [count_of_categories hs.1]; exact hq.1 c
  · have := hs.2; rw [no_carrying s hc] at this; exact this

/-! ### Spoiled frames -/

/-- With at most one entry in carriage, it is the one found. -/
theorem carrying_unique {s : State} {e x : Entry} (hq : s.rif.queue.countP (fun e => e.carriage = .carrying) ≤ 1)
    (he : s.carrying = some e) (hx : x ∈ s.rif.queue) (hc : x.carriage = .carrying) : x = e := by
  obtain ⟨hp, l, r, hl, hn⟩ := List.find?_eq_some_iff_append.mp he
  rw [hl] at hq hx
  rw [List.countP_append, List.countP_cons, if_pos hp] at hq
  have hr : r.countP (fun e => decide (e.carriage = .carrying)) = 0 := by omega
  rcases List.mem_append.mp hx with h | h
  · have := hn x h; simp [hc] at this
  · rcases List.mem_cons.mp h with h | h
    · exact h
    · exact absurd (by simpa using hc) (List.countP_eq_zero.mp hr x h)

/-- A spoiled attempt below the sixteenth keeps the queue's law (R53). -/
theorem Keeps.countSpoil (h : Keeps a s) {e : Entry} (hc : s.carrying = some e) (he : e.attempts + 1 < Config.dropAttempts) :
    Keeps a (s.modifyCarrying fun x => { x with attempts := x.attempts + 1, carriage := .waiting }) := by
  refine h.withRif _ fun hq => ⟨fun k => ?_, fun y hy => ?_, ?_⟩
  · show (s.rif.queue.map _).countP _ ≤ _
    rw [List.countP_map]
    refine le_trans (le_of_eq (List.countP_congr fun e _ => ?_)) (hq.1 k)
    simp only [Function.comp]; split <;> rfl
  · obtain ⟨x, hx, hxe⟩ := List.mem_map.mp hy
    by_cases hx' : x.carriage = .carrying
    · rw [if_pos hx'] at hxe
      subst hxe
      rw [carrying_unique hq.2.2 hc hx hx']
      exact he
    · rw [if_neg hx'] at hxe; subst hxe; exact hq.2.1 x hx
  · show (s.rif.queue.map _).countP _ ≤ 1
    rw [List.countP_map]
    refine le_of_eq_of_le (List.countP_eq_zero.mpr fun e _ => ?_) (Nat.zero_le 1)
    simp only [Function.comp]
    split
    · simp
    · rename_i hn; simpa using hn

theorem Keeps.ownSpoiled (h : Keeps a s) {e : Entry} (hc : s.carrying = some e) : Keeps a (s.ownSpoiled e) := by
  unfold State.ownSpoiled; repeat' split
  · exact h.dropCarrying.markRecall _ _
  · rename_i he; exact h.countSpoil hc he
  · exact (h.dropCarrying.forgetOpenRecall _).frameDropped _

/-! ### Timers -/

theorem Keeps.loseSupply (h : Keeps a s) : Keeps a s.loseSupply := h.trans ⟨rfl, id, (fun hq => hq), id, id, id⟩
theorem Keeps.regainSupply (h : Keeps a s) : Keeps a s.regainSupply := h.trans ⟨rfl, id, (fun hq => hq), id, id, id⟩

theorem Keeps.expire (h : Keeps a s) (t : Timer) {act : State → State} (ha : ∀ t, Keeps a t → Keeps a (act t)) :
    Keeps a (s.expire t act) := by
  unfold State.expire; split
  · exact ha _ (h.at _)
  · exact h

theorem Keeps.modifyRec (h : Keeps a s) (i : Ref) (f : PathRec → PathRec) : Keeps a (s.modifyRec i f) := by
  unfold State.modifyRec; split
  · exact h.withPath _
  · exact h

theorem Calm.reportClears (h : Calm a s) (i : Ref) (st : CtxState) (x : Cause) : Calm a (s.reportClears i st x) := by
  unfold State.reportClears; repeat' split
  · exact h.clearCall i x
  · exact h
  · exact h

theorem Keeps.settleExpires (h : Keeps a s) (i : Ref) : Keeps a (s.settleExpires i) := by
  unfold State.settleExpires; split
  · exact (h.modifyRec i _).calm ((Calm.refl _).reportClears i _ _)
  · exact h.modifyRec i _

theorem Calm.pathUp (h : Calm a s) (i : Ref) : Calm a (s.pathUp i) := h.modifyCtx i _

theorem Keeps.unmuteExpires (h : Keeps a s) (i : Ref) : Keeps a (s.unmuteExpires i) := by
  unfold State.unmuteExpires; dsimp only
  exact ((h.modifyRec i _).withPath _).calm (((Calm.refl _).pathUp i).postPath i _)

theorem Keeps.carrierLost (h : Keeps a s) (i : Ref) : Keeps a (s.carrierLost i) :=
  (h.modifyRec i _).calm ((Calm.refl _).reportClears i _ _)

theorem Calm.muteExpires (h : Calm a s) (i : Ref) : Calm a (s.muteExpires i) := by
  have h1 := (h.cutPath i).reckonOwner
  unfold State.muteExpires; dsimp only; repeat' split
  · exact (h1.sendRelease i).leaveCheck
  · exact h1
  · exact h1

theorem Keeps.detectorChanges (h : Keeps a s) (x : Half) (n : Channel) (b : Bool) : Keeps a (s.detectorChanges x n b) := by
  have hr : ∀ (t : State) (i : Ref), Keeps a t → Keeps a (match t.path.record i with
      | some r => { t with path := t.path.setRec i (some (t.path.detectorAt t.sport.config.settle t.now x n b r)) }
      | none => t) := by
    intro t i ht; split
    · exact ht.withPath _
    · exact ht
  exact hr _ _ (hr _ _ (hr _ _ (hr _ _ (h.withPath _))))

theorem Calm.replyExpires (h : Calm a s) (i : Ref) : Calm a (s.replyExpires i) := by
  unfold State.replyExpires; split
  · exact h.endDoor i _ _
  · exact h.setDoor i _

/-! ### Keys and faults -/

theorem Keeps.withKey (h : Keeps a s) (k : Key) (x : KeyState) (n : Nat) (p : Pins) :
    Keeps a { s with now := n, pins := p, oku := s.oku.setKey k x } := by
  cases k <;> exact h.trans ⟨rfl, id, id, id, id, id⟩

theorem Keeps.keyEvent (h : Keeps a s) (k : Key) (b : Bool) : Keeps a (s.keyEvent k b) := by
  unfold State.keyEvent; split
  · exact h.calm (Calm.refl _).offHook
  · exact h.calm (Calm.refl _).onHook
  · exact h.calm (Calm.refl _).doorPress
  · exact h.newEvent.calm (Calm.refl _).deskPress
  · exact h

theorem Keeps.debounceExpires (h : Keeps a s) (k : Key) : Keeps a (s.debounceExpires k) := by
  unfold State.debounceExpires; dsimp only
  exact Keeps.keyEvent (h.withKey k _ s.now s.pins) _ _

theorem Keeps.qualify (h : Keeps a s) (k : FaultKind) : Keeps a (s.qualify k) := by
  unfold State.qualify; dsimp only
  refine Keeps.calm (h.withOku _ ?_ ?_) ((Calm.refl _).post _)
  · cases k
    · exact fun _ _ => rfl
    · exact fun hs => hs
  · cases k <;> exact id

theorem Keeps.sampleFault (h : Keeps a s) (k : FaultKind) (b : Bool) : Keeps a (s.sampleFault k b) := by
  have hk : ∀ (n : Nat) (c : Bool), Keeps a
      { s with oku := s.oku.setFault k { counter := n, sticky := (s.oku.fault k).sticky, sample := c } } := by
    intro n c; cases k <;> exact h.withOku _ id id
  unfold State.sampleFault; dsimp only; repeat' split
  · exact hk _ _
  · exact hk _ _
  · exact (hk _ _).qualify k
  · exact hk _ _

/-! ### The station port -/

theorem Keeps.respond (h : Keeps a s) (st : Status) (fs : List Byte) (t : Tail) : Keeps a (s.respond st fs t) := h.withSport _ id
theorem Keeps.reply (h : Keeps a s) (st : Status) : Keeps a (s.reply st) := h.respond st [] .nothing
theorem Keeps.openTransaction (h : Keeps a s) : Keeps a s.openTransaction := h.withSport _ id

theorem Keeps.serve (h : Keeps a s) (n : Nat) (fs : List Byte) {run : State → State} (hr : ∀ t, Keeps a t → Keeps a (run t)) :
    Keeps a (s.serve n fs run) := by
  unfold State.serve; split
  · exact hr _ h.openTransaction
  · exact h.openTransaction.reply _

/-- Lines recomputed from the queue and the mode stand as R182 gives. -/
theorem Keeps.recompute (h : Keeps a s) (p : Sport) (hl : s.sport.notices.length ≤ Config.noticeCap → p.notices.length ≤ Config.noticeCap) :
    Keeps a { s with sport := p.recompute } :=
  h.withSport _ fun hn => ⟨hl hn.1, rfl, rfl⟩

theorem Keeps.acceptConfig (h : Keeps a s) (r : ConfigRecord) : Keeps a (s.acceptConfig r) := by
  have h1 := (h.recompute { s.sport with config := r } id).closeSeeks
  unfold State.acceptConfig; dsimp only; split
  · exact h1.moveTo _ _
  · exact h1

theorem Keeps.onContext (h : Keeps a s) (fs : List Byte) {run : State → Ref → Ctx → State}
    (hr : ∀ i c, Keeps a (run s i c)) : Keeps a (s.onContext fs run) := by
  unfold State.onContext; repeat' split
  · exact h.reply _
  · exact hr _ _
  · exact h.reply _
  · exact h.reply _

theorem Keeps.dial (h : Keeps a s) (u : UnitNum) (w : Byte) : Keeps a (s.dial u w) := by
  unfold State.dial; repeat' split
  · exact (h.newEvent.calm ((Calm.refl _).dialOpen _ _ _)).respond _ _ _
  · exact h.reply _
  · exact h.reply _

end Sys2Proof.Machine
end

