-- ==== Sys2Proof/Laws/ExecAll.lean ====
section
/-! SUPPORT. `keeps_exec`: every command answers a next state and keeps what Laws/Keeps.lean lists. -/

namespace Sys2Proof.Machine

theorem keeps_exec (c : Instr) (s : State) : ∃ t, exec c s = .next t ∧ Keeps s t := by
  have h := Keeps.refl s
  cases c with
  | powerOnReset => exact ⟨_, rfl, h.powerOn⟩
  | supplyFalls =>
    refine ⟨_, rfl, ?_⟩
    split
    · exact h.trans ⟨rfl, id, (fun hq => by dsimp only; split <;> exact hq), id, id, id⟩
    · exact h
  | supplyRises =>
    refine ⟨_, rfl, ?_⟩
    split
    · exact h
    · exact h.trans ⟨rfl, id, (fun hq => by dsimp only; split <;> exact hq), id, id, id⟩
  | supplyLossTimerExpiry =>
    refine ⟨_, rfl, ?_⟩
    split
    · exact (h.at _).loseSupply.riserLost
    · exact h
  | returnTimerExpiry =>
    refine ⟨_, rfl, ?_⟩
    split
    · exact (h.at _).regainSupply.riserReturned
    · exact h
  | polarityFound b =>
    refine ⟨_, rfl, ?_⟩
    split
    · exact h.withRif _ fun hq => hq
    · exact h
  | opening o n =>
    refine ⟨_, rfl, ?_⟩
    split
    · rename_i hc
      have hc : s.carrying = none := by simp only [Bool.and_eq_true, Option.isNone_iff_eq_none] at hc; exact hc.2
      repeat' split
      · exact h.startCarriage _ hc
      · exact h
      · exact h
    · exact h
  | readBackMismatch =>
    refine ⟨_, rfl, ?_⟩
    split
    · exact h.conflict
    · exact h
  | frameSpoiled x r =>
    refine ⟨_, rfl, ?_⟩
    split
    · exact h
    · split
      · rename_i e he
        exact (Keeps.ownSpoiled (s := s.newEvent.setMark false) (h.newEvent.setMark false) he).calm (Calm.refl _).leaveCheck
      · exact h.setMark _
  | recallAnswered id =>
    refine ⟨_, rfl, ?_⟩
    split
    · exact h
    · split
      · split
        · split
          · exact h.markRecall _ _
          · exact (h.dropQueued _).deliverAnswer _ _
        · exact h.deliverAnswer _ _
      · exact h
      · exact h.deliverAnswer _ _
  | unsuitedFrameTaken x k b =>
    refine ⟨_, rfl, ?_⟩
    split
    · exact h.conflict
    · exact h
  | snapshotTaken x hs ws =>
    exact ⟨_, rfl, h.taking _ _ (fun _ ht => ht.learnSnapshot hs ws) fun _ ht => ht.snapshotTaken x hs ws⟩
  | reclaimTaken x c => exact ⟨_, rfl, h.takes _ _ fun _ ht => ht.reclaimTaken x c⟩
  | joinTaken x r u w => exact ⟨_, rfl, h.takes _ _ fun _ ht => ht.joinTaken x r u w⟩
  | leaveTaken x => exact ⟨_, rfl, h.takes _ _ fun _ ht => ht.leaveTaken x⟩
  | seekTaken x u => exact ⟨_, rfl, h.takes _ _ fun _ ht => ht.calm ((Calm.refl _).seekTaken x u)⟩
  | offerTaken x u w => exact ⟨_, rfl, h.takes _ _ fun _ ht => ht.offerTaken x u w⟩
  | ringTaken x c u w r p ms => exact ⟨_, rfl, h.takes _ _ fun _ ht => ht.calm ((Calm.refl _).ringAny x c u w r p ms)⟩
  | answerTaken x c w => exact ⟨_, rfl, h.takes _ _ fun _ ht => ht.calm ((Calm.refl _).answerTaken x c w)⟩
  | refuseTaken x c r => exact ⟨_, rfl, h.takes _ _ fun _ ht => ht.calm ((Calm.refl _).refuseTaken x c r)⟩
  | claimTaken x c b w => exact ⟨_, rfl, h.takes _ _ fun _ ht => ht.claimTaken x c b w⟩
  | waitTaken x c w => exact ⟨_, rfl, h.takes _ _ fun _ ht => ht.waitTaken x c w⟩
  | releaseTaken x c k => exact ⟨_, rfl, h.takes _ _ fun _ ht => ht.releaseTaken x c k⟩
  | openTaken x c => exact ⟨_, rfl, h.takes _ _ fun _ ht => ht.openTaken x c⟩
  | openedTaken x c r => exact ⟨_, rfl, h.takes _ _ fun _ ht => ht.calm ((Calm.refl _).openedTaken x c r)⟩
  | learnTimerExpiry => exact ⟨_, rfl, h.expire _ fun _ ht => ht.learnExpires⟩
  | staggerTimerExpiry => exact ⟨_, rfl, h.expire _ fun _ ht => ht.staggerExpires⟩
  | auditExpiry c => exact ⟨_, rfl, h.expire _ fun _ ht => (ht.setAudit _ _).queueReclaim _⟩
  | seekWindowExpiry u =>
    refine ⟨_, rfl, ?_⟩
    split
    · exact h.expire _ fun _ ht => ht.newEvent.calm ((Calm.refl _).endSeek _)
    · exact h
  | ringTimerExpiry i => exact ⟨_, rfl, h.expire _ fun _ ht => ht.newEvent.calm ((Calm.refl _).ringExpires i)⟩
  | waitTimerExpiry i => exact ⟨_, rfl, h.expire _ fun _ ht => ht.calm ((Calm.refl _).clearOrigin i _ _)⟩
  | talkTimerExpiry i => exact ⟨_, rfl, h.expire _ fun _ ht => ht.calm ((Calm.refl _).clearOrigin i _ _)⟩
  | alertLimitExpiry i => exact ⟨_, rfl, h.expire _ fun _ ht => ht.calm ((Calm.refl _).endNow i _)⟩
  | pathWaitExpiry i => exact ⟨_, rfl, h.expire _ fun _ ht => ht.calm ((Calm.refl _).clearAnswer i _)⟩
  | carrierDetectorChange x n b =>
    refine ⟨_, rfl, ?_⟩
    split
    · exact h
    · exact h.detectorChanges _ _ _
  | settleTimerExpiry i => exact ⟨_, rfl, h.expire _ fun _ ht => ht.settleExpires i⟩
  | unmuteTimerExpiry i => exact ⟨_, rfl, h.expire _ fun _ ht => ht.unmuteExpires i⟩
  | carrierLossTimerExpiry i n => exact ⟨_, rfl, h.expire _ fun _ ht => ht.carrierLost i⟩
  | muteTimerExpiry i => exact ⟨_, rfl, h.expire _ fun _ ht => ht.calm ((Calm.refl _).muteExpires i)⟩
  | keyInputChange k b => exact ⟨_, rfl, h.withKey k _ s.now _⟩
  | debounceTimerExpiry k => exact ⟨_, rfl, h.expire _ fun _ ht => ht.debounceExpires k⟩
  | replyWaitExpiry i => exact ⟨_, rfl, h.expire _ fun _ ht => ht.calm ((Calm.refl _).replyExpires i)⟩
  | strikePulseExpiry => exact ⟨_, rfl, h.expire _ fun _ ht => ht.withOku _ (fun _ _ => rfl) id⟩
  | ringerPhaseExpiry =>
    refine ⟨_, rfl, ?_⟩
    split
    · exact h
    · rename_i on e hr
      unfold State.expire
      refine (h.at e).withOku _ (fun hs => hs) fun hl => ⟨fun k => ?_, fun k => ?_⟩
      · dsimp only [nextPhase] at k; split at k <;> cases k
      · exact absurd (hl.mpr k) (by show s.oku.ringer ≠ _; rw [hr]; exact Ringer.noConfusion)
  | faultQualifies k =>
    refine ⟨_, rfl, ?_⟩
    split
    · exact h
    · exact h.sampleFault _ _
  | configure fs =>
    refine ⟨_, rfl, h.serve _ _ fun t ht => ?_⟩
    repeat' split
    · exact ht.reply _
    · exact (ht.acceptConfig _).reply _
    · exact ht.reply _
  | join fs =>
    refine ⟨_, rfl, h.serve _ _ fun t ht => ?_⟩
    repeat' split
    · exact ht.reply _
    · exact (ht.enterLearning _).reply _
    · exact ht.enterIsolated.reply _
    · exact ht.reply _
    · exact ht.reply _
  | restart fs =>
    refine ⟨_, rfl, h.serve _ _ fun t ht => ?_⟩
    repeat' split
    · exact ht.reply _
    · exact ht.reply _
    · exact (ht.enterConfigured _).reply _
    · exact (ht.enterConfigured _).reply _
    · exact ht.enterLeaving.reply _
    · exact ht.reply _
  | dial fs =>
    refine ⟨_, rfl, h.serve _ _ fun t ht => ?_⟩
    split
    · exact ht.dial _ _
    · exact ht.reply _
  | answer fs =>
    refine ⟨_, rfl, h.serve _ _ fun t ht => ht.onContext _ fun i c => ?_⟩
    split
    · exact (ht.calm ((Calm.refl _).acceptAnswer i)).reply _
    · exact ht.reply _
  | hangup fs =>
    refine ⟨_, rfl, h.serve _ _ fun t ht => ht.onContext _ fun i c => ?_⟩
    split
    · exact (ht.calm ((Calm.refl _).hangUp i c)).reply _
    · exact ht.reply _
  | openDoor fs =>
    refine ⟨_, rfl, h.serve _ _ fun t ht => ht.onContext _ fun i c => ?_⟩
    split
    · exact (ht.calm ((Calm.refl _).requestDoor i _)).reply _
    · exact ht.reply _
  | setDnd fs =>
    refine ⟨_, rfl, h.serve _ _ fun t ht => ?_⟩
    repeat' split
    · exact ht.reply _
    · exact ht.reply _
    · refine Keeps.reply ?_ _
      exact ht.trans ⟨rfl, id, (fun hq => hq), id, id, id⟩
  | clearFault fs =>
    refine ⟨_, rfl, h.serve _ _ fun t ht => ?_⟩
    split
    · exact ht.reply _
    · rename_i k _
      dsimp only
      repeat' split
      · exact ht.reply _
      · exact ht.reply _
      · refine (ht.withOku _ ?_ ?_).reply _
        · cases k
          · exact fun _ hs => by cases hs
          · exact id
        · cases k <;> exact id
  | purge fs => exact ⟨_, rfl, h.serve _ _ fun t ht => ht.purgeLines.reply _⟩
  | readNotice fs => exact ⟨_, rfl, h.serve _ _ fun t ht => ht.respond _ _ _⟩
  | noticeRemoved =>
    refine ⟨_, rfl, ?_⟩
    split
    · split
      · exact h.recompute _ fun hl => by show (s.sport.notices.drop 1).length ≤ _; rw [List.length_drop]; omega
      · exact h
    · exact h
  | readStatus fs => exact ⟨_, rfl, h.serve _ _ fun t ht => ht.respond _ _ _⟩
  | overflowFlagCleared =>
    refine ⟨_, rfl, ?_⟩
    repeat' split
    · exact h.withSport _ id
    · exact h
    · exact h
  | readSlots fs => exact ⟨_, rfl, h.serve _ _ fun t ht => ht.respond _ _ _⟩
  | readWaits fs => exact ⟨_, rfl, h.serve _ _ fun t ht => ht.respond _ _ _⟩
  | readLine fs =>
    refine ⟨_, rfl, h.serve _ _ fun t ht => ?_⟩
    split
    · exact ht.respond _ _ _
    · exact ht.reply _
  | readContext fs =>
    refine ⟨_, rfl, h.serve _ _ fun t ht => ?_⟩
    split
    · exact ht.respond _ _ _
    · exact ht.reply _
  | unknownRequest c fs =>
    refine ⟨_, rfl, ?_⟩
    split
    · exact h
    · exact h.openTransaction.reply _
  | transactionDiscarded => exact ⟨_, rfl, h.openTransaction⟩
  | faultSample x y => exact ⟨_, rfl, (((h.withPins _ s.pins).sampleFault _ _).sampleFault _ _)⟩

end Sys2Proof.Machine
end

