-- ==== Sys2Proof/Laws/State.lean ====
section
/-! SUPPORT. What each update of one part leaves alone: one lemma for each field of State an update does not write, true by rfl and
a simp lemma, then the same for the shared operations that test before they write. -/

namespace Sys2Proof.Machine

variable (s : State)

/-! ### Updates of one part -/

@[simp] theorem State.at_eventNo (e : Nat) : (s.at e).eventNo = s.eventNo := rfl
@[simp] theorem State.at_pins (e : Nat) : (s.at e).pins = s.pins := rfl
@[simp] theorem State.at_rif (e : Nat) : (s.at e).rif = s.rif := rfl
@[simp] theorem State.at_smu (e : Nat) : (s.at e).smu = s.smu := rfl
@[simp] theorem State.at_stc (e : Nat) : (s.at e).stc = s.stc := rfl
@[simp] theorem State.at_udir (e : Nat) : (s.at e).udir = s.udir := rfl
@[simp] theorem State.at_ctxs (e : Nat) : (s.at e).ctxs = s.ctxs := rfl
@[simp] theorem State.at_path (e : Nat) : (s.at e).path = s.path := rfl
@[simp] theorem State.at_oku (e : Nat) : (s.at e).oku = s.oku := rfl
@[simp] theorem State.at_sport (e : Nat) : (s.at e).sport = s.sport := rfl
@[simp] theorem State.at_pending (e : Nat) : (s.at e).pending = s.pending := rfl

@[simp] theorem State.newEvent_now : s.newEvent.now = s.now := rfl
@[simp] theorem State.newEvent_pins : s.newEvent.pins = s.pins := rfl
@[simp] theorem State.newEvent_rif : s.newEvent.rif = s.rif := rfl
@[simp] theorem State.newEvent_smu : s.newEvent.smu = s.smu := rfl
@[simp] theorem State.newEvent_stc : s.newEvent.stc = s.stc := rfl
@[simp] theorem State.newEvent_udir : s.newEvent.udir = s.udir := rfl
@[simp] theorem State.newEvent_ctxs : s.newEvent.ctxs = s.ctxs := rfl
@[simp] theorem State.newEvent_path : s.newEvent.path = s.path := rfl
@[simp] theorem State.newEvent_oku : s.newEvent.oku = s.oku := rfl
@[simp] theorem State.newEvent_sport : s.newEvent.sport = s.sport := rfl
@[simp] theorem State.newEvent_pending : s.newEvent.pending = s.pending := rfl

@[simp] theorem State.setCtx_now (i : Ref) (c : Option Ctx) : (s.setCtx i c).now = s.now := rfl
@[simp] theorem State.setCtx_eventNo (i : Ref) (c : Option Ctx) : (s.setCtx i c).eventNo = s.eventNo := rfl
@[simp] theorem State.setCtx_pins (i : Ref) (c : Option Ctx) : (s.setCtx i c).pins = s.pins := rfl
@[simp] theorem State.setCtx_rif (i : Ref) (c : Option Ctx) : (s.setCtx i c).rif = s.rif := rfl
@[simp] theorem State.setCtx_smu (i : Ref) (c : Option Ctx) : (s.setCtx i c).smu = s.smu := rfl
@[simp] theorem State.setCtx_stc (i : Ref) (c : Option Ctx) : (s.setCtx i c).stc = s.stc := rfl
@[simp] theorem State.setCtx_udir (i : Ref) (c : Option Ctx) : (s.setCtx i c).udir = s.udir := rfl
@[simp] theorem State.setCtx_path (i : Ref) (c : Option Ctx) : (s.setCtx i c).path = s.path := rfl
@[simp] theorem State.setCtx_oku (i : Ref) (c : Option Ctx) : (s.setCtx i c).oku = s.oku := rfl
@[simp] theorem State.setCtx_sport (i : Ref) (c : Option Ctx) : (s.setCtx i c).sport = s.sport := rfl
@[simp] theorem State.setCtx_pending (i : Ref) (c : Option Ctx) : (s.setCtx i c).pending = s.pending := rfl

@[simp] theorem State.forgetRecall_now (id : FrameId) : (s.forgetRecall id).now = s.now := rfl
@[simp] theorem State.forgetRecall_eventNo (id : FrameId) : (s.forgetRecall id).eventNo = s.eventNo := rfl
@[simp] theorem State.forgetRecall_pins (id : FrameId) : (s.forgetRecall id).pins = s.pins := rfl
@[simp] theorem State.forgetRecall_smu (id : FrameId) : (s.forgetRecall id).smu = s.smu := rfl
@[simp] theorem State.forgetRecall_stc (id : FrameId) : (s.forgetRecall id).stc = s.stc := rfl
@[simp] theorem State.forgetRecall_udir (id : FrameId) : (s.forgetRecall id).udir = s.udir := rfl
@[simp] theorem State.forgetRecall_ctxs (id : FrameId) : (s.forgetRecall id).ctxs = s.ctxs := rfl
@[simp] theorem State.forgetRecall_path (id : FrameId) : (s.forgetRecall id).path = s.path := rfl
@[simp] theorem State.forgetRecall_oku (id : FrameId) : (s.forgetRecall id).oku = s.oku := rfl
@[simp] theorem State.forgetRecall_sport (id : FrameId) : (s.forgetRecall id).sport = s.sport := rfl
@[simp] theorem State.forgetRecall_pending (id : FrameId) : (s.forgetRecall id).pending = s.pending := rfl

@[simp] theorem State.forgetOpenRecall_now (id : FrameId) : (s.forgetOpenRecall id).now = s.now := rfl
@[simp] theorem State.forgetOpenRecall_eventNo (id : FrameId) : (s.forgetOpenRecall id).eventNo = s.eventNo := rfl
@[simp] theorem State.forgetOpenRecall_pins (id : FrameId) : (s.forgetOpenRecall id).pins = s.pins := rfl
@[simp] theorem State.forgetOpenRecall_smu (id : FrameId) : (s.forgetOpenRecall id).smu = s.smu := rfl
@[simp] theorem State.forgetOpenRecall_stc (id : FrameId) : (s.forgetOpenRecall id).stc = s.stc := rfl
@[simp] theorem State.forgetOpenRecall_udir (id : FrameId) : (s.forgetOpenRecall id).udir = s.udir := rfl
@[simp] theorem State.forgetOpenRecall_ctxs (id : FrameId) : (s.forgetOpenRecall id).ctxs = s.ctxs := rfl
@[simp] theorem State.forgetOpenRecall_path (id : FrameId) : (s.forgetOpenRecall id).path = s.path := rfl
@[simp] theorem State.forgetOpenRecall_oku (id : FrameId) : (s.forgetOpenRecall id).oku = s.oku := rfl
@[simp] theorem State.forgetOpenRecall_sport (id : FrameId) : (s.forgetOpenRecall id).sport = s.sport := rfl
@[simp] theorem State.forgetOpenRecall_pending (id : FrameId) : (s.forgetOpenRecall id).pending = s.pending := rfl

@[simp] theorem State.markRecall_now (id : FrameId) (x : RecallStatus) : (s.markRecall id x).now = s.now := rfl
@[simp] theorem State.markRecall_eventNo (id : FrameId) (x : RecallStatus) : (s.markRecall id x).eventNo = s.eventNo := rfl
@[simp] theorem State.markRecall_pins (id : FrameId) (x : RecallStatus) : (s.markRecall id x).pins = s.pins := rfl
@[simp] theorem State.markRecall_smu (id : FrameId) (x : RecallStatus) : (s.markRecall id x).smu = s.smu := rfl
@[simp] theorem State.markRecall_stc (id : FrameId) (x : RecallStatus) : (s.markRecall id x).stc = s.stc := rfl
@[simp] theorem State.markRecall_udir (id : FrameId) (x : RecallStatus) : (s.markRecall id x).udir = s.udir := rfl
@[simp] theorem State.markRecall_ctxs (id : FrameId) (x : RecallStatus) : (s.markRecall id x).ctxs = s.ctxs := rfl
@[simp] theorem State.markRecall_path (id : FrameId) (x : RecallStatus) : (s.markRecall id x).path = s.path := rfl
@[simp] theorem State.markRecall_oku (id : FrameId) (x : RecallStatus) : (s.markRecall id x).oku = s.oku := rfl
@[simp] theorem State.markRecall_sport (id : FrameId) (x : RecallStatus) : (s.markRecall id x).sport = s.sport := rfl
@[simp] theorem State.markRecall_pending (id : FrameId) (x : RecallStatus) : (s.markRecall id x).pending = s.pending := rfl

@[simp] theorem State.dropCarrying_now : s.dropCarrying.now = s.now := rfl
@[simp] theorem State.dropCarrying_eventNo : s.dropCarrying.eventNo = s.eventNo := rfl
@[simp] theorem State.dropCarrying_pins : s.dropCarrying.pins = s.pins := rfl
@[simp] theorem State.dropCarrying_smu : s.dropCarrying.smu = s.smu := rfl
@[simp] theorem State.dropCarrying_stc : s.dropCarrying.stc = s.stc := rfl
@[simp] theorem State.dropCarrying_udir : s.dropCarrying.udir = s.udir := rfl
@[simp] theorem State.dropCarrying_ctxs : s.dropCarrying.ctxs = s.ctxs := rfl
@[simp] theorem State.dropCarrying_path : s.dropCarrying.path = s.path := rfl
@[simp] theorem State.dropCarrying_oku : s.dropCarrying.oku = s.oku := rfl
@[simp] theorem State.dropCarrying_sport : s.dropCarrying.sport = s.sport := rfl
@[simp] theorem State.dropCarrying_pending : s.dropCarrying.pending = s.pending := rfl

@[simp] theorem State.modifyCarrying_now (f : Entry → Entry) : (s.modifyCarrying f).now = s.now := rfl
@[simp] theorem State.modifyCarrying_eventNo (f : Entry → Entry) : (s.modifyCarrying f).eventNo = s.eventNo := rfl
@[simp] theorem State.modifyCarrying_pins (f : Entry → Entry) : (s.modifyCarrying f).pins = s.pins := rfl
@[simp] theorem State.modifyCarrying_smu (f : Entry → Entry) : (s.modifyCarrying f).smu = s.smu := rfl
@[simp] theorem State.modifyCarrying_stc (f : Entry → Entry) : (s.modifyCarrying f).stc = s.stc := rfl
@[simp] theorem State.modifyCarrying_udir (f : Entry → Entry) : (s.modifyCarrying f).udir = s.udir := rfl
@[simp] theorem State.modifyCarrying_ctxs (f : Entry → Entry) : (s.modifyCarrying f).ctxs = s.ctxs := rfl
@[simp] theorem State.modifyCarrying_path (f : Entry → Entry) : (s.modifyCarrying f).path = s.path := rfl
@[simp] theorem State.modifyCarrying_oku (f : Entry → Entry) : (s.modifyCarrying f).oku = s.oku := rfl
@[simp] theorem State.modifyCarrying_sport (f : Entry → Entry) : (s.modifyCarrying f).sport = s.sport := rfl
@[simp] theorem State.modifyCarrying_pending (f : Entry → Entry) : (s.modifyCarrying f).pending = s.pending := rfl

@[simp] theorem State.dropQueued_now (id : FrameId) : (s.dropQueued id).now = s.now := rfl
@[simp] theorem State.dropQueued_eventNo (id : FrameId) : (s.dropQueued id).eventNo = s.eventNo := rfl
@[simp] theorem State.dropQueued_pins (id : FrameId) : (s.dropQueued id).pins = s.pins := rfl
@[simp] theorem State.dropQueued_smu (id : FrameId) : (s.dropQueued id).smu = s.smu := rfl
@[simp] theorem State.dropQueued_stc (id : FrameId) : (s.dropQueued id).stc = s.stc := rfl
@[simp] theorem State.dropQueued_udir (id : FrameId) : (s.dropQueued id).udir = s.udir := rfl
@[simp] theorem State.dropQueued_ctxs (id : FrameId) : (s.dropQueued id).ctxs = s.ctxs := rfl
@[simp] theorem State.dropQueued_path (id : FrameId) : (s.dropQueued id).path = s.path := rfl
@[simp] theorem State.dropQueued_oku (id : FrameId) : (s.dropQueued id).oku = s.oku := rfl
@[simp] theorem State.dropQueued_sport (id : FrameId) : (s.dropQueued id).sport = s.sport := rfl
@[simp] theorem State.dropQueued_pending (id : FrameId) : (s.dropQueued id).pending = s.pending := rfl

@[simp] theorem State.emptyQueue_now : s.emptyQueue.now = s.now := rfl
@[simp] theorem State.emptyQueue_eventNo : s.emptyQueue.eventNo = s.eventNo := rfl
@[simp] theorem State.emptyQueue_pins : s.emptyQueue.pins = s.pins := rfl
@[simp] theorem State.emptyQueue_smu : s.emptyQueue.smu = s.smu := rfl
@[simp] theorem State.emptyQueue_stc : s.emptyQueue.stc = s.stc := rfl
@[simp] theorem State.emptyQueue_udir : s.emptyQueue.udir = s.udir := rfl
@[simp] theorem State.emptyQueue_ctxs : s.emptyQueue.ctxs = s.ctxs := rfl
@[simp] theorem State.emptyQueue_path : s.emptyQueue.path = s.path := rfl
@[simp] theorem State.emptyQueue_oku : s.emptyQueue.oku = s.oku := rfl
@[simp] theorem State.emptyQueue_sport : s.emptyQueue.sport = s.sport := rfl
@[simp] theorem State.emptyQueue_pending : s.emptyQueue.pending = s.pending := rfl

@[simp] theorem State.setMark_now (b : Bool) : (s.setMark b).now = s.now := rfl
@[simp] theorem State.setMark_eventNo (b : Bool) : (s.setMark b).eventNo = s.eventNo := rfl
@[simp] theorem State.setMark_pins (b : Bool) : (s.setMark b).pins = s.pins := rfl
@[simp] theorem State.setMark_smu (b : Bool) : (s.setMark b).smu = s.smu := rfl
@[simp] theorem State.setMark_stc (b : Bool) : (s.setMark b).stc = s.stc := rfl
@[simp] theorem State.setMark_udir (b : Bool) : (s.setMark b).udir = s.udir := rfl
@[simp] theorem State.setMark_ctxs (b : Bool) : (s.setMark b).ctxs = s.ctxs := rfl
@[simp] theorem State.setMark_path (b : Bool) : (s.setMark b).path = s.path := rfl
@[simp] theorem State.setMark_oku (b : Bool) : (s.setMark b).oku = s.oku := rfl
@[simp] theorem State.setMark_sport (b : Bool) : (s.setMark b).sport = s.sport := rfl
@[simp] theorem State.setMark_pending (b : Bool) : (s.setMark b).pending = s.pending := rfl

@[simp] theorem State.forgetPolarity_now : s.forgetPolarity.now = s.now := rfl
@[simp] theorem State.forgetPolarity_eventNo : s.forgetPolarity.eventNo = s.eventNo := rfl
@[simp] theorem State.forgetPolarity_pins : s.forgetPolarity.pins = s.pins := rfl
@[simp] theorem State.forgetPolarity_smu : s.forgetPolarity.smu = s.smu := rfl
@[simp] theorem State.forgetPolarity_stc : s.forgetPolarity.stc = s.stc := rfl
@[simp] theorem State.forgetPolarity_udir : s.forgetPolarity.udir = s.udir := rfl
@[simp] theorem State.forgetPolarity_ctxs : s.forgetPolarity.ctxs = s.ctxs := rfl
@[simp] theorem State.forgetPolarity_path : s.forgetPolarity.path = s.path := rfl
@[simp] theorem State.forgetPolarity_oku : s.forgetPolarity.oku = s.oku := rfl
@[simp] theorem State.forgetPolarity_sport : s.forgetPolarity.sport = s.sport := rfl
@[simp] theorem State.forgetPolarity_pending : s.forgetPolarity.pending = s.pending := rfl

@[simp] theorem State.regainSupply_now : s.regainSupply.now = s.now := rfl
@[simp] theorem State.regainSupply_eventNo : s.regainSupply.eventNo = s.eventNo := rfl
@[simp] theorem State.regainSupply_pins : s.regainSupply.pins = s.pins := rfl
@[simp] theorem State.regainSupply_smu : s.regainSupply.smu = s.smu := rfl
@[simp] theorem State.regainSupply_stc : s.regainSupply.stc = s.stc := rfl
@[simp] theorem State.regainSupply_udir : s.regainSupply.udir = s.udir := rfl
@[simp] theorem State.regainSupply_ctxs : s.regainSupply.ctxs = s.ctxs := rfl
@[simp] theorem State.regainSupply_path : s.regainSupply.path = s.path := rfl
@[simp] theorem State.regainSupply_oku : s.regainSupply.oku = s.oku := rfl
@[simp] theorem State.regainSupply_sport : s.regainSupply.sport = s.sport := rfl
@[simp] theorem State.regainSupply_pending : s.regainSupply.pending = s.pending := rfl

@[simp] theorem State.loseSupply_now : s.loseSupply.now = s.now := rfl
@[simp] theorem State.loseSupply_eventNo : s.loseSupply.eventNo = s.eventNo := rfl
@[simp] theorem State.loseSupply_pins : s.loseSupply.pins = s.pins := rfl
@[simp] theorem State.loseSupply_smu : s.loseSupply.smu = s.smu := rfl
@[simp] theorem State.loseSupply_stc : s.loseSupply.stc = s.stc := rfl
@[simp] theorem State.loseSupply_udir : s.loseSupply.udir = s.udir := rfl
@[simp] theorem State.loseSupply_ctxs : s.loseSupply.ctxs = s.ctxs := rfl
@[simp] theorem State.loseSupply_oku : s.loseSupply.oku = s.oku := rfl
@[simp] theorem State.loseSupply_sport : s.loseSupply.sport = s.sport := rfl
@[simp] theorem State.loseSupply_pending : s.loseSupply.pending = s.pending := rfl

@[simp] theorem State.addHold_now (c : CallId) (b : Block) : (s.addHold c b).now = s.now := rfl
@[simp] theorem State.addHold_eventNo (c : CallId) (b : Block) : (s.addHold c b).eventNo = s.eventNo := rfl
@[simp] theorem State.addHold_pins (c : CallId) (b : Block) : (s.addHold c b).pins = s.pins := rfl
@[simp] theorem State.addHold_rif (c : CallId) (b : Block) : (s.addHold c b).rif = s.rif := rfl
@[simp] theorem State.addHold_stc (c : CallId) (b : Block) : (s.addHold c b).stc = s.stc := rfl
@[simp] theorem State.addHold_udir (c : CallId) (b : Block) : (s.addHold c b).udir = s.udir := rfl
@[simp] theorem State.addHold_ctxs (c : CallId) (b : Block) : (s.addHold c b).ctxs = s.ctxs := rfl
@[simp] theorem State.addHold_path (c : CallId) (b : Block) : (s.addHold c b).path = s.path := rfl
@[simp] theorem State.addHold_oku (c : CallId) (b : Block) : (s.addHold c b).oku = s.oku := rfl
@[simp] theorem State.addHold_sport (c : CallId) (b : Block) : (s.addHold c b).sport = s.sport := rfl
@[simp] theorem State.addHold_pending (c : CallId) (b : Block) : (s.addHold c b).pending = s.pending := rfl

@[simp] theorem State.setAudit_now (c : CallId) (a : Audit) : (s.setAudit c a).now = s.now := rfl
@[simp] theorem State.setAudit_eventNo (c : CallId) (a : Audit) : (s.setAudit c a).eventNo = s.eventNo := rfl
@[simp] theorem State.setAudit_pins (c : CallId) (a : Audit) : (s.setAudit c a).pins = s.pins := rfl
@[simp] theorem State.setAudit_rif (c : CallId) (a : Audit) : (s.setAudit c a).rif = s.rif := rfl
@[simp] theorem State.setAudit_stc (c : CallId) (a : Audit) : (s.setAudit c a).stc = s.stc := rfl
@[simp] theorem State.setAudit_udir (c : CallId) (a : Audit) : (s.setAudit c a).udir = s.udir := rfl
@[simp] theorem State.setAudit_ctxs (c : CallId) (a : Audit) : (s.setAudit c a).ctxs = s.ctxs := rfl
@[simp] theorem State.setAudit_path (c : CallId) (a : Audit) : (s.setAudit c a).path = s.path := rfl
@[simp] theorem State.setAudit_oku (c : CallId) (a : Audit) : (s.setAudit c a).oku = s.oku := rfl
@[simp] theorem State.setAudit_sport (c : CallId) (a : Audit) : (s.setAudit c a).sport = s.sport := rfl
@[simp] theorem State.setAudit_pending (c : CallId) (a : Audit) : (s.setAudit c a).pending = s.pending := rfl

@[simp] theorem State.grantScan_now : s.grantScan.now = s.now := rfl
@[simp] theorem State.grantScan_eventNo : s.grantScan.eventNo = s.eventNo := rfl
@[simp] theorem State.grantScan_pins : s.grantScan.pins = s.pins := rfl
@[simp] theorem State.grantScan_rif : s.grantScan.rif = s.rif := rfl
@[simp] theorem State.grantScan_stc : s.grantScan.stc = s.stc := rfl
@[simp] theorem State.grantScan_udir : s.grantScan.udir = s.udir := rfl
@[simp] theorem State.grantScan_ctxs : s.grantScan.ctxs = s.ctxs := rfl
@[simp] theorem State.grantScan_path : s.grantScan.path = s.path := rfl
@[simp] theorem State.grantScan_oku : s.grantScan.oku = s.oku := rfl
@[simp] theorem State.grantScan_sport : s.grantScan.sport = s.sport := rfl
@[simp] theorem State.grantScan_pending : s.grantScan.pending = s.pending := rfl

@[simp] theorem State.removeItem_now (c : CallId) : (s.removeItem c).now = s.now := rfl
@[simp] theorem State.removeItem_eventNo (c : CallId) : (s.removeItem c).eventNo = s.eventNo := rfl
@[simp] theorem State.removeItem_pins (c : CallId) : (s.removeItem c).pins = s.pins := rfl
@[simp] theorem State.removeItem_rif (c : CallId) : (s.removeItem c).rif = s.rif := rfl
@[simp] theorem State.removeItem_stc (c : CallId) : (s.removeItem c).stc = s.stc := rfl
@[simp] theorem State.removeItem_udir (c : CallId) : (s.removeItem c).udir = s.udir := rfl
@[simp] theorem State.removeItem_ctxs (c : CallId) : (s.removeItem c).ctxs = s.ctxs := rfl
@[simp] theorem State.removeItem_path (c : CallId) : (s.removeItem c).path = s.path := rfl
@[simp] theorem State.removeItem_oku (c : CallId) : (s.removeItem c).oku = s.oku := rfl
@[simp] theorem State.removeItem_sport (c : CallId) : (s.removeItem c).sport = s.sport := rfl
@[simp] theorem State.removeItem_pending (c : CallId) : (s.removeItem c).pending = s.pending := rfl

@[simp] theorem State.appendWait_now (c : CallId) (w : Nat) : (s.appendWait c w).now = s.now := rfl
@[simp] theorem State.appendWait_eventNo (c : CallId) (w : Nat) : (s.appendWait c w).eventNo = s.eventNo := rfl
@[simp] theorem State.appendWait_pins (c : CallId) (w : Nat) : (s.appendWait c w).pins = s.pins := rfl
@[simp] theorem State.appendWait_rif (c : CallId) (w : Nat) : (s.appendWait c w).rif = s.rif := rfl
@[simp] theorem State.appendWait_stc (c : CallId) (w : Nat) : (s.appendWait c w).stc = s.stc := rfl
@[simp] theorem State.appendWait_udir (c : CallId) (w : Nat) : (s.appendWait c w).udir = s.udir := rfl
@[simp] theorem State.appendWait_ctxs (c : CallId) (w : Nat) : (s.appendWait c w).ctxs = s.ctxs := rfl
@[simp] theorem State.appendWait_path (c : CallId) (w : Nat) : (s.appendWait c w).path = s.path := rfl
@[simp] theorem State.appendWait_oku (c : CallId) (w : Nat) : (s.appendWait c w).oku = s.oku := rfl
@[simp] theorem State.appendWait_sport (c : CallId) (w : Nat) : (s.appendWait c w).sport = s.sport := rfl
@[simp] theorem State.appendWait_pending (c : CallId) (w : Nat) : (s.appendWait c w).pending = s.pending := rfl

@[simp] theorem State.emptyCopy_now : s.emptyCopy.now = s.now := rfl
@[simp] theorem State.emptyCopy_eventNo : s.emptyCopy.eventNo = s.eventNo := rfl
@[simp] theorem State.emptyCopy_pins : s.emptyCopy.pins = s.pins := rfl
@[simp] theorem State.emptyCopy_rif : s.emptyCopy.rif = s.rif := rfl
@[simp] theorem State.emptyCopy_stc : s.emptyCopy.stc = s.stc := rfl
@[simp] theorem State.emptyCopy_udir : s.emptyCopy.udir = s.udir := rfl
@[simp] theorem State.emptyCopy_ctxs : s.emptyCopy.ctxs = s.ctxs := rfl
@[simp] theorem State.emptyCopy_path : s.emptyCopy.path = s.path := rfl
@[simp] theorem State.emptyCopy_oku : s.emptyCopy.oku = s.oku := rfl
@[simp] theorem State.emptyCopy_sport : s.emptyCopy.sport = s.sport := rfl
@[simp] theorem State.emptyCopy_pending : s.emptyCopy.pending = s.pending := rfl

@[simp] theorem State.installCopy_now (hs : List SnapHold) (ws : List SnapWait) : (s.installCopy hs ws).now = s.now := rfl
@[simp] theorem State.installCopy_eventNo (hs : List SnapHold) (ws : List SnapWait) : (s.installCopy hs ws).eventNo = s.eventNo :=
  rfl
@[simp] theorem State.installCopy_pins (hs : List SnapHold) (ws : List SnapWait) : (s.installCopy hs ws).pins = s.pins := rfl
@[simp] theorem State.installCopy_rif (hs : List SnapHold) (ws : List SnapWait) : (s.installCopy hs ws).rif = s.rif := rfl
@[simp] theorem State.installCopy_stc (hs : List SnapHold) (ws : List SnapWait) : (s.installCopy hs ws).stc = s.stc := rfl
@[simp] theorem State.installCopy_udir (hs : List SnapHold) (ws : List SnapWait) : (s.installCopy hs ws).udir = s.udir := rfl
@[simp] theorem State.installCopy_ctxs (hs : List SnapHold) (ws : List SnapWait) : (s.installCopy hs ws).ctxs = s.ctxs := rfl
@[simp] theorem State.installCopy_path (hs : List SnapHold) (ws : List SnapWait) : (s.installCopy hs ws).path = s.path := rfl
@[simp] theorem State.installCopy_oku (hs : List SnapHold) (ws : List SnapWait) : (s.installCopy hs ws).oku = s.oku := rfl
@[simp] theorem State.installCopy_sport (hs : List SnapHold) (ws : List SnapWait) : (s.installCopy hs ws).sport = s.sport := rfl
@[simp] theorem State.installCopy_pending (hs : List SnapHold) (ws : List SnapWait) : (s.installCopy hs ws).pending = s.pending :=
  rfl

@[simp] theorem State.stopLearning_now : s.stopLearning.now = s.now := rfl
@[simp] theorem State.stopLearning_eventNo : s.stopLearning.eventNo = s.eventNo := rfl
@[simp] theorem State.stopLearning_pins : s.stopLearning.pins = s.pins := rfl
@[simp] theorem State.stopLearning_rif : s.stopLearning.rif = s.rif := rfl
@[simp] theorem State.stopLearning_smu : s.stopLearning.smu = s.smu := rfl
@[simp] theorem State.stopLearning_udir : s.stopLearning.udir = s.udir := rfl
@[simp] theorem State.stopLearning_ctxs : s.stopLearning.ctxs = s.ctxs := rfl
@[simp] theorem State.stopLearning_path : s.stopLearning.path = s.path := rfl
@[simp] theorem State.stopLearning_oku : s.stopLearning.oku = s.oku := rfl
@[simp] theorem State.stopLearning_sport : s.stopLearning.sport = s.sport := rfl
@[simp] theorem State.stopLearning_pending : s.stopLearning.pending = s.pending := rfl

@[simp] theorem State.stopStagger_now : s.stopStagger.now = s.now := rfl
@[simp] theorem State.stopStagger_eventNo : s.stopStagger.eventNo = s.eventNo := rfl
@[simp] theorem State.stopStagger_pins : s.stopStagger.pins = s.pins := rfl
@[simp] theorem State.stopStagger_rif : s.stopStagger.rif = s.rif := rfl
@[simp] theorem State.stopStagger_smu : s.stopStagger.smu = s.smu := rfl
@[simp] theorem State.stopStagger_udir : s.stopStagger.udir = s.udir := rfl
@[simp] theorem State.stopStagger_ctxs : s.stopStagger.ctxs = s.ctxs := rfl
@[simp] theorem State.stopStagger_path : s.stopStagger.path = s.path := rfl
@[simp] theorem State.stopStagger_oku : s.stopStagger.oku = s.oku := rfl
@[simp] theorem State.stopStagger_sport : s.stopStagger.sport = s.sport := rfl
@[simp] theorem State.stopStagger_pending : s.stopStagger.pending = s.pending := rfl

@[simp] theorem State.setOutcome_now (o : LearnOutcome) : (s.setOutcome o).now = s.now := rfl
@[simp] theorem State.setOutcome_eventNo (o : LearnOutcome) : (s.setOutcome o).eventNo = s.eventNo := rfl
@[simp] theorem State.setOutcome_pins (o : LearnOutcome) : (s.setOutcome o).pins = s.pins := rfl
@[simp] theorem State.setOutcome_rif (o : LearnOutcome) : (s.setOutcome o).rif = s.rif := rfl
@[simp] theorem State.setOutcome_smu (o : LearnOutcome) : (s.setOutcome o).smu = s.smu := rfl
@[simp] theorem State.setOutcome_udir (o : LearnOutcome) : (s.setOutcome o).udir = s.udir := rfl
@[simp] theorem State.setOutcome_ctxs (o : LearnOutcome) : (s.setOutcome o).ctxs = s.ctxs := rfl
@[simp] theorem State.setOutcome_path (o : LearnOutcome) : (s.setOutcome o).path = s.path := rfl
@[simp] theorem State.setOutcome_oku (o : LearnOutcome) : (s.setOutcome o).oku = s.oku := rfl
@[simp] theorem State.setOutcome_sport (o : LearnOutcome) : (s.setOutcome o).sport = s.sport := rfl
@[simp] theorem State.setOutcome_pending (o : LearnOutcome) : (s.setOutcome o).pending = s.pending := rfl

@[simp] theorem State.directoryJoin_now (a r : Byte) (u : UnitNum) (w : Byte) : (s.directoryJoin a r u w).now = s.now := rfl
@[simp] theorem State.directoryJoin_eventNo (a r : Byte) (u : UnitNum) (w : Byte) : (s.directoryJoin a r u w).eventNo = s.eventNo :=
  rfl
@[simp] theorem State.directoryJoin_pins (a r : Byte) (u : UnitNum) (w : Byte) : (s.directoryJoin a r u w).pins = s.pins := rfl
@[simp] theorem State.directoryJoin_rif (a r : Byte) (u : UnitNum) (w : Byte) : (s.directoryJoin a r u w).rif = s.rif := rfl
@[simp] theorem State.directoryJoin_smu (a r : Byte) (u : UnitNum) (w : Byte) : (s.directoryJoin a r u w).smu = s.smu := rfl
@[simp] theorem State.directoryJoin_stc (a r : Byte) (u : UnitNum) (w : Byte) : (s.directoryJoin a r u w).stc = s.stc := rfl
@[simp] theorem State.directoryJoin_ctxs (a r : Byte) (u : UnitNum) (w : Byte) : (s.directoryJoin a r u w).ctxs = s.ctxs := rfl
@[simp] theorem State.directoryJoin_path (a r : Byte) (u : UnitNum) (w : Byte) : (s.directoryJoin a r u w).path = s.path := rfl
@[simp] theorem State.directoryJoin_oku (a r : Byte) (u : UnitNum) (w : Byte) : (s.directoryJoin a r u w).oku = s.oku := rfl
@[simp] theorem State.directoryJoin_sport (a r : Byte) (u : UnitNum) (w : Byte) : (s.directoryJoin a r u w).sport = s.sport := rfl
@[simp] theorem State.directoryJoin_pending (a r : Byte) (u : UnitNum) (w : Byte) : (s.directoryJoin a r u w).pending = s.pending :=
  rfl

@[simp] theorem State.directoryLeave_now (a : Byte) : (s.directoryLeave a).now = s.now := rfl
@[simp] theorem State.directoryLeave_eventNo (a : Byte) : (s.directoryLeave a).eventNo = s.eventNo := rfl
@[simp] theorem State.directoryLeave_pins (a : Byte) : (s.directoryLeave a).pins = s.pins := rfl
@[simp] theorem State.directoryLeave_rif (a : Byte) : (s.directoryLeave a).rif = s.rif := rfl
@[simp] theorem State.directoryLeave_smu (a : Byte) : (s.directoryLeave a).smu = s.smu := rfl
@[simp] theorem State.directoryLeave_stc (a : Byte) : (s.directoryLeave a).stc = s.stc := rfl
@[simp] theorem State.directoryLeave_ctxs (a : Byte) : (s.directoryLeave a).ctxs = s.ctxs := rfl
@[simp] theorem State.directoryLeave_path (a : Byte) : (s.directoryLeave a).path = s.path := rfl
@[simp] theorem State.directoryLeave_oku (a : Byte) : (s.directoryLeave a).oku = s.oku := rfl
@[simp] theorem State.directoryLeave_sport (a : Byte) : (s.directoryLeave a).sport = s.sport := rfl
@[simp] theorem State.directoryLeave_pending (a : Byte) : (s.directoryLeave a).pending = s.pending := rfl

@[simp] theorem State.purgeLines_now : s.purgeLines.now = s.now := rfl
@[simp] theorem State.purgeLines_eventNo : s.purgeLines.eventNo = s.eventNo := rfl
@[simp] theorem State.purgeLines_pins : s.purgeLines.pins = s.pins := rfl
@[simp] theorem State.purgeLines_rif : s.purgeLines.rif = s.rif := rfl
@[simp] theorem State.purgeLines_smu : s.purgeLines.smu = s.smu := rfl
@[simp] theorem State.purgeLines_stc : s.purgeLines.stc = s.stc := rfl
@[simp] theorem State.purgeLines_ctxs : s.purgeLines.ctxs = s.ctxs := rfl
@[simp] theorem State.purgeLines_path : s.purgeLines.path = s.path := rfl
@[simp] theorem State.purgeLines_oku : s.purgeLines.oku = s.oku := rfl
@[simp] theorem State.purgeLines_sport : s.purgeLines.sport = s.sport := rfl
@[simp] theorem State.purgeLines_pending : s.purgeLines.pending = s.pending := rfl

@[simp] theorem State.closeSeeks_now : s.closeSeeks.now = s.now := rfl
@[simp] theorem State.closeSeeks_eventNo : s.closeSeeks.eventNo = s.eventNo := rfl
@[simp] theorem State.closeSeeks_pins : s.closeSeeks.pins = s.pins := rfl
@[simp] theorem State.closeSeeks_rif : s.closeSeeks.rif = s.rif := rfl
@[simp] theorem State.closeSeeks_smu : s.closeSeeks.smu = s.smu := rfl
@[simp] theorem State.closeSeeks_stc : s.closeSeeks.stc = s.stc := rfl
@[simp] theorem State.closeSeeks_ctxs : s.closeSeeks.ctxs = s.ctxs := rfl
@[simp] theorem State.closeSeeks_path : s.closeSeeks.path = s.path := rfl
@[simp] theorem State.closeSeeks_oku : s.closeSeeks.oku = s.oku := rfl
@[simp] theorem State.closeSeeks_sport : s.closeSeeks.sport = s.sport := rfl
@[simp] theorem State.closeSeeks_pending : s.closeSeeks.pending = s.pending := rfl

@[simp] theorem State.openSeek_now (u : UnitNum) : (s.openSeek u).now = s.now := rfl
@[simp] theorem State.openSeek_eventNo (u : UnitNum) : (s.openSeek u).eventNo = s.eventNo := rfl
@[simp] theorem State.openSeek_pins (u : UnitNum) : (s.openSeek u).pins = s.pins := rfl
@[simp] theorem State.openSeek_rif (u : UnitNum) : (s.openSeek u).rif = s.rif := rfl
@[simp] theorem State.openSeek_smu (u : UnitNum) : (s.openSeek u).smu = s.smu := rfl
@[simp] theorem State.openSeek_stc (u : UnitNum) : (s.openSeek u).stc = s.stc := rfl
@[simp] theorem State.openSeek_ctxs (u : UnitNum) : (s.openSeek u).ctxs = s.ctxs := rfl
@[simp] theorem State.openSeek_path (u : UnitNum) : (s.openSeek u).path = s.path := rfl
@[simp] theorem State.openSeek_oku (u : UnitNum) : (s.openSeek u).oku = s.oku := rfl
@[simp] theorem State.openSeek_sport (u : UnitNum) : (s.openSeek u).sport = s.sport := rfl
@[simp] theorem State.openSeek_pending (u : UnitNum) : (s.openSeek u).pending = s.pending := rfl

@[simp] theorem State.removeSeek_now (u : UnitNum) : (s.removeSeek u).now = s.now := rfl
@[simp] theorem State.removeSeek_eventNo (u : UnitNum) : (s.removeSeek u).eventNo = s.eventNo := rfl
@[simp] theorem State.removeSeek_pins (u : UnitNum) : (s.removeSeek u).pins = s.pins := rfl
@[simp] theorem State.removeSeek_rif (u : UnitNum) : (s.removeSeek u).rif = s.rif := rfl
@[simp] theorem State.removeSeek_smu (u : UnitNum) : (s.removeSeek u).smu = s.smu := rfl
@[simp] theorem State.removeSeek_stc (u : UnitNum) : (s.removeSeek u).stc = s.stc := rfl
@[simp] theorem State.removeSeek_ctxs (u : UnitNum) : (s.removeSeek u).ctxs = s.ctxs := rfl
@[simp] theorem State.removeSeek_path (u : UnitNum) : (s.removeSeek u).path = s.path := rfl
@[simp] theorem State.removeSeek_oku (u : UnitNum) : (s.removeSeek u).oku = s.oku := rfl
@[simp] theorem State.removeSeek_sport (u : UnitNum) : (s.removeSeek u).sport = s.sport := rfl
@[simp] theorem State.removeSeek_pending (u : UnitNum) : (s.removeSeek u).pending = s.pending := rfl

@[simp] theorem State.setOffer_now (o : OfferState) : (s.setOffer o).now = s.now := rfl
@[simp] theorem State.setOffer_eventNo (o : OfferState) : (s.setOffer o).eventNo = s.eventNo := rfl
@[simp] theorem State.setOffer_pins (o : OfferState) : (s.setOffer o).pins = s.pins := rfl
@[simp] theorem State.setOffer_rif (o : OfferState) : (s.setOffer o).rif = s.rif := rfl
@[simp] theorem State.setOffer_smu (o : OfferState) : (s.setOffer o).smu = s.smu := rfl
@[simp] theorem State.setOffer_stc (o : OfferState) : (s.setOffer o).stc = s.stc := rfl
@[simp] theorem State.setOffer_ctxs (o : OfferState) : (s.setOffer o).ctxs = s.ctxs := rfl
@[simp] theorem State.setOffer_path (o : OfferState) : (s.setOffer o).path = s.path := rfl
@[simp] theorem State.setOffer_oku (o : OfferState) : (s.setOffer o).oku = s.oku := rfl
@[simp] theorem State.setOffer_sport (o : OfferState) : (s.setOffer o).sport = s.sport := rfl
@[simp] theorem State.setOffer_pending (o : OfferState) : (s.setOffer o).pending = s.pending := rfl

@[simp] theorem State.cutPath_now (i : Ref) : (s.cutPath i).now = s.now := rfl
@[simp] theorem State.cutPath_eventNo (i : Ref) : (s.cutPath i).eventNo = s.eventNo := rfl
@[simp] theorem State.cutPath_pins (i : Ref) : (s.cutPath i).pins = s.pins := rfl
@[simp] theorem State.cutPath_rif (i : Ref) : (s.cutPath i).rif = s.rif := rfl
@[simp] theorem State.cutPath_smu (i : Ref) : (s.cutPath i).smu = s.smu := rfl
@[simp] theorem State.cutPath_stc (i : Ref) : (s.cutPath i).stc = s.stc := rfl
@[simp] theorem State.cutPath_udir (i : Ref) : (s.cutPath i).udir = s.udir := rfl
@[simp] theorem State.cutPath_ctxs (i : Ref) : (s.cutPath i).ctxs = s.ctxs := rfl
@[simp] theorem State.cutPath_oku (i : Ref) : (s.cutPath i).oku = s.oku := rfl
@[simp] theorem State.cutPath_sport (i : Ref) : (s.cutPath i).sport = s.sport := rfl
@[simp] theorem State.cutPath_pending (i : Ref) : (s.cutPath i).pending = s.pending := rfl

@[simp] theorem State.freeBlock_now (b : Block) : (s.freeBlock b).now = s.now := rfl
@[simp] theorem State.freeBlock_eventNo (b : Block) : (s.freeBlock b).eventNo = s.eventNo := rfl
@[simp] theorem State.freeBlock_pins (b : Block) : (s.freeBlock b).pins = s.pins := rfl
@[simp] theorem State.freeBlock_rif (b : Block) : (s.freeBlock b).rif = s.rif := rfl
@[simp] theorem State.freeBlock_smu (b : Block) : (s.freeBlock b).smu = s.smu := rfl
@[simp] theorem State.freeBlock_stc (b : Block) : (s.freeBlock b).stc = s.stc := rfl
@[simp] theorem State.freeBlock_udir (b : Block) : (s.freeBlock b).udir = s.udir := rfl
@[simp] theorem State.freeBlock_ctxs (b : Block) : (s.freeBlock b).ctxs = s.ctxs := rfl
@[simp] theorem State.freeBlock_oku (b : Block) : (s.freeBlock b).oku = s.oku := rfl
@[simp] theorem State.freeBlock_sport (b : Block) : (s.freeBlock b).sport = s.sport := rfl
@[simp] theorem State.freeBlock_pending (b : Block) : (s.freeBlock b).pending = s.pending := rfl

@[simp] theorem State.clearPath_now : s.clearPath.now = s.now := rfl
@[simp] theorem State.clearPath_eventNo : s.clearPath.eventNo = s.eventNo := rfl
@[simp] theorem State.clearPath_pins : s.clearPath.pins = s.pins := rfl
@[simp] theorem State.clearPath_rif : s.clearPath.rif = s.rif := rfl
@[simp] theorem State.clearPath_smu : s.clearPath.smu = s.smu := rfl
@[simp] theorem State.clearPath_stc : s.clearPath.stc = s.stc := rfl
@[simp] theorem State.clearPath_udir : s.clearPath.udir = s.udir := rfl
@[simp] theorem State.clearPath_ctxs : s.clearPath.ctxs = s.ctxs := rfl
@[simp] theorem State.clearPath_oku : s.clearPath.oku = s.oku := rfl
@[simp] theorem State.clearPath_sport : s.clearPath.sport = s.sport := rfl
@[simp] theorem State.clearPath_pending : s.clearPath.pending = s.pending := rfl

@[simp] theorem State.setAlerting_now (i : Ref) (b : Bool) : (s.setAlerting i b).now = s.now := rfl
@[simp] theorem State.setAlerting_eventNo (i : Ref) (b : Bool) : (s.setAlerting i b).eventNo = s.eventNo := rfl
@[simp] theorem State.setAlerting_pins (i : Ref) (b : Bool) : (s.setAlerting i b).pins = s.pins := rfl
@[simp] theorem State.setAlerting_rif (i : Ref) (b : Bool) : (s.setAlerting i b).rif = s.rif := rfl
@[simp] theorem State.setAlerting_smu (i : Ref) (b : Bool) : (s.setAlerting i b).smu = s.smu := rfl
@[simp] theorem State.setAlerting_stc (i : Ref) (b : Bool) : (s.setAlerting i b).stc = s.stc := rfl
@[simp] theorem State.setAlerting_udir (i : Ref) (b : Bool) : (s.setAlerting i b).udir = s.udir := rfl
@[simp] theorem State.setAlerting_ctxs (i : Ref) (b : Bool) : (s.setAlerting i b).ctxs = s.ctxs := rfl
@[simp] theorem State.setAlerting_path (i : Ref) (b : Bool) : (s.setAlerting i b).path = s.path := rfl
@[simp] theorem State.setAlerting_sport (i : Ref) (b : Bool) : (s.setAlerting i b).sport = s.sport := rfl
@[simp] theorem State.setAlerting_pending (i : Ref) (b : Bool) : (s.setAlerting i b).pending = s.pending := rfl

@[simp] theorem State.setDoor_now (i : Ref) (t : Timer) : (s.setDoor i t).now = s.now := rfl
@[simp] theorem State.setDoor_eventNo (i : Ref) (t : Timer) : (s.setDoor i t).eventNo = s.eventNo := rfl
@[simp] theorem State.setDoor_pins (i : Ref) (t : Timer) : (s.setDoor i t).pins = s.pins := rfl
@[simp] theorem State.setDoor_rif (i : Ref) (t : Timer) : (s.setDoor i t).rif = s.rif := rfl
@[simp] theorem State.setDoor_smu (i : Ref) (t : Timer) : (s.setDoor i t).smu = s.smu := rfl
@[simp] theorem State.setDoor_stc (i : Ref) (t : Timer) : (s.setDoor i t).stc = s.stc := rfl
@[simp] theorem State.setDoor_udir (i : Ref) (t : Timer) : (s.setDoor i t).udir = s.udir := rfl
@[simp] theorem State.setDoor_ctxs (i : Ref) (t : Timer) : (s.setDoor i t).ctxs = s.ctxs := rfl
@[simp] theorem State.setDoor_path (i : Ref) (t : Timer) : (s.setDoor i t).path = s.path := rfl
@[simp] theorem State.setDoor_sport (i : Ref) (t : Timer) : (s.setDoor i t).sport = s.sport := rfl
@[simp] theorem State.setDoor_pending (i : Ref) (t : Timer) : (s.setDoor i t).pending = s.pending := rfl

@[simp] theorem State.energize_now : s.energize.now = s.now := rfl
@[simp] theorem State.energize_eventNo : s.energize.eventNo = s.eventNo := rfl
@[simp] theorem State.energize_pins : s.energize.pins = s.pins := rfl
@[simp] theorem State.energize_rif : s.energize.rif = s.rif := rfl
@[simp] theorem State.energize_smu : s.energize.smu = s.smu := rfl
@[simp] theorem State.energize_stc : s.energize.stc = s.stc := rfl
@[simp] theorem State.energize_udir : s.energize.udir = s.udir := rfl
@[simp] theorem State.energize_ctxs : s.energize.ctxs = s.ctxs := rfl
@[simp] theorem State.energize_path : s.energize.path = s.path := rfl
@[simp] theorem State.energize_sport : s.energize.sport = s.sport := rfl
@[simp] theorem State.energize_pending : s.energize.pending = s.pending := rfl

@[simp] theorem State.respond_now (x : Status) (fs : List Byte) (t : Tail) : (s.respond x fs t).now = s.now := rfl
@[simp] theorem State.respond_eventNo (x : Status) (fs : List Byte) (t : Tail) : (s.respond x fs t).eventNo = s.eventNo := rfl
@[simp] theorem State.respond_pins (x : Status) (fs : List Byte) (t : Tail) : (s.respond x fs t).pins = s.pins := rfl
@[simp] theorem State.respond_rif (x : Status) (fs : List Byte) (t : Tail) : (s.respond x fs t).rif = s.rif := rfl
@[simp] theorem State.respond_smu (x : Status) (fs : List Byte) (t : Tail) : (s.respond x fs t).smu = s.smu := rfl
@[simp] theorem State.respond_stc (x : Status) (fs : List Byte) (t : Tail) : (s.respond x fs t).stc = s.stc := rfl
@[simp] theorem State.respond_udir (x : Status) (fs : List Byte) (t : Tail) : (s.respond x fs t).udir = s.udir := rfl
@[simp] theorem State.respond_ctxs (x : Status) (fs : List Byte) (t : Tail) : (s.respond x fs t).ctxs = s.ctxs := rfl
@[simp] theorem State.respond_path (x : Status) (fs : List Byte) (t : Tail) : (s.respond x fs t).path = s.path := rfl
@[simp] theorem State.respond_oku (x : Status) (fs : List Byte) (t : Tail) : (s.respond x fs t).oku = s.oku := rfl
@[simp] theorem State.respond_pending (x : Status) (fs : List Byte) (t : Tail) : (s.respond x fs t).pending = s.pending := rfl

@[simp] theorem State.reply_now (x : Status) : (s.reply x).now = s.now := rfl
@[simp] theorem State.reply_eventNo (x : Status) : (s.reply x).eventNo = s.eventNo := rfl
@[simp] theorem State.reply_pins (x : Status) : (s.reply x).pins = s.pins := rfl
@[simp] theorem State.reply_rif (x : Status) : (s.reply x).rif = s.rif := rfl
@[simp] theorem State.reply_smu (x : Status) : (s.reply x).smu = s.smu := rfl
@[simp] theorem State.reply_stc (x : Status) : (s.reply x).stc = s.stc := rfl
@[simp] theorem State.reply_udir (x : Status) : (s.reply x).udir = s.udir := rfl
@[simp] theorem State.reply_ctxs (x : Status) : (s.reply x).ctxs = s.ctxs := rfl
@[simp] theorem State.reply_path (x : Status) : (s.reply x).path = s.path := rfl
@[simp] theorem State.reply_oku (x : Status) : (s.reply x).oku = s.oku := rfl
@[simp] theorem State.reply_pending (x : Status) : (s.reply x).pending = s.pending := rfl

@[simp] theorem State.openTransaction_now : s.openTransaction.now = s.now := rfl
@[simp] theorem State.openTransaction_eventNo : s.openTransaction.eventNo = s.eventNo := rfl
@[simp] theorem State.openTransaction_pins : s.openTransaction.pins = s.pins := rfl
@[simp] theorem State.openTransaction_rif : s.openTransaction.rif = s.rif := rfl
@[simp] theorem State.openTransaction_smu : s.openTransaction.smu = s.smu := rfl
@[simp] theorem State.openTransaction_stc : s.openTransaction.stc = s.stc := rfl
@[simp] theorem State.openTransaction_udir : s.openTransaction.udir = s.udir := rfl
@[simp] theorem State.openTransaction_ctxs : s.openTransaction.ctxs = s.ctxs := rfl
@[simp] theorem State.openTransaction_path : s.openTransaction.path = s.path := rfl
@[simp] theorem State.openTransaction_oku : s.openTransaction.oku = s.oku := rfl
@[simp] theorem State.openTransaction_pending : s.openTransaction.pending = s.pending := rfl

/-! ### Operations that test first -/

@[simp] theorem State.post_now (x : Notice) : (s.post x).now = s.now := by unfold State.post; split <;> rfl
@[simp] theorem State.post_eventNo (x : Notice) : (s.post x).eventNo = s.eventNo := by unfold State.post; split <;> rfl
@[simp] theorem State.post_pins (x : Notice) : (s.post x).pins = s.pins := by unfold State.post; split <;> rfl
@[simp] theorem State.post_rif (x : Notice) : (s.post x).rif = s.rif := by unfold State.post; split <;> rfl
@[simp] theorem State.post_smu (x : Notice) : (s.post x).smu = s.smu := by unfold State.post; split <;> rfl
@[simp] theorem State.post_stc (x : Notice) : (s.post x).stc = s.stc := by unfold State.post; split <;> rfl
@[simp] theorem State.post_udir (x : Notice) : (s.post x).udir = s.udir := by unfold State.post; split <;> rfl
@[simp] theorem State.post_ctxs (x : Notice) : (s.post x).ctxs = s.ctxs := by unfold State.post; split <;> rfl
@[simp] theorem State.post_path (x : Notice) : (s.post x).path = s.path := by unfold State.post; split <;> rfl
@[simp] theorem State.post_oku (x : Notice) : (s.post x).oku = s.oku := by unfold State.post; split <;> rfl
@[simp] theorem State.post_pending (x : Notice) : (s.post x).pending = s.pending := by unfold State.post; split <;> rfl

@[simp] theorem State.queueFrame_now (f : Frame) : (s.queueFrame f).now = s.now := by unfold State.queueFrame; split <;> rfl
@[simp] theorem State.queueFrame_eventNo (f : Frame) : (s.queueFrame f).eventNo = s.eventNo :=
  by unfold State.queueFrame; split <;> rfl
@[simp] theorem State.queueFrame_pins (f : Frame) : (s.queueFrame f).pins = s.pins := by unfold State.queueFrame; split <;> rfl
@[simp] theorem State.queueFrame_smu (f : Frame) : (s.queueFrame f).smu = s.smu := by unfold State.queueFrame; split <;> rfl
@[simp] theorem State.queueFrame_stc (f : Frame) : (s.queueFrame f).stc = s.stc := by unfold State.queueFrame; split <;> rfl
@[simp] theorem State.queueFrame_udir (f : Frame) : (s.queueFrame f).udir = s.udir := by unfold State.queueFrame; split <;> rfl
@[simp] theorem State.queueFrame_ctxs (f : Frame) : (s.queueFrame f).ctxs = s.ctxs := by unfold State.queueFrame; split <;> rfl
@[simp] theorem State.queueFrame_path (f : Frame) : (s.queueFrame f).path = s.path := by unfold State.queueFrame; split <;> rfl
@[simp] theorem State.queueFrame_oku (f : Frame) : (s.queueFrame f).oku = s.oku := by unfold State.queueFrame; split <;> rfl
@[simp] theorem State.queueFrame_sport (f : Frame) : (s.queueFrame f).sport = s.sport := by unfold State.queueFrame; split <;> rfl
@[simp] theorem State.queueFrame_pending (f : Frame) : (s.queueFrame f).pending = s.pending :=
  by unfold State.queueFrame; split <;> rfl

@[simp] theorem State.askRecall_now (id : FrameId) : (s.askRecall id).now = s.now := by unfold State.askRecall; split <;> rfl
@[simp] theorem State.askRecall_eventNo (id : FrameId) : (s.askRecall id).eventNo = s.eventNo :=
  by unfold State.askRecall; split <;> rfl
@[simp] theorem State.askRecall_pins (id : FrameId) : (s.askRecall id).pins = s.pins := by unfold State.askRecall; split <;> rfl
@[simp] theorem State.askRecall_smu (id : FrameId) : (s.askRecall id).smu = s.smu := by unfold State.askRecall; split <;> rfl
@[simp] theorem State.askRecall_stc (id : FrameId) : (s.askRecall id).stc = s.stc := by unfold State.askRecall; split <;> rfl
@[simp] theorem State.askRecall_udir (id : FrameId) : (s.askRecall id).udir = s.udir := by unfold State.askRecall; split <;> rfl
@[simp] theorem State.askRecall_ctxs (id : FrameId) : (s.askRecall id).ctxs = s.ctxs := by unfold State.askRecall; split <;> rfl
@[simp] theorem State.askRecall_path (id : FrameId) : (s.askRecall id).path = s.path := by unfold State.askRecall; split <;> rfl
@[simp] theorem State.askRecall_oku (id : FrameId) : (s.askRecall id).oku = s.oku := by unfold State.askRecall; split <;> rfl
@[simp] theorem State.askRecall_sport (id : FrameId) : (s.askRecall id).sport = s.sport :=
  by unfold State.askRecall; split <;> rfl
@[simp] theorem State.askRecall_pending (id : FrameId) : (s.askRecall id).pending = s.pending :=
  by unfold State.askRecall; split <;> rfl

@[simp] theorem State.modifyCtx_now (i : Ref) (g : Ctx → Ctx) : (s.modifyCtx i g).now = s.now :=
  by unfold State.modifyCtx; split <;> rfl
@[simp] theorem State.modifyCtx_eventNo (i : Ref) (g : Ctx → Ctx) : (s.modifyCtx i g).eventNo = s.eventNo :=
  by unfold State.modifyCtx; split <;> rfl
@[simp] theorem State.modifyCtx_pins (i : Ref) (g : Ctx → Ctx) : (s.modifyCtx i g).pins = s.pins :=
  by unfold State.modifyCtx; split <;> rfl
@[simp] theorem State.modifyCtx_rif (i : Ref) (g : Ctx → Ctx) : (s.modifyCtx i g).rif = s.rif :=
  by unfold State.modifyCtx; split <;> rfl
@[simp] theorem State.modifyCtx_smu (i : Ref) (g : Ctx → Ctx) : (s.modifyCtx i g).smu = s.smu :=
  by unfold State.modifyCtx; split <;> rfl
@[simp] theorem State.modifyCtx_stc (i : Ref) (g : Ctx → Ctx) : (s.modifyCtx i g).stc = s.stc :=
  by unfold State.modifyCtx; split <;> rfl
@[simp] theorem State.modifyCtx_udir (i : Ref) (g : Ctx → Ctx) : (s.modifyCtx i g).udir = s.udir :=
  by unfold State.modifyCtx; split <;> rfl
@[simp] theorem State.modifyCtx_path (i : Ref) (g : Ctx → Ctx) : (s.modifyCtx i g).path = s.path :=
  by unfold State.modifyCtx; split <;> rfl
@[simp] theorem State.modifyCtx_oku (i : Ref) (g : Ctx → Ctx) : (s.modifyCtx i g).oku = s.oku :=
  by unfold State.modifyCtx; split <;> rfl
@[simp] theorem State.modifyCtx_sport (i : Ref) (g : Ctx → Ctx) : (s.modifyCtx i g).sport = s.sport :=
  by unfold State.modifyCtx; split <;> rfl
@[simp] theorem State.modifyCtx_pending (i : Ref) (g : Ctx → Ctx) : (s.modifyCtx i g).pending = s.pending :=
  by unfold State.modifyCtx; split <;> rfl

/-! ### Within a part -/

@[simp] theorem State.post_config (x : Notice) : (s.post x).sport.config = s.sport.config := by unfold State.post; split <;> rfl
@[simp] theorem State.post_dnd (x : Notice) : (s.post x).sport.dnd = s.sport.dnd := by unfold State.post; split <;> rfl
@[simp] theorem State.queueFrame_recalls (f : Frame) : (s.queueFrame f).rif.recalls = s.rif.recalls := by
  unfold State.queueFrame; split <;> rfl
@[simp] theorem State.askRecall_queue (id : FrameId) : (s.askRecall id).rif.queue = s.rif.queue := by
  unfold State.askRecall; split <;> rfl
@[simp] theorem State.forgetRecall_queue (id : FrameId) : (s.forgetRecall id).rif.queue = s.rif.queue := rfl
@[simp] theorem State.forgetOpenRecall_queue (id : FrameId) : (s.forgetOpenRecall id).rif.queue = s.rif.queue := rfl
@[simp] theorem State.markRecall_queue (id : FrameId) (x : RecallStatus) : (s.markRecall id x).rif.queue = s.rif.queue := rfl
@[simp] theorem State.dropQueued_recalls (id : FrameId) : (s.dropQueued id).rif.recalls = s.rif.recalls := rfl
@[simp] theorem State.dropCarrying_recalls : s.dropCarrying.rif.recalls = s.rif.recalls := rfl

end Sys2Proof.Machine
end

