-- ==== Sys2Proof/Laws/Ops.lean ====
section
/-! SUPPORT. What the shared operations over contexts, path records, keys, fault inputs, the transmit queue and the slot map give,
each said once for the proofs to cite. -/

namespace Sys2Proof.Machine

/-! ### Members of a RING -/

theorem distinctMembers_snoc (ms : List Byte) (m : Byte) :
    distinctMembers (ms ++ [m]) = if (distinctMembers ms).contains m then distinctMembers ms else distinctMembers ms ++ [m] := by
  simp [distinctMembers, List.foldl_append]

/-- A RING's distinct members are those it carries (R128). -/
@[simp] theorem mem_distinctMembers {ms : List Byte} {a : Byte} : a ∈ distinctMembers ms ↔ a ∈ ms := by
  induction ms using List.reverseRecOn with
  | nil => simp [distinctMembers]
  | append_singleton ms m ih => rw [distinctMembers_snoc]; split <;> simp_all; rintro rfl; exact ih.mp ‹_›

/-- No address stands twice among them (R128). -/
theorem distinctMembers_nodup (ms : List Byte) : (distinctMembers ms).Nodup := by
  induction ms using List.reverseRecOn with
  | nil => simp [distinctMembers]
  | append_singleton ms m ih =>
    rw [distinctMembers_snoc]
    split
    · exact ih
    · exact List.nodup_append.mpr ⟨ih, List.nodup_singleton m, by simp_all; rintro a ha rfl; exact absurd ha ‹_›⟩

/-- Addresses that stand once each stand as carried. -/
theorem distinctMembers_of_nodup {ms : List Byte} (h : ms.Nodup) : distinctMembers ms = ms := by
  induction ms using List.reverseRecOn with
  | nil => rfl
  | append_singleton ms m ih =>
    obtain ⟨h1, -, h2⟩ := List.nodup_append.mp h
    rw [distinctMembers_snoc, ih h1, if_neg]
    simpa using fun hm => h2 m hm m (by simp) rfl

/-! ### Contexts -/

/-- A set context reads as set, and every other one as before. -/
@[simp] theorem State.ctx_setCtx (s : State) (i j : Ref) (c : Option Ctx) : (s.setCtx i c).ctx j = if j = i then c else s.ctx j := by
  unfold State.setCtx State.ctx
  by_cases h : j = i
  · subst h; simp
  · simp [h, Vector.getElem_set_ne, Fin.val_ne_of_ne (Ne.symm h)]

/-- A change of a live context changes that one alone. -/
theorem State.ctx_modifyCtx (s : State) (i j : Ref) (f : Ctx → Ctx) :
    (s.modifyCtx i f).ctx j = if j = i then (s.ctx i).map f else s.ctx j := by
  unfold State.modifyCtx
  by_cases h : j = i
  · subst h; cases hc : s.ctx j <;> simp [hc]
  · cases hc : s.ctx i <;> simp [h]

/-- Equal context vectors give equal contexts. -/
theorem State.ctx_congr {s t : State} (h : t.ctxs = s.ctxs) (i : Ref) : t.ctx i = s.ctx i := by unfold State.ctx; rw [h]

/-- The four references. -/
theorem mem_refs (i : Ref) : i ∈ refs := by revert i; decide

/-- The context found for a call is live, on the side asked for, and carries the call id (R128). -/
theorem findCtx_some {s : State} {side : Side} {c : CallId} {i : Ref} (h : s.findCtx side c = some i) :
    ∃ x, s.ctx i = some x ∧ x.side = side ∧ x.cid = c := by
  have hp := List.find?_some h
  cases hc : s.ctx i with
  | none => simp [hc] at hp
  | some x => simp [hc] at hp; exact ⟨x, rfl, hp⟩

/-- No context is found exactly where no live context of the side carries the call id. -/
theorem findCtx_none {s : State} {side : Side} {c : CallId} (h : s.findCtx side c = none) (i : Ref) (x : Ctx)
    (hx : s.ctx i = some x) : ¬ (x.side = side ∧ x.cid = c) := by
  have := List.find?_eq_none.mp h i (mem_refs i)
  simpa [hx] using this

/-- The lowest free context is free (R101). -/
theorem freeRef_some {s : State} {i : Ref} (h : s.freeRef = some i) : s.ctx i = none := by
  simpa using List.find?_some h

/-! ### Transmit queue -/

/-- An accepted request stands at the end of the queue as it was asked for, and a refused one changes nothing (R47, R48). -/
theorem queueFrame_accepted {s : State} {f : Frame} (h : s.accepts f = true) :
    s.queueFrame f = { s with rif := { s.rif with queue := s.rif.queue ++ [⟨f, 0, .waiting⟩] } } := by
  unfold State.queueFrame; rw [if_pos h]

theorem queueFrame_full {s : State} {f : Frame} (h : s.accepts f = false) : s.queueFrame f = s := by
  unfold State.queueFrame; rw [if_neg (by rw [h]; exact Bool.false_ne_true)]

/-- A recall is asked exactly of a queued frame that has no unanswered one, and stands last in the list (R56). -/
theorem askRecall_recalls (s : State) (id : FrameId) :
    (s.askRecall id).rif.recalls =
      if s.queued id = true ∧ ∀ r ∈ s.rif.recalls, r.opens id = false then s.rif.recalls ++ [⟨id, .asked⟩] else s.rif.recalls := by
  unfold State.askRecall
  by_cases h : s.queued id = true ∧ ∀ r ∈ s.rif.recalls, r.opens id = false
  · rw [if_pos h, if_pos (by simpa using h)]
  · rw [if_neg h, if_neg (by simpa using h)]

/-- The RECLAIM slot and the shared place are held by an answered recall exactly where one of the kind is on its way back. -/
theorem placeHeld_iff (s : State) (k : FrameKind) :
    s.placeHeld k = true ↔ ∃ r ∈ s.rif.recalls, r.id.kind = k ∧ r.status = .answered .recalled := by
  simp [State.placeHeld]

/-- An entry found in carriage is in the queue and carries. -/
theorem carrying_some {s : State} {e : Entry} (h : s.carrying = some e) : e ∈ s.rif.queue ∧ e.carriage = .carrying :=
  ⟨List.mem_of_find?_eq_some h, by simpa using List.find?_some h⟩

/-! ### PATH -/

/-- A set record reads as set, and every other one as before. -/
@[simp] theorem Path.record_setRec (p : Path) (i j : Ref) (r : Option PathRec) :
    (p.setRec i r).record j = if j = i then r else p.record j := by
  unfold Path.setRec Path.record
  by_cases h : j = i
  · subst h; simp
  · simp [h, Vector.getElem_set_ne, Fin.val_ne_of_ne (Ne.symm h)]

@[simp] theorem Path.enable_setRec (p : Path) (i : Ref) (r : Option PathRec) (n : Nat) : (p.setRec i r).enable n = p.enable n := rfl
@[simp] theorem Path.record_setBlock (p : Path) (b : Block) (e : Option Enable) (i : Ref) :
    (p.setBlock b e).record i = p.record i := rfl

/-- The enables after a run of settings to one value. -/
theorem foldl_setIfInBounds (e : Option Enable) (l : List Nat) : ∀ (v : Vector (Option Enable) 24) (n : Nat) (hn : n < 24),
    (l.foldl (fun v k => v.setIfInBounds k e) v)[n] = if n ∈ l then e else v[n] := by
  induction l with
  | nil => intro v n hn; simp
  | cons k l ih =>
    intro v n hn
    rw [List.foldl_cons, ih]
    by_cases h : n ∈ l
    · simp [h]
    · by_cases hk : k = n
      · subst hk; simp [h]
      · simp [h, hk, Ne.symm hk]

/-- A block's enables are set, within the 24 channels, and every other one stands (R147). -/
theorem Path.enable_setBlock (p : Path) (b : Block) (e : Option Enable) (n : Nat) :
    (p.setBlock b e).enable n = if n < 24 ∧ b.1 ≤ n ∧ n < b.1 + b.2 then e else p.enable n := by
  have hm : n ∈ blockChannels b ↔ b.1 ≤ n ∧ n < b.1 + b.2 := by
    unfold blockChannels
    simp only [List.mem_map, List.mem_range]
    constructor
    · rintro ⟨k, hk, rfl⟩; omega
    · intro h; exact ⟨n - b.1, by omega, by omega⟩
  unfold Path.enable Path.setBlock
  by_cases hn : n < 24
  · simp only [hn, Vector.getElem?_eq_getElem, foldl_setIfInBounds, true_and]
    by_cases h : n ∈ blockChannels b
    · rw [if_pos h, if_pos (hm.mp h)]
    · rw [if_neg h, if_neg (fun k => h (hm.mpr k))]
  · simp [hn]

/-- A set detector reads as set, and every other one as before (R146). -/
theorem Path.detector_setDetector (p : Path) (h h' : Half) (n : Channel) (k : Nat) (b : Bool) :
    (p.setDetector h n b).detector h' k = if h' = h ∧ k = n.val then b else p.detector h' k := by
  unfold Path.setDetector Path.detector
  cases h <;> cases h' <;> simp [Vector.getElem?_set, eq_comm] <;> split <;> simp_all

/-! ### OKU -/

/-- A set key reads as set, and every other one as before. -/
@[simp] theorem Oku.key_setKey (o : Oku) (j k : Key) (x : KeyState) : (o.setKey k x).key j = if j = k then x else o.key j := by
  cases j <;> cases k <;> rfl

/-- A set input level reads as set, and every other one as before. -/
@[simp] theorem Pins.level_setLevel (p : Pins) (j k : Key) (b : Bool) : (p.setLevel k b).level j = if j = k then b else p.level j := by
  cases j <;> cases k <;> rfl

/-- A set fault input reads as set, and the other one as before. -/
@[simp] theorem Oku.fault_setFault (o : Oku) (j k : FaultKind) (x : FaultInput) :
    (o.setFault k x).fault j = if j = k then x else o.fault j := by
  cases j <;> cases k <;> rfl

/-! ### The slot map -/

/-- The holds after an insertion are the holds before it and the new one. -/
theorem mem_insertHold {h x : Hold} {hs : List Hold} : x ∈ insertHold h hs ↔ x = h ∨ x ∈ hs := by
  induction hs with
  | nil => simp [insertHold]
  | cons y ys ih => unfold insertHold; split <;> simp [ih]; tauto

/-- A channel is free exactly where no hold covers it (R1). -/
theorem channelFree_iff {hs : List Hold} {n : Nat} : channelFree hs n = true ↔ ∀ h ∈ hs, h.covers n = false := by
  simp [channelFree, holderOf]

/-- A block is free exactly where each of its channels is. -/
theorem blockFree_iff {hs : List Hold} {b w : Nat} : blockFree hs b w = true ↔ ∀ n, b ≤ n → n < b + w → channelFree hs n = true := by
  simp only [blockFree, List.all_eq_true, List.mem_range]
  constructor
  · intro h n h1 h2; have := h (n - b) (by omega); rwa [Nat.add_sub_cancel' h1] at this
  · intro h k hk; exact h _ (by omega) (by omega)

/-- The hold found for a call id is in the copy and bears it (R3). -/
theorem holdOf_some {m : Smu} {c : CallId} {h : Hold} (k : m.holdOf c = some h) : h ∈ m.holds ∧ h.cid = c :=
  ⟨List.mem_of_find?_eq_some k, by simpa using List.find?_some k⟩

/-- The wait entry found for a call id is in the copy and bears it (R3). -/
theorem waitOf_some {m : Smu} {c : CallId} {w : WaitEntry} (k : m.waitOf c = some w) : w ∈ m.waits ∧ w.cid = c :=
  ⟨List.mem_of_find?_eq_some k, by simpa using List.find?_some k⟩

/-- A removed call id has nothing in the copy (R9). -/
theorem has_removeItem (s : State) (c : CallId) : (s.removeItem c).smu.has c = false := by
  simp [State.removeItem, Smu.has, Smu.holdOf, Smu.waitOf]

/-- Holds and wait entries of other call ids stay at a removal (R9). -/
theorem mem_removeItem {s : State} {c : CallId} {h : Hold} : h ∈ (s.removeItem c).smu.holds ↔ h ∈ s.smu.holds ∧ h.cid ≠ c := by
  simp [State.removeItem]

/-! ### UDIR -/

/-- A change of every line, at one line. -/
@[simp] theorem getElem_mapLines (f : Option DirLine → Option DirLine) (v : Vector (Option DirLine) 64) (k : Nat) (hk : k < 64) :
    (mapLines f v)[k] = f v[k] := by
  simp [mapLines]

/-- A station that leaves whatever line lists it, seen at one line (R89). -/
theorem getElem_removeStation (a : Byte) (v : Vector (Option DirLine) 64) (k : Nat) (hk : k < 64) :
    (removeStation a v)[k] = withoutMember a v[k] := getElem_mapLines _ _ _ _

/-! ### Transactions -/

/-- A code gives an unknown request exactly where R175 lists it for no request (R174). -/
theorem requestOf_unknown (code : Byte) (fs : List Byte) : requestOf code fs = .unknownRequest code fs ↔ code ∉ requestCodes := by
  unfold requestOf requestCodes
  simp only [List.mem_cons, List.not_mem_nil, or_false, not_or]
  constructor
  · intro h; refine ⟨?_, ?_, ?_, ?_, ?_, ?_, ?_, ?_, ?_, ?_, ?_, ?_, ?_, ?_, ?_, ?_⟩ <;> (rintro rfl; simp at h)
  · rintro ⟨h1, h2, h3, h4, h5, h6, h7, h8, h9, h10, h11, h12, h13, h14, h15, h16⟩
    simp only [h1, h2, h3, h4, h5, h6, h7, h8, h9, h10, h11, h12, h13, h14, h15, h16, if_false]

/-- A transaction's bytes give a well-formed command (R173). -/
theorem transactionOf_wf (bs : List Byte) : (transactionOf bs).wf = true := by
  unfold transactionOf
  split
  · rename_i code len rest
    split
    · have hf : fieldsWf (rest.take len.toNat) = true := by
        have := len.isLt
        simp only [fieldsWf, List.length_take, decide_eq_true_eq]; omega
      by_cases hc : code ∈ requestCodes
      · simp only [requestCodes, List.mem_cons, List.not_mem_nil, or_false] at hc
        rcases hc with h | h | h | h | h | h | h | h | h | h | h | h | h | h | h | h <;> subst h <;> exact hf
      · rw [(requestOf_unknown code _).mpr hc]
        simp [Instr.wf, hf, hc]
    · rfl
  · rfl

end Sys2Proof.Machine
end

