-- ==== Sys2Proof/Laws/Path.lean ====
section
/-! SUPPORT. What PATH's arbitration gives, said once: the contents of enables, the candidate for the port, a change of owner, and
the re-reckoning (R147, R154). -/

namespace Sys2Proof.Machine

/-! ### Enables -/

/-- A lit record: one of its block's enables is ON for its context. -/
theorem Path.lit_iff {p : Path} {i : Ref} {r : PathRec} (h : p.record i = some r) :
    p.lit i = true ↔ ∃ n e, r.base ≤ n ∧ n < r.base + r.width ∧ p.enable n = some e ∧ e.ref = i := by
  unfold Path.lit
  rw [h]
  simp only [List.any_eq_true, blockChannels, PathRec.block, List.mem_map, List.mem_range]
  constructor
  · rintro ⟨_, ⟨k, hk, rfl⟩, he⟩
    cases hn : p.enable (r.base + k) with
    | none => simp [hn] at he
    | some e => exact ⟨r.base + k, e, by omega, by omega, hn, by simpa [hn] using he⟩
  · rintro ⟨n, e, h0, h1, hn, he⟩
    exact ⟨n, ⟨n - r.base, by omega, by omega⟩, by simp [hn, he]⟩

/-- Without a record nothing is lit. -/
theorem Path.lit_none {p : Path} {i : Ref} (h : p.record i = none) : p.lit i = false := by unfold Path.lit; rw [h]

@[simp] theorem Path.record_setContent (p : Path) (i j : Ref) (c : Content) : (p.setContent i c).record j = p.record j := by
  unfold Path.setContent; split
  · split <;> rfl
  · rfl

/-- A lit record's enables take a content together, and no other enable changes (R154). -/
theorem Path.enable_setContent {p : Path} {i : Ref} {r : PathRec} (h : p.record i = some r) (c : Content) (n : Nat) :
    (p.setContent i c).enable n =
      if p.lit i = true ∧ n < 24 ∧ r.base ≤ n ∧ n < r.base + r.width then some ⟨i, r.sendHalf, c⟩ else p.enable n := by
  unfold Path.setContent
  rw [h]
  by_cases hl : p.lit i = true
  · simp [hl, Path.enable_setBlock, PathRec.block]
  · simp [hl]

/-- A context without a record has no content to take. -/
theorem Path.setContent_none {p : Path} {i : Ref} (h : p.record i = none) (c : Content) : p.setContent i c = p := by
  unfold Path.setContent; rw [h]

/-! ### The owner -/

@[simp] theorem Path.record_withOwner (p : Path) (o : Option Ref) (j : Ref) : (p.withOwner o).record j = p.record j := by
  unfold Path.withOwner; split
  · rfl
  · split <;> rfl

@[simp] theorem Path.enable_withOwner (p : Path) (o : Option Ref) (n : Nat) : (p.withOwner o).enable n = p.enable n := by
  unfold Path.withOwner; split
  · rfl
  · split <;> rfl

/-- A record that comes to own the port gives it its width and its openness (R154). -/
theorem Path.withOwner_some {p : Path} {i : Ref} {r : PathRec} (h : p.record i = some r) :
    (p.withOwner (some i)).owner = some i ∧ (p.withOwner (some i)).rate = r.width
      ∧ (p.withOwner (some i)).gate = decide (r.stage = .opened) := by
  unfold Path.withOwner; simp [h]

/-- Without an owner the rate is 1 and the gate CLOSED (R154, R155). -/
theorem Path.withOwner_none (p : Path) : (p.withOwner none).owner = none ∧ (p.withOwner none).rate = 1 ∧ (p.withOwner none).gate = false :=
  ⟨rfl, rfl, rfl⟩

@[simp] theorem Path.record_changeOwner (p : Path) (o : Option Ref) (j : Ref) : (p.changeOwner o).record j = p.record j := by
  unfold Path.changeOwner
  cases p.owner <;> cases o <;> simp

/-- A candidate for the port is a lit record outside MUTE, with its settle order (R154). -/
theorem Path.claimOrder_some {p : Path} {i : Ref} {o : Stamp} :
    p.claimOrder i = some o ↔ ∃ r, p.record i = some r ∧ r.stage ≠ .mute ∧ p.lit i = true ∧ r.order = o := by
  unfold Path.claimOrder
  cases h : p.record i with
  | none => simp
  | some r => simp [and_assoc]

/-- The earliest of two candidates is one of them. -/
theorem earlier_mem {a b : Option (Stamp × Ref)} {x : Stamp × Ref} (h : earlier a b = some x) : a = some x ∨ b = some x := by
  unfold earlier at h
  split at h
  · split at h
    · exact .inr h
    · exact .inl h
  · exact .inl h
  · exact .inr h

theorem earlier_none {a b : Option (Stamp × Ref)} : earlier a b = none ↔ a = none ∧ b = none := by
  cases a <;> cases b <;> simp [earlier]
  split <;> simp

/-- The port's best owner is a candidate (R154). -/
theorem Path.bestOwner_some {p : Path} {i : Ref} (h : p.bestOwner = some i) :
    ∃ r, p.record i = some r ∧ r.stage ≠ .mute ∧ p.lit i = true := by
  have key : ∀ j : Ref, ∀ x : Stamp × Ref, (p.claimOrder j).map (fun o => (o, j)) = some x → x.2 = i →
      ∃ r, p.record i = some r ∧ r.stage ≠ .mute ∧ p.lit i = true := by
    intro j x hx hi
    obtain ⟨o, ho, rfl⟩ := Option.map_eq_some_iff.mp hx
    obtain rfl : j = i := hi
    obtain ⟨r, h1, h2, h3, _⟩ := Path.claimOrder_some.mp ho
    exact ⟨r, h1, h2, h3⟩
  obtain ⟨x, hx, hi⟩ := Option.map_eq_some_iff.mp h
  rcases earlier_mem hx with hx | hx
  · rcases earlier_mem hx with hx | hx
    · rcases earlier_mem hx with hx | hx
      · exact key _ x hx hi
      · exact key _ x hx hi
    · exact key _ x hx hi
  · exact key _ x hx hi

/-- The port has no best owner exactly where there is no candidate (R154). -/
theorem Path.bestOwner_none {p : Path} : p.bestOwner = none ↔ ∀ i, p.claimOrder i = none := by
  unfold Path.bestOwner
  simp only [Option.map_eq_none_iff, earlier_none]
  constructor
  · rintro ⟨⟨⟨h0, h1⟩, h2⟩, h3⟩ i
    match i with
    | 0 => exact h0
    | 1 => exact h1
    | 2 => exact h2
    | 3 => exact h3
  · intro h; exact ⟨⟨⟨h 0, h 1⟩, h 2⟩, h 3⟩

/-- The best owner depends on the candidates alone. -/
theorem Path.bestOwner_congr {p q : Path} (h : ∀ i, q.claimOrder i = p.claimOrder i) : q.bestOwner = p.bestOwner := by
  unfold Path.bestOwner; simp only [h]

/-! ### Re-reckoning -/

@[simp] theorem State.postPath_path (s : State) (i : Ref) (b : Bool) : (s.postPath i b).path = s.path := by
  unfold State.postPath; split
  · simp
  · rfl

/-- The re-reckoning changes PATH by a change of owner, where the best owner is another, and posts a PATH notice at most (R154,
R161). -/
theorem State.reckonOwner_path (s : State) :
    s.reckonOwner.path = if s.path.bestOwner = s.path.owner then s.path else s.path.changeOwner s.path.bestOwner := by
  unfold State.reckonOwner
  dsimp only
  split
  · rfl
  · split
    · split
      · split <;> simp
      · rfl
    · rfl

@[simp] theorem State.record_reckonOwner (s : State) (i : Ref) : s.reckonOwner.path.record i = s.path.record i := by
  rw [State.reckonOwner_path]; split <;> simp

/-- After the re-reckoning the best owner owns the port (R154). -/
theorem State.reckonOwner_owner (s : State) : s.reckonOwner.path.owner = s.path.bestOwner := by
  rw [State.reckonOwner_path]
  split
  · next h => exact h.symm
  · unfold Path.changeOwner
    cases hb : s.path.bestOwner with
    | none => exact (Path.withOwner_none _).1
    | some i =>
      obtain ⟨r, hr, _⟩ := Path.bestOwner_some hb
      refine (Path.withOwner_some (r := r) ?_).1
      cases s.path.owner <;> simp [hr]

end Sys2Proof.Machine
end

