-- ==== Sys2Proof/Tests/Slice0.lean ====
section
/-! SUPPORT. Tests: ill-formed commands that the check refuses, moments of the spec's worked sequences, and for each statement with
premises a state and operands that meet them, clause by clause, at the edges of their ranges. -/

namespace Sys2Proof.Machine.Test

open Sys2Proof Sys2Proof.Machine

/-! ### Small states -/

/-- A JOINED station of a role and address, with nothing live. -/
def joined (r : Role) (a : Byte) : State :=
  { State.reset with
    pins := { State.reset.pins with supply := true }
    rif := { State.reset.rif with supply := .present, polarity := .normal }
    stc := { State.reset.stc with state := .joined, locked := true, outcome := .empty }
    sport := { State.reset.sport with
      config := { ConfigRecord.powerOn with
        role := r, address := a, unit := if r = .unit then 1204#16 else 0#16, capability := 4#8 } } }

/-- An entrance panel, a handset and a desk set. -/
def panel : State := joined .entry 2#8
def handset : State := joined .unit 200#8
def desk : State := joined .desk 240#8

def inState (st : StationState) (s : State) : State := { s with stc := { s.stc with state := st, locked := st.locks } }

/-- Context 0 live. -/
def withCtx (y : Ctx) (s : State) : State := s.setCtx 0 (some y)

/-- A transmit queue. -/
def withQueue (q : List Entry) (s : State) : State := { s with rif := { s.rif with queue := q } }

/-- One frame in carriage after some spoiled attempts. -/
def carried (f : Frame) (attempts : Nat := 0) : Entry := ⟨f, attempts, .carrying⟩

def withSmu (hs : List Hold) (ws : List WaitEntry) (s : State) : State := { s with smu := ⟨hs, ws⟩ }

def hold (c : CallId) (b w : Nat) : Hold := ⟨c, b, w, ⟨0, 0⟩, .armed 900000⟩

def waiting (c : CallId) (w : Nat) : WaitEntry := ⟨c, w, ⟨0, 0⟩, .armed 120000⟩

/-- All 24 channels held by six calls of station 33. -/
def fullHolds : List Hold := [hold ⟨33, 1⟩ 0 4, hold ⟨33, 2⟩ 4 4, hold ⟨33, 3⟩ 8 4, hold ⟨33, 4⟩ 12 4, hold ⟨33, 5⟩ 16 4, hold ⟨33, 6⟩ 20 4]

/-- Line 45 lists unit 877 (R84). -/
def withLine (u : UnitNum) (ms : List Member) (s : State) : State :=
  { s with udir := { s.udir with lines := s.udir.lines.set (lineIndex u) (some ⟨u, ms⟩) } }

/-- The panel's call 2/60 to unit 877, announced. -/
def ringing : Ctx :=
  { side := .origin, cid := ⟨2, 60⟩, state := .ringing, peerUnit := 877#16, members := [200#8, 201#8], wanted := 1, announced := true,
    ring := some 30000 }

/-- The same call as handset 200 has it. -/
def alerting : Ctx :=
  { side := .answer, cid := ⟨2, 60⟩, state := .alerting, peerUnit := 877#16, members := [200#8, 201#8], origAddr := 2#8, wanted := 1,
    alert := some 90000 }

def inTalk : Ctx := { ringing with state := .talk, ring := none, answerer := some 200#8, path := some (0, 1), talk := some 180000 }

def answererTalk : Ctx := { alerting with state := .talk, alert := none, path := some (0, 1) }

def cleared (y : Ctx) (k : Cause) (a : Awaits) : Ctx := { y.stopTimers with state := .clearing, cause := some k, awaits := a, endPosted := true }

/-- A lit path of context 0 on channel 0, owning the port. -/
def withPath (r : PathRec) (s : State) : State :=
  { s with path := { (s.path.setRec 0 (some r)).setBlock r.block (some ⟨0, r.sendHalf, .stream⟩) with owner := some 0, rate := r.width } }

def openPath : PathRec :=
  { base := 0, width := 1, sendHalf := .forward, trimmed := false, stage := .opened, settleTimer := none, unmuteTimer := none,
    muteTimer := none, loss := noLoss, order := ⟨0, 1⟩ }

/-- The state after a command. -/
def after (c : Instr) (s : State) : State :=
  match exec c s with
  | .next t => t
  | .fault r => nomatch r
  | .refused _ => s

theorem only_context_zero {s : State} (h1 : s.ctx 1 = none) (h2 : s.ctx 2 = none) (h3 : s.ctx 3 = none) (P : Ref → Ctx → Prop) :
    ∀ j z, s.ctx j = some z → j ≠ 0 → P j z := by
  intro j z h hj
  match j with
  | 0 => exact absurd rfl hj
  | 1 => rw [h1] at h; cases h
  | 2 => rw [h2] at h; cases h
  | 3 => rw [h3] at h; cases h

theorem no_context {s : State} (h0 : s.ctx 0 = none) (h1 : s.ctx 1 = none) (h2 : s.ctx 2 = none) (h3 : s.ctx 3 = none)
    (P : Ref → Ctx → Prop) : ∀ j z, s.ctx j = some z → P j z := by
  intro j z h
  match j with
  | 0 => rw [h0] at h; cases h
  | 1 => rw [h1] at h; cases h
  | 2 => rw [h2] at h; cases h
  | 3 => rw [h3] at h; cases h

theorem only_record_zero {s : State} (h1 : s.path.record 1 = none) (h2 : s.path.record 2 = none) (h3 : s.path.record 3 = none)
    (P : Ref → PathRec → Prop) : ∀ j r, s.path.record j = some r → j ≠ 0 → P j r := by
  intro j r h hj
  match j with
  | 0 => exact absurd rfl hj
  | 1 => rw [h1] at h; cases h
  | 2 => rw [h2] at h; cases h
  | 3 => rw [h3] at h; cases h

theorem apart_of {p : Path} {i : Ref} {r : PathRec}
    (h : ∀ j : Ref, j ≠ i → (p.record j).all (fun x => x.base + x.width ≤ r.base || r.base + r.width ≤ x.base) = true) : p.ApartFrom i r :=
  fun j x hx hj => by have := h j hj; rw [hx] at this; simpa using this

/-- A hold of channel 0 for context 0's call, and a lit record of it alone as its stage has it. -/
def lit (r : PathRec) (y : Ctx) (s : State) : State :=
  let mutes := decide (r.stage = .mute)
  { withSmu [hold y.cid 0 1] [] (withCtx y s) with
    path := { State.reset.path with
      enables := State.reset.path.enables.setIfInBounds 0 (some ⟨0, r.sendHalf, if mutes then .silence else .stream⟩)
      recs := State.reset.path.recs.set (0 : Fin 4) (some r)
      owner := if mutes then none else some 0
      gate := decide (r.stage = .opened) } }

theorem path_law_of_dark {s : State} (h : s.path = State.reset.path) : PathLaw s := by
  have hr : ∀ i : Ref, s.path.record i = none := by rw [h]; decide
  have he : ∀ n, s.path.enable n = none := by
    intro n; rw [h]; simp only [Path.enable, State.reset, Vector.getElem?_replicate]; split <;> simp_all
  refine ⟨fun i r x => ?_, fun n e x => ?_, by rw [h]; decide, fun _ => by rw [h]; decide, fun i x => ?_⟩
  · rw [hr] at x; cases x
  · rw [he] at x; cases x
  · rw [h] at x; cases x

theorem path_law_of_lit {r : PathRec} {y : Ctx} {s : State} (hb : r.block = (0, 1)) (hf : r.Fits y s.now) : PathLaw (lit r y s) := by
  obtain ⟨h0, h1⟩ : r.base = 0 ∧ r.width = 1 := Prod.mk.inj hb
  have hr : (lit r y s).path.record 0 = some r := rfl
  have only : ∀ i q, (lit r y s).path.record i = some q → i = 0 ∧ q = r := fun i q h => by
    by_cases hi : i = 0
    · subst hi; exact ⟨rfl, (Option.some.inj (hr.symm.trans h)).symm⟩
    · exact (only_record_zero (s := lit r y s) rfl rfl rfl (fun _ _ => False) i q h hi).elim
  have he : ∀ n, (lit r y s).path.enable n
      = if n = 0 then some ⟨0, r.sendHalf, if decide (r.stage = .mute) then .silence else .stream⟩ else none := fun n => by
    simp only [lit, Path.enable, Vector.getElem?_setIfInBounds, State.reset, Vector.getElem?_replicate]
    by_cases h : n = 0
    · simp [h]
    · by_cases h24 : n < 24 <;> simp [h, Ne.symm h, h24]
  have hl : (lit r y s).path.lit 0 = true := by
    have e0 := he 0
    simp only [Path.lit, hr, PathRec.block, h0, h1, blockChannels, List.range_one, List.map_cons, List.map_nil, List.any_cons,
      List.any_nil, Nat.add_zero, e0]
    simp
  have hown : (lit r y s).path.owner = if decide (r.stage = .mute) then none else some 0 := rfl
  have hbest : (lit r y s).path.bestOwner = if decide (r.stage = .mute) then none else some 0 := by
    have c : ∀ i : Ref, i ≠ 0 → (lit r y s).path.claimOrder i = none := fun i hi => by
      unfold Path.claimOrder
      cases h : (lit r y s).path.record i with
      | none => rfl
      | some q => exact absurd (only i q h).1 hi
    have c0 : (lit r y s).path.claimOrder 0 = if decide (r.stage = .mute) then none else some r.order := by
      simp only [Path.claimOrder, hr, hl]; by_cases hm : r.stage = .mute <;> simp [hm]
    simp only [Path.bestOwner, c0, c 1 (by decide), c 2 (by decide), c 3 (by decide)]
    by_cases hm : r.stage = .mute <;> simp [hm, earlier]
  refine ⟨fun i q h => ?_, fun n e h => ?_, hown.trans hbest.symm, fun h => ?_, fun i h => ?_⟩
  · obtain ⟨rfl, rfl⟩ := only i q h
    refine ⟨⟨y, hold y.cid 0 1, by simp [lit, withSmu, withCtx, State.ctx, State.setCtx], hf,
      by simp [lit, withSmu, Smu.holdOf, hold], hb.symm⟩, fun n a b => ?_⟩
    have : n = 0 := by omega
    subst this; rw [he, hown]; by_cases hm : q.stage = .mute <;> simp [hm]
  · rw [he] at h; split at h
    · next hn => cases h; subst hn; exact ⟨r, hr, by omega, by omega⟩
    · cases h
  · refine ⟨?_, rfl⟩
    by_cases hm : r.stage = .mute
    · simp [lit, hm]
    · rw [hown] at h; simp [hm] at h
  · rw [hown] at h; split at h
    · cases h
    · cases h; exact ⟨r, hr, h1.symm, rfl⟩

theorem context_law_of {s : State} {y : Ctx} (h : s.ctx 0 = some y ∧ s.ctx 1 = none ∧ s.ctx 2 = none ∧ s.ctx 3 = none) (hf : y.Fits) :
    ContextLaw s := fun i c hc => by
  by_cases hi : i = 0
  · subst hi; exact (Option.some.inj (h.1.symm.trans hc)) ▸ hf
  · exact (only_context_zero h.2.1 h.2.2.1 h.2.2.2 (fun _ _ => False) i c hc hi).elim

theorem single_call_of {s : State} (h : s.ctx 1 = none ∧ s.ctx 2 = none ∧ s.ctx 3 = none) :
    ∀ i j y z, s.ctx i = some y → s.ctx j = some z → y.cid = z.cid → i = j := fun i j y z hi hj _ => by
  by_cases h0 : i = 0
  · by_cases h1 : j = 0
    · rw [h0, h1]
    · exact (only_context_zero h.1 h.2.1 h.2.2 (fun _ _ => False) j z hj h1).elim
  · exact (only_context_zero h.1 h.2.1 h.2.2 (fun _ _ => False) i y hi h0).elim
/-! ### Well-formedness -/

theorem test_wf_taken_frame_sender : Instr.wf (.leaveTaken 0) = false ∧ Instr.wf (.leaveTaken 251) = false ∧ Instr.wf (.leaveTaken 250) = true := by
  decide

theorem test_wf_snapshot_counts :
    Instr.wf (.snapshotTaken 3 (List.replicate 25 ⟨⟨1, 1⟩, 0, 1⟩) []) = false
      ∧ Instr.wf (.snapshotTaken 3 [] (List.replicate 17 ⟨⟨1, 1⟩, 1⟩)) = false ∧ Instr.wf (.snapshotTaken 3 [] []) = true := by decide

theorem test_wf_ring_members :
    Instr.wf (.ringTaken 2 ⟨2, 1⟩ 12 1 0 0 []) = false ∧ Instr.wf (.ringTaken 2 ⟨2, 1⟩ 12 1 0 0 [1, 2, 3, 4, 5]) = false
      ∧ Instr.wf (.ringTaken 2 ⟨2, 1⟩ 12 1 0 0 [1, 2, 3, 4]) = true := by decide

theorem test_wf_unsuited : Instr.wf (.unsuitedFrameTaken 3 0x12 []) = false ∧ Instr.wf (.unsuitedFrameTaken 3 0x12 [0]) = true
    ∧ Instr.wf (.unsuitedFrameTaken 0 0x12 []) = true ∧ Instr.wf (.unsuitedFrameTaken 3 0x7F []) = true := by decide

theorem test_wf_received_length : Instr.wf (.frameSpoiled 3 (List.replicate 166 0)) = false := by
  rw [show Instr.wf (.frameSpoiled 3 (List.replicate 166 0)) = decide ((List.replicate 166 (0 : Byte)).length ≤ 165) from rfl,
    List.length_replicate]
  decide

theorem test_wf_audit_call : Instr.wf (.auditExpiry ⟨0, 1⟩) = false := by decide

theorem test_wf_seek_unit : Instr.wf (.seekWindowExpiry 10000) = false ∧ Instr.wf (.seekWindowExpiry 9999) = true := by decide

theorem test_wf_request_length (fs : List Byte) (h : fs = List.replicate 256 0) :
    Instr.wf (.configure fs) = false ∧ Instr.wf (.join fs) = false ∧ Instr.wf (.restart fs) = false ∧ Instr.wf (.dial fs) = false
      ∧ Instr.wf (.answer fs) = false ∧ Instr.wf (.hangup fs) = false ∧ Instr.wf (.openDoor fs) = false
      ∧ Instr.wf (.setDnd fs) = false ∧ Instr.wf (.clearFault fs) = false ∧ Instr.wf (.purge fs) = false
      ∧ Instr.wf (.readNotice fs) = false ∧ Instr.wf (.readStatus fs) = false ∧ Instr.wf (.readSlots fs) = false
      ∧ Instr.wf (.readWaits fs) = false ∧ Instr.wf (.readLine fs) = false ∧ Instr.wf (.readContext fs) = false
      ∧ Instr.wf (.unknownRequest 0x7F fs) = false := by
  have h' : fieldsWf fs = false := by rw [fieldsWf, h, List.length_replicate]; decide
  simp [Instr.wf, h']

theorem test_wf_unknown_code : Instr.wf (.unknownRequest 0x10 []) = false ∧ Instr.wf (.unknownRequest 0x7F []) = true := by decide

/-! ### Frames -/

/-- The check value of the polynomial and preset of R59. -/
theorem test_check_sequence :
    checkSequence [0x31#8, 0x32#8, 0x33#8, 0x34#8, 0x35#8, 0x36#8, 0x37#8, 0x38#8, 0x39#8] = 0x29B1#16 := by
  set_option maxRecDepth 100000 in rfl

/-- The snapshot bodies of the worked sequence: 14 bytes for three holds, 18 for four. -/
theorem test_snapshot_body_length :
    (Smu.compose ⟨[hold ⟨3, 118⟩ 0 4, hold ⟨21, 40⟩ 8 4, hold ⟨33, 8⟩ 12 4], []⟩).body.length = 14
      ∧ (Smu.compose ⟨[hold ⟨3, 118⟩ 0 4, hold ⟨21, 40⟩ 8 4, hold ⟨33, 8⟩ 12 4, hold ⟨242, 10⟩ 16 2], []⟩).body.length = 18 := by decide

theorem test_parse_frames :
    parseFrame 0x32 [2, 60, 3, 109, 1, 0, 0, 2, 200, 201] = none
      ∧ parseFrame FrameKind.ring.code [2, 60, 3, 109, 1, 0, 0, 2, 200, 201] = some (.ring ⟨2, 60⟩ 877 1 0 0 [200, 201])
      ∧ parseFrame FrameKind.claim.code [3, 41, 2, 2] = some (.claim ⟨3, 41⟩ 2 2)
      ∧ parseFrame FrameKind.leave.code [] = some .leave ∧ parseFrame FrameKind.leave.code [1] = none := by decide

/-! ### Premises met: the machine, supply and polarity -/

theorem test_witness_StepRunsTheFrontCommand : panel.pending = [] := by decide

def brownOut : State := { panel with pins := { panel.pins with supply := false } }
def learning : State :=
  let s := inState .learning handset
  { s with rif := { s.rif with polarity := .unknown } }

theorem test_witness_SupplyAndPolarity :
    (panel.pins.supply = true ∧ panel.rif.supply = .present)
      ∧ (let s := { State.reset with pins := { State.reset.pins with supply := true } }; s.pins.supply = true ∧ s.rif.supply = .lost)
      ∧ (brownOut.pins.supply = false ∧ brownOut.rif.supply = .present)
      ∧ (State.reset.pins.supply = false ∧ State.reset.rif.supply = .lost)
      ∧ (learning.stc.state = .learning ∧ learning.rif.polarity = .unknown)
      ∧ (panel.stc.state ≠ .learning ∨ panel.rif.polarity ≠ .unknown) := by decide

def losing (st : StationState) : State :=
  let s := inState st panel
  { s with rif := { s.rif with lossTimer := some 50 } }

theorem test_witness_RiserLossAndReturn :
    (∀ st ∈ [StationState.learning, .joined, .leaving, .unconfigured, .configured, .isolated],
      (losing st).rif.lossTimer = some 50 ∧ (losing st).stc.state = st)
      ∧ (let s := inState .isolated panel
         let t := { s with rif := { s.rif with supply := .lost, returnTimer := some 20 } }
         t.rif.returnTimer = some 20 ∧ t.stc.state = .isolated ∧ t.rif.queue = [])
      ∧ (let t := { State.reset with rif := { State.reset.rif with returnTimer := some 20 } }
         t.rif.returnTimer = some 20 ∧ t.stc.state ≠ .isolated) := by decide

/-! ### Premises met: openings, spoils and recalls -/

/-- Five frames: a SEEK, then the candidate CLAIM, then a CLAIM and a RING, then a RECLAIM that had not reached RIF. -/
def contending : State :=
  withQueue [.fresh (.seek 877), .fresh (.claim ⟨2, 60⟩ 0 1), .fresh (.wait ⟨2, 61⟩ 1), .fresh (.refuse ⟨3, 1⟩ 4), .fresh (.reclaim ⟨9, 44⟩)]
    panel

theorem test_witness_OpeningCarriesTheOldestOfTheLowestClass :
    let pre := [Entry.fresh (.seek 877)]
    let e := Entry.fresh (.claim ⟨2, 60⟩ 0 1)
    let post := [Entry.fresh (.wait ⟨2, 61⟩ 1), .fresh (.refuse ⟨3, 1⟩ 4)]
    let late := [Entry.fresh (.reclaim ⟨9, 44⟩)]
    contending.onRiser = true ∧ contending.carrying = none ∧ contending.rif.queue = pre ++ e :: post ++ late
      ∧ (∀ x ∈ pre, e.frame.cls < x.frame.cls) ∧ (∀ x ∈ post, e.frame.cls ≤ x.frame.cls)
      ∧ (∀ o : ArbKey, o ∈ [⟨2, 1⟩, ⟨1, 2⟩] → e.frame.cls < o.cls.toNat ∨ (e.frame.cls = o.cls.toNat ∧ contending.own ≤ o.addr))
      ∧ (∀ o : ArbKey, o ∈ [⟨0, 250⟩, ⟨1, 1⟩] → o.cls.toNat < e.frame.cls ∨ (e.frame.cls = o.cls.toNat ∧ o.addr < contending.own))
      ∧ State.reset.onRiser = false ∧ panel.rif.queue.length ≤ 0 ∧ contending.rif.queue.length ≤ 5 := by
  decide

def sendingLeave : State := withQueue [carried .leave] (inState .leaving panel)

theorem test_witness_ConflictLeavesTheRiser :
    (sendingLeave.onRiser = true ∧ sendingLeave.carrying.isSome = true)
      ∧ (panel.onRiser = true ∧ panel.carrying = none ∧ takenFrame (.leaveTaken 2) = some (panel.own, .leave)) := by decide

theorem test_witness_UnsuitedAndUnheardFramesDoNothing :
    (3#8 ≠ panel.own) ∧ (State.reset.onRiser = false ∧ takenFrame (.leaveTaken 3) = some (3, .leave))
      ∧ (∀ x : Byte, x ∈ [0, 251] → takenFrame (.leaveTaken x) = some (x, .leave) ∧ x ≠ panel.own ∧ validAddr x = false)
      ∧ (∀ ms : List Byte, ms ∈ [[], [1, 2, 3, 4, 5]] → takenFrame (.ringTaken 3 ⟨3, 1⟩ 12 1 0 0 ms) = some (3, .ring ⟨3, 1⟩ 12 1 0 0 ms)
        ∧ Frame.suits (.ring ⟨3, 1⟩ 12 1 0 0 ms) = false) := by decide

def spoiling (f : Frame) (attempts : Nat) (s : State) : State := withQueue [.fresh (.refuse ⟨3, 1⟩ 4), carried f attempts] s

theorem test_witness_SpoilMarksAndAttempts :
    (panel.onRiser = true ∧ panel.carrying = none ∧ ([0x12, 3] : List Byte).length < 3)
      ∧ (let s := spoiling .leave 14 (inState .leaving panel)
         let e := carried .leave 14
         s.onRiser = true ∧ s.rif.queue = [Entry.fresh (.refuse ⟨3, 1⟩ 4)] ++ e :: [] ∧ e.carriage = .carrying
           ∧ (∀ x ∈ [Entry.fresh (.refuse ⟨3, 1⟩ 4)] ++ [], x.carriage = .waiting) ∧ s.recallHeld e.frame.ident = false
           ∧ e.attempts + 1 < 16) := by decide

def releasing : State := spoiling (.release ⟨2, 60⟩ 1) 15 (withCtx (cleared inTalk .hungUp .release) panel)
def answering : State := spoiling (.answer ⟨2, 60⟩ 4) 15 (withCtx { alerting with state := .answering, alert := none } handset)
def reclaiming : State := spoiling (.reclaim ⟨9, 44⟩) 15 (withSmu [{ hold ⟨9, 44⟩ 20 1 with audit := .reclaimQueued }] [] panel)

theorem test_witness_SixteenthSpoilDropsTheFrame :
    (∀ f ∈ [Frame.snapshot [] [], .refuse ⟨3, 1⟩ 4, .opened ⟨2, 60⟩ 1],
      let s := spoiling f 15 panel
      s.onRiser = true ∧ s.rif.queue = [Entry.fresh (.refuse ⟨3, 1⟩ 4)] ++ carried f 15 :: [] ∧ s.recallHeld f.ident = false
        ∧ s.stc.state ≠ .leaving ∧ (f.kind = .snapshot ∨ f.kind = .refuse ∨ f.kind = .opened))
      ∧ (releasing.rif.queue = [Entry.fresh (.refuse ⟨3, 1⟩ 4)] ++ carried (.release ⟨2, 60⟩ 1) 15 :: []
        ∧ releasing.findCall ⟨2, 60⟩ = some 0 ∧ releasing.ctx 0 = some (cleared inTalk .hungUp .release))
      ∧ (answering.rif.queue = [Entry.fresh (.refuse ⟨3, 1⟩ 4)] ++ carried (.answer ⟨2, 60⟩ 4) 15 :: []
        ∧ answering.findCtx .answer ⟨2, 60⟩ = some 0 ∧ answering.ctx 0 = some { alerting with state := .answering, alert := none })
      ∧ (reclaiming.rif.queue = [Entry.fresh (.refuse ⟨3, 1⟩ 4)] ++ carried (.reclaim ⟨9, 44⟩) 15 :: []
        ∧ reclaiming.smu.holdOf ⟨9, 44⟩ = some { hold ⟨9, 44⟩ 20 1 with audit := .reclaimQueued } ∧ reclaiming.smu.overdue = [])
      ∧ (let s := spoiling panel.joinFrame 15 panel
         s.stc.state = .joined ∧ s.kindQueued .leave = false ∧ ∀ x ∈ [Entry.fresh (.refuse ⟨3, 1⟩ 4)] ++ [], x.frame.kind ≠ .join)
      ∧ (let s := spoiling .leave 15 (inState .leaving panel)
         s.onRiser = true ∧ s.stc.state = .leaving ∧ s.recallHeld Frame.leave.ident = false) := by decide

/-- A queue within every allowance, with one frame in carriage at most. -/
theorem queue_law_of {s : State} (h : ∀ k ∈ [Category.snapshot, .reclaim, .shared, .stc, .call], s.rif.count k ≤ k.allowance)
    (h1 : ∀ e ∈ s.rif.queue, e.attempts < Config.dropAttempts)
    (h2 : s.rif.queue.countP (fun e => e.carriage = .carrying) ≤ 1) : QueueLaw s :=
  ⟨fun k => h k (by cases k <;> decide), h1, h2⟩

/-- A CLAIM's recall has been asked. -/
def recalling (q : List Entry) (id : FrameId) : State :=
  { panel with rif := { panel.rif with queue := q, recalls := [⟨id, .asked⟩] } }

theorem test_witness_RecallAnswersByTheEntry :
    let f := Frame.claim ⟨2, 60⟩ 0 1
    (∀ e ∈ [Entry.fresh f, carried f 3],
      let s := recalling [e] f.ident
      (s.rif.recalls.find? fun r => r.id = f.ident) = some ⟨f.ident, .asked⟩ ∧ (s.rif.queue.find? fun e => e.frame.ident = f.ident) = some e)
      ∧ (let id : FrameId := ⟨.snapshot, .bare⟩
         let s := recalling [] id
         (s.rif.recalls.find? fun r => r.id = id) = some ⟨id, .asked⟩ ∧ s.stc.state ≠ .leaving ∧ s.queued id = false) := by decide

/-! ### Premises met: learning -/

/-- A learner with a buffer of some frames, its polarity known. -/
def learner (buffered : Nat) : State :=
  let s := inState .learning handset
  { s with stc := { s.stc with buffer := List.replicate buffered (3, .leave) } }

theorem test_witness_LearningBuffersFrames :
    (∀ n ∈ [0, 31, 32],
      let s := learner n
      s.stc.state = .learning ∧ s.rif.polarity ≠ .unknown ∧ s.carrying = none ∧ 3#8 ≠ s.own ∧ validAddr 3 = true
        ∧ takenFrame (.leaveTaken 3) = some (3, .leave) ∧ Frame.leave.kind ≠ .snapshot ∧ Frame.leave.suits = true
        ∧ s.stc.buffer.length = n)
      ∧ (let s := withQueue [carried handset.joinFrame] (learner 31)
         s.stc.state = .learning ∧ s.carrying.map Entry.frame = some (.join 1 1204 4) ∧ validAddr s.own = true
           ∧ s.stc.buffer.length < 32) := by decide

theorem test_witness_LearnTimerExpiryAppliesTheBuffer :
    let s := learner 32
    ({ s with stc := { s.stc with learn := some 1000 } } : State).stc.learn = some 1000 := by decide

/-- Panel 9's snapshot of the worked sequence, and one whose blocks overlap. -/
def snapHolds9 : List SnapHold := [⟨⟨9, 44⟩, 20, 1⟩]
def badHolds : List SnapHold := [⟨⟨9, 44⟩, 20, 1⟩, ⟨⟨3, 1⟩, 20, 1⟩]

theorem test_witness_SnapshotEndsLearning :
    let s := learner 1
    s.stc.state = .learning ∧ s.rif.polarity ≠ .unknown ∧ s.carrying = none ∧ 3#8 ≠ s.own ∧ validAddr 3 = true
      ∧ (Frame.snapshot snapHolds9 []).suits = true ∧ snapValid snapHolds9 [] = true
      ∧ (Frame.snapshot badHolds []).suits = true ∧ snapValid badHolds [] = false := by decide

theorem test_witness_SnapshotIsComparedInJoined :
    (panel.member = true ∧ panel.carrying = none ∧ 3#8 ≠ panel.own ∧ validAddr 3 = true ∧ (Frame.snapshot snapHolds9 []).suits = true)
      ∧ snapValid snapHolds9 [] = true ∧ panel.smu.equalTo snapHolds9 [] = false
      ∧ (withSmu [hold ⟨9, 44⟩ 20 1] [] panel).smu.equalTo snapHolds9 [] = true ∧ snapValid badHolds [] = false
      ∧ (inState .leaving panel).member = true := by decide

/-! ### Premises met: the slot map and the wait list -/

theorem hears_of {s : State} {x : Byte} {f : Frame} (h : s.member = true) (h1 : s.carrying = none) (h2 : x ≠ s.own)
    (h3 : validAddr x = true) (h4 : f.suits = true) : s.hears x f := ⟨h, h1, h2, h3, h4⟩

theorem echoes_of {s : State} {x : Byte} {f : Frame} (h : s.member = true) (h1 : x = s.own) (h2 : s.carrying.map Entry.frame = some f)
    (h3 : validAddr x = true) (h4 : f.suits = true) : s.echoes x f := ⟨h, h1, h2, h3, h4⟩

theorem test_claim_rows :
    let m : Smu := ⟨[hold ⟨3, 1⟩ 4 4], []⟩
    claimTest m 2 ⟨2, 60⟩ 0 3 = some .malformed ∧ claimTest m 2 ⟨2, 60⟩ 2 4 = some .malformed
      ∧ claimTest m 2 ⟨2, 60⟩ 24 1 = some .malformed ∧ claimTest m 2 ⟨3, 60⟩ 0 1 = some .malformed
      ∧ claimTest m 3 ⟨3, 1⟩ 0 1 = some .duplicate ∧ claimTest m 2 ⟨2, 60⟩ 6 2 = some .notFree
      ∧ claimTest m 2 ⟨2, 60⟩ 23 1 = none ∧ claimTest m 2 ⟨2, 60⟩ 0 4 = none := by decide

theorem test_wait_rows :
    let m : Smu := ⟨fullHolds, (List.range 16).map fun n => waiting ⟨4, byte n⟩ 1⟩
    waitTest m 5 ⟨5, 14⟩ 2 = some .full ∧ waitTest m 5 ⟨5, 14⟩ 3 = some .malformed ∧ waitTest m 4 ⟨4, 15⟩ 1 = some .duplicate
      ∧ waitTest ⟨fullHolds, m.waits.take 15⟩ 5 ⟨5, 14⟩ 2 = none := by decide

theorem test_witness_ClaimTakenComparesAndSwaps :
    panel.takesFrame 3 (.claim ⟨3, 41⟩ 2 2) ∧ claimTest panel.smu 3 ⟨3, 41⟩ 2 2 = none
      ∧ panel.takesFrame 3 (.claim ⟨3, 41⟩ 2 4) ∧ claimTest panel.smu 3 ⟨3, 41⟩ 2 4 ≠ none :=
  ⟨.inl (hears_of (by decide) (by decide) (by decide) (by decide) (by decide)), by decide,
    .inl (hears_of (by decide) (by decide) (by decide) (by decide) (by decide)), by decide⟩

def claiming : Ctx := { ringing with state := .claiming, ring := none, answerer := some 200#8 }
def waitingCtx : Ctx := { claiming with state := .waiting, wait := some 30000 }

def fullPanel : State := withSmu fullHolds [] panel

/-- The own CLAIM of context 0 in carriage, with nothing held and no path. -/
def placing (y : Ctx) (s : State) : State := withQueue [carried (.claim ⟨2, 60⟩ 23 1)] (withCtx y s)

/-- A desk set in TALK on channel 0, its second call in CLAIMING with its CLAIM in carriage. -/
def secondCall : State :=
  lit openPath { inTalk with cid := ⟨240, 6⟩ }
    { withQueue [carried (.claim ⟨240, 7⟩ 22 2)] (desk.setCtx 1 (some { claiming with cid := ⟨240, 7⟩ })) with eventNo := 5 }

theorem test_witness_OwnClaimStartsSettling :
    (let s := placing claiming panel
     s.echoes s.own (.claim ⟨2, 60⟩ 23 1) ∧ claimTest s.smu s.own ⟨2, 60⟩ 23 1 = none ∧ s.ctx 0 = some claiming
       ∧ (claiming.side = .origin ∧ claiming.cid = ⟨2, 60⟩ ∧ claiming.state = .claiming)
       ∧ (∀ j z, s.ctx j = some z → j ≠ 0 → z.cid ≠ ⟨2, 60⟩) ∧ PathLaw s ∧ s.path.owner = none)
      ∧ (secondCall.echoes secondCall.own (.claim ⟨240, 7⟩ 22 2) ∧ claimTest secondCall.smu secondCall.own ⟨240, 7⟩ 22 2 = none
        ∧ secondCall.ctx 1 = some { claiming with cid := ⟨240, 7⟩ } ∧ secondCall.ctx 2 = none ∧ secondCall.ctx 3 = none
        ∧ (secondCall.ctx 0).map Ctx.cid = some ⟨240, 6⟩ ∧ PathLaw secondCall ∧ secondCall.path.owner = some 0
        ∧ secondCall.path.record 0 = some openPath ∧ openPath.order.older ⟨secondCall.now, secondCall.eventNo + 1⟩ = true) :=
  ⟨⟨echoes_of (by decide) (by decide) (by decide) (by decide) (by decide), by decide, by decide, by decide,
      only_context_zero (by decide) (by decide) (by decide) _, path_law_of_dark rfl, by decide⟩,
    echoes_of (by decide) (by decide) (by decide) (by decide) (by decide), by decide, by decide, by decide, by decide, by decide,
    path_law_of_lit rfl ⟨rfl, rfl, rfl, rfl, rfl, rfl⟩, by decide, by decide, by decide⟩

/-- The second call settles beside the first, which keeps the audio port. -/
theorem test_second_call_settles_in_silence :
    let t := after (.claimTaken 240 ⟨240, 7⟩ 22 2) secondCall
    (t.ctx 1).map Ctx.path = some (some (22, 2)) ∧ t.path.owner = some 0 ∧ t.path.gate = true
      ∧ (List.range 24).filterMap (fun n => (t.path.enable n).map fun e => (n, e.ref, e.content))
        = [(0, 0, .stream), (22, 1, .silence), (23, 1, .silence)] := by decide

/-- The own CLAIM fails: its block held, at the first and the fourth attempt and with no channel free; its width wrong; its call with a
hold or a wait entry, below the fourth attempt and at it. -/
def failing : List (Ctx × Byte × Byte × ClaimReason × State) :=
  let held := withSmu [hold ⟨3, 1⟩ 23 1] [] panel
  let own := withSmu [hold ⟨2, 60⟩ 4 4] [] panel
  let waits := withSmu fullHolds [waiting ⟨4, 10⟩ 4, waiting ⟨2, 60⟩ 1] panel
  [(claiming, 23, 1, .notFree, held), ({ claiming with attempts := 3 }, 23, 1, .notFree, held), (claiming, 23, 1, .notFree, fullPanel),
    (claiming, 23, 3, .malformed, panel), (claiming, 23, 1, .duplicate, own), ({ claiming with attempts := 3 }, 23, 1, .duplicate, own),
    (claiming, 23, 1, .duplicate, waits)]

def failed (p : Ctx × Byte × Byte × ClaimReason × State) : State :=
  withQueue [carried (.claim ⟨2, 60⟩ p.2.1 p.2.2.1)] (withCtx p.1 p.2.2.2.2)

theorem test_witness_own_claim_fails :
    ∀ p ∈ failing,
      let s := failed p
      s.echoes s.own (.claim ⟨2, 60⟩ p.2.1 p.2.2.1) ∧ claimTest s.smu s.own ⟨2, 60⟩ p.2.1.toNat p.2.2.1.toNat = some p.2.2.2.1
        ∧ (s.ctx 0 = some p.1 ∧ s.ctx 1 = none ∧ s.ctx 2 = none ∧ s.ctx 3 = none) ∧ p.1.state = .claiming ∧ SlotLaw s.smu ∧ PathLaw s
        ∧ (s.onEcho ⟨.claim, .call ⟨2, 60⟩⟩).accepts (.claim ⟨2, 60⟩ 0 1) = true := by
  have dark : ∀ p ∈ failing, (failed p).path = State.reset.path := by decide
  have rest : ∀ p ∈ failing,
      let s := failed p
      s.echoes s.own (.claim ⟨2, 60⟩ p.2.1 p.2.2.1) ∧ claimTest s.smu s.own ⟨2, 60⟩ p.2.1.toNat p.2.2.1.toNat = some p.2.2.2.1
        ∧ (s.ctx 0 = some p.1 ∧ s.ctx 1 = none ∧ s.ctx 2 = none ∧ s.ctx 3 = none) ∧ p.1.state = .claiming ∧ SlotLaw s.smu
        ∧ (s.onEcho ⟨.claim, .call ⟨2, 60⟩⟩).accepts (.claim ⟨2, 60⟩ 0 1) = true := by
    unfold State.echoes SlotLaw Hold.Aligned; decide
  intro p hp
  obtain ⟨a, b, c, d, e, f⟩ := rest p hp
  exact ⟨a, b, c, d, e, path_law_of_dark (dark p hp), f⟩

/-- What a failed CLAIM leaves: the state, the attempts and the reason, and the next frame. -/
theorem test_own_claim_fails_outcomes :
    failing.map (fun p =>
      let t := after (.claimTaken 2 ⟨2, 60⟩ p.2.1 p.2.2.1) (failed p)
      ((t.ctx 0).map fun c => (c.state, c.attempts, c.lastReason), t.rif.queue.map Entry.frame)) =
      let first := Frame.claim ⟨2, 60⟩ 0 1
      let waits := Frame.wait ⟨2, 60⟩ 1
      [(some (.claiming, 1, some .notFree), [first]), (some (.claiming, 4, some .notFree), [waits]),
        (some (.claiming, 1, some .notFree), [waits]), (some (.claiming, 1, some .malformed), [first]),
        (some (.settling, 1, some .duplicate), []), (some (.claiming, 4, some .duplicate), [waits]),
        (some (.waiting, 1, some .duplicate), [])] := by decide

theorem test_witness_slot_law : SlotLaw fullPanel.smu ∧ SlotLaw (withSmu [hold ⟨9, 44⟩ 20 1] [] panel).smu
    ∧ SlotLaw (withSmu fullHolds [waiting ⟨4, 10⟩ 4] panel).smu := by
  unfold SlotLaw Hold.Aligned; decide

theorem test_witness_WaitTakenAppendsOrIsGranted :
    (fullPanel.takesFrame 5 (.wait ⟨5, 14⟩ 2) ∧ waitTest fullPanel.smu 5 ⟨5, 14⟩ 2 = none ∧ freeCount fullPanel.smu.holds = 0)
      ∧ waitTest fullPanel.smu 5 ⟨5, 14⟩ 3 ≠ none
      ∧ (let s := withSmu (fullHolds.take 5) [] panel
         waitTest s.smu 5 ⟨5, 14⟩ 2 = none ∧ freeCount s.smu.holds ≠ 0) :=
  ⟨⟨.inl (hears_of (by decide) (by decide) (by decide) (by decide) (by decide)), by decide, by decide⟩, by decide, by decide⟩

/-- The own WAIT of a CLAIMING context: added, at once granted, refused for a full list, and refused for its width. -/
def ownWaits : List (Byte × Option WaitReason × State) :=
  [(1, none, withSmu fullHolds [waiting ⟨4, 10⟩ 4] panel), (2, none, withSmu [hold ⟨9, 44⟩ 20 1] [] panel),
    (1, some .full, withSmu fullHolds ((List.range 16).map fun n => waiting ⟨4, byte n⟩ 1) panel), (3, some .malformed, fullPanel)]

def ownWait (p : Byte × Option WaitReason × State) : State := withQueue [carried (.wait ⟨2, 60⟩ p.1)] (withCtx claiming p.2.2)

theorem test_witness_own_waits :
    ∀ p ∈ ownWaits,
      let s := ownWait p
      s.echoes s.own (.wait ⟨2, 60⟩ p.1) ∧ waitTest s.smu s.own ⟨2, 60⟩ p.1.toNat = p.2.1
        ∧ (s.ctx 0 = some claiming ∧ s.ctx 1 = none ∧ s.ctx 2 = none ∧ s.ctx 3 = none) ∧ SlotLaw s.smu ∧ PathLaw s
        ∧ (s.onEcho ⟨.wait, .call ⟨2, 60⟩⟩).accepts (.release ⟨2, 60⟩ 7) = true ∧ claiming.cause = none ∧ claiming.announced = true := by
  have dark : ∀ p ∈ ownWaits, (ownWait p).path = State.reset.path := by decide
  have rest : ∀ p ∈ ownWaits,
      let s := ownWait p
      s.echoes s.own (.wait ⟨2, 60⟩ p.1) ∧ waitTest s.smu s.own ⟨2, 60⟩ p.1.toNat = p.2.1
        ∧ (s.ctx 0 = some claiming ∧ s.ctx 1 = none ∧ s.ctx 2 = none ∧ s.ctx 3 = none) ∧ SlotLaw s.smu
        ∧ (s.onEcho ⟨.wait, .call ⟨2, 60⟩⟩).accepts (.release ⟨2, 60⟩ 7) = true ∧ claiming.cause = none ∧ claiming.announced = true := by
    unfold State.echoes SlotLaw Hold.Aligned; decide
  intro p hp
  obtain ⟨a, b, c, d, e⟩ := rest p hp
  exact ⟨a, b, c, d, path_law_of_dark (dark p hp), e⟩

/-- What the wait outcome leaves: the state and its cause, the frames queued, and the last notice. -/
theorem test_own_wait_outcomes :
    ownWaits.map (fun p =>
      let t := after (.waitTaken 2 ⟨2, 60⟩ p.1) (ownWait p)
      ((t.ctx 0).map fun c => (c.state, c.cause), t.rif.queue.map Entry.frame, t.sport.notices.getLast?)) =
      [(some (.waiting, none), [], some (.callState 0 ⟨2, 60⟩ (.waiting 2))),
        (some (.settling, none), [], some (.callState 0 ⟨2, 60⟩ (.settling 0 2 false))),
        (some (.clearing, some .congested), [.release ⟨2, 60⟩ 7], some (.callEnded 0 ⟨2, 60⟩ (some .congested))),
        (some (.clearing, some .pathFault), [.release ⟨2, 60⟩ 9], some (.callEnded 0 ⟨2, 60⟩ (some .pathFault)))] := by decide

theorem test_witness_ReleaseAndReclaimFreeTheCall :
    let s := withSmu fullHolds [waiting ⟨4, 10⟩ 4] panel
    s.takesFrame 33 (.release ⟨33, 1⟩ 1) ∧ s.takesFrame 5 (.reclaim ⟨33, 1⟩) ∧ s.smu.has ⟨33, 1⟩ = true
      ∧ s.smu.has ⟨7, 7⟩ = false ∧ 5#8 ≠ s.own :=
  ⟨.inl (hears_of (by decide) (by decide) (by decide) (by decide) (by decide)),
    .inl (hears_of (by decide) (by decide) (by decide) (by decide) (by decide)), by decide, by decide, by decide⟩

/-- Handset 200 in TALK on channel 0 in the forward half's other half, one hold, one lit record. -/
def talking : State :=
  withPath { openPath with sendHalf := .ret } (withSmu [hold ⟨2, 60⟩ 0 1] [] (withCtx answererTalk handset))

theorem test_witness_ReleaseEndsTheCall :
    (let y := cleared inTalk .hungUp .release
     let s := withQueue [carried (.release ⟨2, 60⟩ 1)] (withCtx y panel)
     s.echoes s.own (.release ⟨2, 60⟩ 1) ∧ s.ctx 0 = some y ∧ y.cid = ⟨2, 60⟩ ∧ y.state = .clearing)
      ∧ (talking.hears 2 (.release ⟨2, 60⟩ 1) ∧ SlotLaw talking.smu ∧ talking.ctx 0 = some answererTalk
        ∧ (answererTalk.cid = ⟨2, 60⟩ ∧ answererTalk.state = .talk) ∧ talking.smu.holdOf ⟨2, 60⟩ = some (hold ⟨2, 60⟩ 0 1)
        ∧ talking.smu.waits = [] ∧ (∀ j z, talking.ctx j = some z → j ≠ 0 → z.cid ≠ ⟨2, 60⟩)
        ∧ (∀ f ∈ talking.rif.queue, f.frame.kind ≠ .claim ∧ f.frame.kind ≠ .wait)
        ∧ (talking.path.record 0 = some { openPath with sendHalf := .ret } ∧ openPath.stage ≠ .mute)
        ∧ (∀ j r, talking.path.record j = some r → j ≠ 0 → r.base + r.width ≤ 0 ∨ 0 + 1 ≤ r.base)
        ∧ answererTalk.endPosted = false ∧ answererTalk.cause = none ∧ talking.sport.notices.length < 16) :=
  ⟨⟨echoes_of (by decide) (by decide) (by decide) (by decide) (by decide), by decide, by decide, by decide⟩,
    hears_of (by decide) (by decide) (by decide) (by decide) (by decide), by unfold SlotLaw Hold.Aligned; decide, by decide, by decide,
    by decide, by decide, only_context_zero (by decide) (by decide) (by decide) _, by decide, by decide,
    only_record_zero (by decide) (by decide) (by decide) _, by decide, by decide, by decide⟩

theorem test_witness_PlacementAndGrantScan :
    placement fullHolds 4 = none ∧ placement (fullHolds.drop 1) 4 = some (0, 4) ∧ placement (hold ⟨3, 1⟩ 0 1 :: fullHolds.drop 1) 4 = some (2, 2)
      ∧ placement [] 0 = none ∧ (∀ w ∈ [waiting ⟨4, 10⟩ 4], 1 ≤ w.wanted)
      ∧ (∀ c b, (panel.newHold c b).cid = c ∧ (panel.newHold c b).base = b.1 ∧ (panel.newHold c b).width = b.2) :=
  ⟨by decide, by decide, by decide, by decide, by decide, fun _ _ => ⟨rfl, rfl, rfl⟩⟩

/-! ### Premises met: the directory -/

/-- Line 45 of panel 2, and a full line. -/
def group : List Member := [⟨200, 2⟩, ⟨201, 1⟩, ⟨203, 2⟩]

theorem test_witness_FillLineSteps :
    let v := (withLine 877 group panel).udir.lines
    (membersOf v 877 = some group ∧ ∃ m ∈ group, m.addr = 203#8) ∧ (membersOf v 877 = some group ∧ ¬ ∃ m ∈ group, m.addr = 204#8)
      ∧ membersOf v 941 = none ∧ membersOf v 12 = none := by decide

theorem test_witness_JoinOfferLeaveKeepTheDirectory :
    panel.hears 3 (.join 1 1204 1) ∧ panel.hears 3 (.offer 9999 1) ∧ panel.hears 3 (.offer 10000 1) ∧ panel.hears 3 .leave
      ∧ (sendingLeave.echoes sendingLeave.own .leave ∧ sendingLeave.stc.state = .leaving)
      ∧ (let s := withQueue [carried (.offer 1204 4)] handset; s.echoes s.own (.offer 1204 4)) :=
  ⟨hears_of (by decide) (by decide) (by decide) (by decide) (by decide), hears_of (by decide) (by decide) (by decide) (by decide) (by decide),
    hears_of (by decide) (by decide) (by decide) (by decide) (by decide), hears_of (by decide) (by decide) (by decide) (by decide) (by decide),
    ⟨echoes_of (by decide) (by decide) (by decide) (by decide) (by decide), by decide⟩,
    echoes_of (by decide) (by decide) (by decide) (by decide) (by decide)⟩

/-- The own JOIN in carriage. -/
def ownJoin (s : State) : State := withQueue [carried s.joinFrame] s

theorem test_witness_own_join :
    ∀ s ∈ [panel, handset, inState .leaving panel, inState .leaving handset],
      (ownJoin s).echoes s.own s.joinFrame ∧ QueueLaw (ownJoin s) ∧ (ownJoin s).liveCount = 0 := by
  have h : ∀ s ∈ [panel, handset, inState .leaving panel, inState .leaving handset],
      (ownJoin s).echoes s.own s.joinFrame ∧ (ownJoin s).liveCount = 0
        ∧ (∀ k ∈ [Category.snapshot, .reclaim, .shared, .stc, .call], (ownJoin s).rif.count k ≤ k.allowance)
        ∧ (∀ e ∈ (ownJoin s).rif.queue, e.attempts < Config.dropAttempts)
        ∧ (ownJoin s).rif.queue.countP (fun e => e.carriage = .carrying) ≤ 1 := by unfold State.echoes; decide
  exact fun s hs => ⟨(h s hs).1, queue_law_of (h s hs).2.2.1 (h s hs).2.2.2.1 (h s hs).2.2.2.2, (h s hs).2.1⟩

/-- The handset lists itself under its unit; in LEAVING its LEAVE follows. -/
theorem test_own_join_outcomes :
    [handset, inState .leaving handset].map (fun s =>
      let t := after (.joinTaken 200 1 1204 4) (ownJoin s)
      (t.udir.lineAt (lineIndex 1204), t.rif.queue, t.stc.stagger))
      = [(some ⟨1204, [⟨200, 4⟩]⟩, [], none), (some ⟨1204, [⟨200, 4⟩]⟩, [Entry.fresh .leave], none)] := by decide

/-- A call in SEEKING and a seek record in some state for unit 9999. -/
def seeking : Ctx := { side := .origin, cid := ⟨2, 60⟩, state := .seeking, peerUnit := 9999#16, wanted := 1 }
def seeker (st : SeekState) (s : State) : State :=
  { withCtx seeking s with udir := { s.udir with seeks := [⟨9999#16, st, [0]⟩] } }

theorem test_witness_SeeksOpenAndResolve :
    (panel.hears 3 (.seek 9999) ∧ (9999#16 : UnitNum).toNat ≤ 9999)
      ∧ (∀ st ∈ [SeekState.pending, .queued, .opened 40],
        (seeker st panel).udir.seekOf 9999 = some ⟨9999#16, st, [0]⟩ ∧ (seeker st panel).ctx 0 = some seeking)
      ∧ (handset.stc.state = .joined ∧ handset.role ≠ .entry ∧ handset.sport.config.unit = 1204#16)
      ∧ (let s := withQueue [carried (.seek 9999)] (seeker .queued panel); s.echoes s.own (.seek 9999))
      ∧ (let s := withLine 9999 [⟨200, 2⟩] (seeker (.opened 40) panel)
         s.lookup 9999 = some [200#8] ∧ s.accepts (s.ringFrame seeking 0 [200#8]) = true)
      ∧ ((seeker (.opened 40) panel).lookup 9999 = none ∧ seeking.endPosted = false ∧ seeking.cause = none) :=
  ⟨⟨hears_of (by decide) (by decide) (by decide) (by decide) (by decide), by decide⟩, by decide, by decide,
    echoes_of (by decide) (by decide) (by decide) (by decide) (by decide), by decide, by decide⟩

/-- The one seek record. -/
def sought (u : UnitNum) (st : SeekState) (refs : List Ref) (s : State) : State :=
  { s with udir := { s.udir with seeks := [⟨u, st, refs⟩] } }

/-- Two calls of the desk set seek one unit. -/
def twoSeekers : State := sought 9999 (.opened 40) [0, 1] ((withCtx seeking desk).setCtx 1 (some { seeking with cid := ⟨2, 61⟩ }))

/-- A call in RINGING seeks the desk sets to forward. -/
def forwarding : Ctx := { ringing with forward := .seeking, ring := none }
def forwardSeeker (st : SeekState) : State := sought 0 st [0] (withCtx forwarding panel)

theorem test_witness_seek_windows :
    (∀ s ∈ [twoSeekers, withLine 9999 [⟨200, 2⟩] twoSeekers],
      s.udir.seekOf 9999 = some ⟨9999#16, .opened 40, [0, 1]⟩ ∧ ([0, 1] : List Ref).Nodup ∧ s.stc.state.sends = true
        ∧ s.rif.count .call + 2 ≤ 8 ∧ s.ctx 0 = some seeking ∧ (s.ctx 1).map Ctx.state = some .seeking ∧ s.sport.notices = [])
      ∧ (∀ s ∈ [forwardSeeker (.opened 40), withLine 0 [⟨240, 1⟩] (forwardSeeker (.opened 40))],
        s.udir.seekOf 0 = some ⟨0#16, .opened 40, [0]⟩ ∧ s.stc.state.sends = true ∧ s.rif.count .call + 1 ≤ 8 ∧ s.ctx 0 = some forwarding
          ∧ forwarding.state = .ringing ∧ forwarding.forward = .seeking ∧ forwarding.announced = true ∧ forwarding.cause = none)
      ∧ twoSeekers.lookup 9999 = none ∧ (withLine 9999 [⟨200, 2⟩] twoSeekers).lookup 9999 = some [200#8]
      ∧ (forwardSeeker (.opened 40)).lookup 0 = none
      ∧ (withLine 0 [⟨240, 1⟩] (forwardSeeker (.opened 40))).lookup 0 = some [240#8] := by decide

/-- The window's end at both calls, and at the forward: the states, what is reversible, and the frames queued. -/
theorem test_seek_window_outcomes :
    let outcome := fun (u : UnitNum) (s : State) =>
      let t := after (.seekWindowExpiry u) s
      (([0, 1] : List Ref).map fun i => (t.ctx i).map fun c => (c.state, c.forward, c.reversible), t.rif.queue.map Entry.frame)
    [outcome 9999 twoSeekers, outcome 9999 (withLine 9999 [⟨200, 2⟩] twoSeekers), outcome 0 (forwardSeeker (.opened 40)),
        outcome 0 (withLine 0 [⟨240, 1⟩] (forwardSeeker (.opened 40)))] =
      [([none, none], []),
        ([some (.ringing, .none, false), some (.ringing, .none, false)],
          [.ring ⟨2, 60⟩ 9999 1 2 0 [200], .ring ⟨2, 61⟩ 9999 1 2 0 [200]]),
        ([some (.clearing, .none, true), none], [.release ⟨2, 60⟩ 3]),
        ([some (.ringing, .queued, false), none], [.ring ⟨2, 60⟩ 877 1 0 1 [240]])] := by decide

/-! ### Premises met: frames of calls -/

def ring60 (members : List Byte) (phase : Byte) : Frame := .ring ⟨2, 60⟩ 877 1 0 phase members

/-- A station with its live contexts at the role limit, each in CLEARING. -/
def atLimit (s : State) : State :=
  let y := fun n => cleared { alerting with cid := ⟨7, n⟩ } .noAnswer .nothing
  if s.role = .desk then
    (((s.setCtx 0 (some (y 1))).setCtx 1 (some (y 2))).setCtx 2 (some (y 3))).setCtx 3 (some (y 4))
  else (s.setCtx 0 (some (y 1))).setCtx 1 (some (y 2))

theorem test_witness_RingOpensAnAlertingContext :
    (∀ s ∈ [handset, desk], s.hears 2 (ring60 [s.own, 201] 0) ∧ s.hears 2 (ring60 [s.own, 201] 1))
      ∧ (∀ s ∈ [handset, desk], s.stc.state = .joined ∧ s.findCtx .answer ⟨2, 60⟩ = none ∧ s.own ∈ [s.own, 201#8]
        ∧ s.liveCount < s.role.limit ∧ s.freeRef = some 0)
      ∧ desk.role = .desk ∧ (handset.role = .unit ∧ handset.sport.dnd = false ∧ handset.activeCount = 0) := by
  simp only [State.hears]; decide

theorem test_witness_RingIsRefusedByTheRole :
    (let s := atLimit (inState .leaving handset)
     s.hears 2 (ring60 [200] 0) ∧ s.own ∈ [200#8] ∧ s.stc.state = .leaving ∧ s.liveCount ≠ 0)
      ∧ (panel.hears 3 (.ring ⟨3, 1⟩ 877 1 0 0 [2]) ∧ panel.own ∈ [2#8] ∧ panel.role = .entry ∧ panel.findCtx .answer ⟨3, 1⟩ = none)
      ∧ (let s := { handset with sport := { handset.sport with dnd := true } }
         s.hears 2 (ring60 [200] 0) ∧ s.role = .unit ∧ s.sport.dnd = true ∧ Role.ofCode 0 ≠ some .desk)
      ∧ (let s := withCtx { alerting with cid := ⟨3, 1⟩ } handset
         s.hears 2 (ring60 [200] 0) ∧ s.findCtx .answer ⟨2, 60⟩ = none ∧ s.sport.dnd = false ∧ s.activeCount ≠ 0)
      ∧ (∀ s ∈ [atLimit handset, atLimit desk],
        s.hears 2 (ring60 [s.own] 1) ∧ s.findCtx .answer ⟨2, 60⟩ = none ∧ s.activeCount = 0 ∧ s.liveCount = s.role.limit) := by
  simp only [State.hears]; decide

theorem test_witness_OwnRingAndRefusals :
    let s := withQueue [carried (ring60 [200, 201] 0)] (withCtx ringing panel)
    let y := { ringing with refused := [(200#8, 1#8)] }
    let t := withCtx y panel
    s.echoes s.own (ring60 [200, 201] 0) ∧ s.stc.state = .joined ∧ s.findCtx .origin ⟨2, 60⟩ = some 0 ∧ s.ctx 0 = some ringing
      ∧ ringing.state = .ringing ∧ t.hears 201 (.refuse ⟨2, 60⟩ 1) ∧ t.findCtx .origin ⟨2, 60⟩ = some 0 ∧ t.ctx 0 = some y
      ∧ (y.state = .ringing ∧ y.forward = .none ∧ 201#8 ∈ y.members ∧ ∀ q ∈ y.refused, q.1 ≠ 201#8)
      ∧ (∀ m ∈ y.members, ∃ q ∈ y.refused ++ [(201#8, 1#8)], q.1 = m)
      ∧ (∀ q ∈ ringing.refused, q.1 ≠ 201#8) ∧ ¬ (∀ m ∈ ringing.members, ∃ q ∈ ringing.refused ++ [(201#8, 1#8)], q.1 = m)
      ∧ 203#8 ∉ y.members :=
  ⟨echoes_of (by decide) (by decide) (by decide) (by decide) (by decide), by decide, by decide, by decide, by decide,
    hears_of (by decide) (by decide) (by decide) (by decide) (by decide), by decide, by decide, by simp [ringing], by simp [ringing],
    by simp [ringing], by simp [ringing], by decide⟩

theorem test_witness_AnswerIsAcceptedOnce :
    (∀ s ∈ [withCtx ringing panel, withCtx ringing fullPanel],
      s.hears 200 (.answer ⟨2, 60⟩ 2) ∧ s.stc.state = .joined ∧ s.findCtx .origin ⟨2, 60⟩ = some 0 ∧ s.findCtx .answer ⟨2, 60⟩ = none
        ∧ s.ctx 0 = some ringing ∧ 200#8 ∈ ringing.members ∧ ringing.answerer = none ∧ ringing.state = .ringing
        ∧ ringing.forward = .none ∧ s.smu.has ⟨2, 60⟩ = false ∧ (∀ r ∈ s.udir.seeks, (0 : Ref) ∉ r.refs) ∧ s.sport.notices.length < 16)
      ∧ (placement panel.smu.holds 1 = some (0, 1) ∧ panel.accepts (.claim ⟨2, 60⟩ (byte 0) (byte 1)) = true)
      ∧ (placement fullPanel.smu.holds 1 = none ∧ fullPanel.accepts (.wait ⟨2, 60⟩ (byte 1)) = true)
      ∧ (203#8 : Byte) ∉ ringing.members ∧ claiming.answerer ≠ none := by
  simp only [State.hears]; decide

/-- The forward's seek, its SEEK queued, alone in its record and beside another call. -/
def forwardSeeks : List State :=
  [withQueue [.fresh (.seek 0)] (forwardSeeker .queued),
    withQueue [.fresh (.seek 0)] (sought 0 .queued [0, 1] ((withCtx forwarding panel).setCtx 1 (some { seeking with peerUnit := 0 })))]

theorem test_witness_answer_leaves_the_forward_seek :
    ∀ s ∈ forwardSeeks,
      s.hears 200 (.answer ⟨2, 60⟩ 2) ∧ s.findCtx .origin ⟨2, 60⟩ = some 0 ∧ s.findCtx .answer ⟨2, 60⟩ = none ∧ s.ctx 0 = some forwarding
        ∧ 200#8 ∈ forwarding.members ∧ forwarding.answerer = none ∧ forwarding.state = .ringing ∧ forwarding.forward = .seeking
        ∧ s.smu.has ⟨2, 60⟩ = false ∧ (∀ q ∈ s.udir.seeks, ∀ r ∈ s.udir.seeks, (0 : Ref) ∈ q.refs → (0 : Ref) ∈ r.refs → q = r)
        ∧ (s.udir.seeks.map Seek.unit).Nodup ∧ s.queued ⟨.seek, .unit 0⟩ = true
        ∧ s.accepts (.claim ⟨2, 60⟩ 0 1) = true := by
  simp only [State.hears]; decide

/-- The record without another call goes, its SEEK put under recall; the shared one keeps the other call. -/
theorem test_answer_leaves_the_forward_seek_outcomes :
    forwardSeeks.map (fun s =>
      let t := after (.answerTaken 200 ⟨2, 60⟩ 2) s
      ((t.ctx 0).map fun c => (c.state, c.forward), t.udir.seeks.map Seek.refs, t.rif.recalls.map Recall.id)) =
      [(some (.claiming, .none), [], [⟨.seek, .unit 0⟩]), (some (.claiming, .none), [[1]], [])] := by decide

def answeringCtx : Ctx := { alerting with state := .answering, alert := none }

theorem test_witness_AnswersAtTheAnsweringSide :
    (∀ hs ∈ [[], [hold ⟨2, 60⟩ 0 1]],
      let s := withSmu hs [] (withQueue [carried (.answer ⟨2, 60⟩ 4)] (withCtx answeringCtx handset))
      s.echoes s.own (.answer ⟨2, 60⟩ 4) ∧ s.stc.state = .joined ∧ s.findCtx .origin ⟨2, 60⟩ = none
        ∧ s.findCtx .answer ⟨2, 60⟩ = some 0 ∧ s.ctx 0 = some answeringCtx ∧ s.smu.has ⟨2, 60⟩ = !hs.isEmpty)
      ∧ answeringCtx.state = .answering ∧ answeringCtx.endPosted = false ∧ answeringCtx.cause = none
      ∧ (let s := withCtx alerting handset
         s.hears 201 (.answer ⟨2, 60⟩ 1) ∧ s.hears 203 (.answer ⟨2, 60⟩ 1) ∧ s.findCtx .origin ⟨2, 60⟩ = none
           ∧ s.findCtx .answer ⟨2, 60⟩ = some 0 ∧ s.ctx 0 = some alerting ∧ alerting.state = .alerting ∧ alerting.endPosted = false
           ∧ alerting.cause = none ∧ 201#8 ∈ alerting.members
           ∧ 203#8 ∉ alerting.members) := by
  simp only [State.hears, State.echoes]; decide

/-- Panel 2 in TALK with handset 200. -/
def talkingPanel : State := withPath openPath (withSmu [hold ⟨2, 60⟩ 0 1] [] (withCtx inTalk panel))

theorem test_witness_OpenIsAnsweredAtThePanel :
    (talkingPanel.hears 200 (.open_ ⟨2, 60⟩) ∧ talkingPanel.stc.state = .joined ∧ talkingPanel.role = .entry
      ∧ (⟨2, 60⟩ : CallId).orig = talkingPanel.own ∧ talkingPanel.findCtx .origin ⟨2, 60⟩ = some 0 ∧ talkingPanel.ctx 0 = some inTalk
      ∧ inTalk.state = .talk ∧ inTalk.answerer = some 200#8 ∧ talkingPanel.oku.strikeFault.sticky = false)
      ∧ (let s := { talkingPanel with oku := talkingPanel.oku.setFault .strike ⟨6, true, true⟩ }
         s.hears 200 (.open_ ⟨2, 60⟩) ∧ s.oku.strikeFault.sticky = true)
      ∧ (panel.hears 200 (.open_ ⟨2, 61⟩) ∧ panel.findCtx .origin ⟨2, 61⟩ = none)
      ∧ (panel.hears 200 (.open_ ⟨3, 40⟩) ∧ (⟨3, 40⟩ : CallId).orig ≠ panel.own) ∧ (desk.hears 200 (.open_ ⟨2, 60⟩) ∧ desk.role ≠ .entry) := by
  simp only [State.hears]; decide

/-- Handset 200 in TALK with its OPEN pending. -/
def pendingDoor : State := talking.setDoor 0 (some 2000)

theorem test_witness_DoorRequestEndsOnce :
    (∀ k : Byte, k ∈ [1, 2, 3, 4] → pendingDoor.hears 2 (.opened ⟨2, 60⟩ k))
      ∧ (pendingDoor.stc.state = .joined ∧ pendingDoor.findCtx .answer ⟨2, 60⟩ = some 0 ∧ pendingDoor.oku.door[(0 : Ref)] = some 2000
        ∧ pendingDoor.ctx 0 = some answererTalk)
      ∧ (pendingDoor.hears 3 (.opened ⟨2, 60⟩ 1) ∧ 3#8 ≠ (⟨2, 60⟩ : CallId).orig) ∧ 4#8 ∉ [1#8, 2#8, 3#8]
      ∧ (talking.hears 2 (.opened ⟨2, 60⟩ 1) ∧ talking.findCtx .answer ⟨2, 60⟩ = some 0 ∧ talking.oku.door[(0 : Ref)] = none) := by
  simp only [State.hears]; decide

/-- RIF has recalled a RECLAIM, and the answer is still on its way back. -/
def undelivered (s : State) : State := { s with rif := { s.rif with recalls := [⟨⟨.reclaim, .call ⟨7, 7⟩⟩, .answered .recalled⟩] } }

/-- The frame's sixteenth attempt, in a state of its call. -/
def lastTry (f : Frame) (y : Ctx) (s : State) : State := spoiling f 15 (withCtx y s)

/-- The panel's frames with the contexts that queued them: the direct RING, the forward, the narrowing one before and in TALK, the
CLAIM at its first and fourth failure and with no channel free, the WAIT, a RING, a CLAIM and a WAIT awaited in CLEARING, the direct RING
of a call that took an ANSWER before it, and the forward one past RINGING. -/
def panelFrames : List (Frame × Ctx × State) :=
  let claim := Frame.claim ⟨2, 60⟩ 0 1
  let wait := Frame.wait ⟨2, 60⟩ 1
  [(ring60 [200, 201] 0, ringing, panel), (ring60 [240] 1, { ringing with forward := .queued }, panel),
    (ring60 [200] 1, { claiming with forward := .narrowing }, panel), (ring60 [200] 1, { inTalk with forward := .narrowing }, talkingPanel),
    (claim, claiming, panel), (claim, { claiming with attempts := 3 }, panel), (claim, claiming, fullPanel), (wait, claiming, panel),
    (ring60 [200, 201] 0, cleared { ringing with announced := false } .hungUp .ringFate, panel),
    (claim, cleared claiming .reclaimed .frameRecall, panel), (wait, cleared claiming .reclaimed .frameRecall, panel),
    (ring60 [200, 201] 0, { claiming with announced := false }, panel), (ring60 [200, 201] 0, { waitingCtx with announced := false }, panel),
    (ring60 [200, 201] 0, { inTalk with announced := false }, talkingPanel), (ring60 [240] 1, { claiming with forward := .queued }, panel)]

theorem test_witness_sixteenth_at_the_panel :
    ∀ x ∈ panelFrames,
      let s := lastTry x.1 x.2.1 x.2.2
      s.onRiser = true ∧ s.rif.queue = [Entry.fresh (.refuse ⟨3, 1⟩ 4)] ++ carried x.1 15 :: [] ∧ s.recallHeld x.1.ident = false
        ∧ s.findCtx .origin ⟨2, 60⟩ = some 0 ∧ s.ctx 0 = some x.2.1 ∧ s.smu.has ⟨2, 60⟩ = x.2.1.path.isSome
        ∧ (x.2.1.state = .talk → s.path.lit 0 = true) := by
  decide

theorem test_witness_sixteenth_queue_law : ∀ x ∈ panelFrames, QueueLaw (lastTry x.1 x.2.1 x.2.2) := by
  have h : ∀ x ∈ panelFrames,
      (∀ k ∈ [Category.snapshot, .reclaim, .shared, .stc, .call], (lastTry x.1 x.2.1 x.2.2).rif.count k ≤ k.allowance)
        ∧ (∀ e ∈ (lastTry x.1 x.2.1 x.2.2).rif.queue, e.attempts < Config.dropAttempts)
        ∧ (lastTry x.1 x.2.1 x.2.2).rif.queue.countP (fun e => e.carriage = .carrying) ≤ 1 := by decide
  exact fun x hx => queue_law_of (h x hx).1 (h x hx).2.1 (h x hx).2.2

theorem test_witness_sixteenth_elsewhere :
    (let y := cleared answeringCtx .hungUp .answerRecall
     let s := lastTry (.answer ⟨2, 60⟩ 4) y handset
     s.findCtx .answer ⟨2, 60⟩ = some 0 ∧ s.ctx 0 = some y ∧ y.state = .clearing ∧ y.awaits = .answerRecall)
      ∧ (let s := spoiling handset.joinFrame 15 (inState .learning handset)
         s.onRiser = true ∧ s.stc.state = .learning ∧ (∀ k ∈ [Category.snapshot, .reclaim, .shared, .stc, .call], s.rif.count k ≤ k.allowance)
           ∧ ∀ x ∈ [Entry.fresh (.refuse ⟨3, 1⟩ 4)] ++ [], x.frame.kind ≠ .join)
      ∧ (∀ s ∈ [seeker .queued panel, withLine 9999 [⟨200, 2⟩] (seeker .queued panel)],
        let t := spoiling (.seek 9999) 15 s
        t.onRiser = true ∧ t.udir.seekOf 9999 = some ⟨9999#16, .queued, [0]⟩ ∧ t.ctx 0 = some seeking
          ∧ t.accepts (t.ringFrame seeking 0 [200#8]) = true)
      ∧ (let s := spoiling (.open_ ⟨2, 60⟩) 15 pendingDoor
         s.findCtx .answer ⟨2, 60⟩ = some 0 ∧ s.oku.door[(0 : Ref)] = some 2000 ∧ s.recallHeld (Frame.open_ ⟨2, 60⟩).ident = false)
      ∧ (spoiling (.offer 1204 4) 15 handset).recallHeld (Frame.offer 1204 4).ident = false := by decide

/-- What the sixteenth spoil leaves of the panel's calls, and in its queue behind the REFUSE, in the order of `panelFrames`. -/
theorem test_sixteenth_outcomes :
    panelFrames.map (fun x =>
      let t := after (.frameSpoiled 0 []) (lastTry x.1 x.2.1 x.2.2)
      ((t.ctx 0).map Ctx.state, (t.ctx 0).map Ctx.awaits, (t.rif.queue.drop 1).map Entry.frame)) =
      let release := [Frame.release ⟨2, 60⟩ 0x0F]
      [(none, none, []), (some .clearing, some .release, release), (some .clearing, some .release, release),
        (some .clearing, some .pathOff, []), (some .claiming, some .nothing, [.claim ⟨2, 60⟩ 0 1]),
        (some .claiming, some .nothing, [.wait ⟨2, 60⟩ 1]), (some .claiming, some .nothing, [.wait ⟨2, 60⟩ 1]),
        (some .clearing, some .release, release), (none, none, []), (none, none, []), (none, none, []), (none, none, []), (none, none, []),
        (some .clearing, some .pathOff, []), (some .clearing, some .release, release)] := by decide

/-- A direct RING dropped after the ANSWER ends the call with SEND_FAILED, its queued CLAIM put under recall. -/
theorem test_direct_ring_dropped_after_the_answer :
    let claim := Entry.fresh (.claim ⟨2, 60⟩ 0 1)
    let s := withQueue [claim, carried (ring60 [200, 201] 0) 15] (withCtx { claiming with announced := false } panel)
    let t := after (.frameSpoiled 0 []) s
    t.ctx 0 = none ∧ t.rif.queue = [claim] ∧ t.rif.recalls.map Recall.id = [⟨.claim, .call ⟨2, 60⟩⟩]
      ∧ t.sport.notices.getLast? = some (.callEnded 0 ⟨2, 60⟩ (some .sendFailed)) := by decide

/-- A RECLAIM of a wait entry at its sixteenth attempt, alone and with a hold or another entry overdue. -/
def reclaimings : List State :=
  let entry := { waiting ⟨4, 10⟩ 4 with audit := .reclaimQueued }
  [withSmu fullHolds [entry] panel, withSmu ({ hold ⟨33, 1⟩ 0 4 with audit := .overdue } :: fullHolds.drop 1) [entry] panel,
    withSmu fullHolds [entry, { waiting ⟨4, 11⟩ 1 with audit := .overdue }] panel].map (spoiling (.reclaim ⟨4, 10⟩) 15)

theorem test_witness_reclaim_dropped :
    ∀ s ∈ reclaimings, SlotLaw s.smu ∧ s.onRiser = true ∧ s.rif.queue = [Entry.fresh (.refuse ⟨3, 1⟩ 4)] ++ carried (.reclaim ⟨4, 10⟩) 15 :: []
      ∧ (s.smu.waitOf ⟨4, 10⟩).isSome = true ∧ (∀ y ∈ s.smu.overdue, y.1 ≠ ⟨4, 10⟩) ∧ s.placeHeld .reclaim = false
      ∧ ∀ x ∈ [Entry.fresh (.refuse ⟨3, 1⟩ 4)] ++ [], x.frame.kind ≠ .reclaim := by
  unfold SlotLaw Hold.Aligned; decide

/-- The dropped RECLAIM's item is armed again, and the next overdue item's RECLAIM stands in the queue. -/
theorem test_reclaim_dropped_outcomes :
    reclaimings.map (fun s => s.smu.overdue.map Prod.fst) = [[], [⟨33, 1⟩], [⟨4, 11⟩]]
      ∧ reclaimings.map (fun s =>
          let t := after (.frameSpoiled 0 []) s
          ((t.smu.waitOf ⟨4, 10⟩).map WaitEntry.audit, (t.rif.queue.drop 1).map Entry.frame)) =
        [(some (.armed 200), []), (some (.armed 200), [.reclaim ⟨33, 1⟩]), (some (.armed 200), [.reclaim ⟨4, 11⟩])] := by decide

/-! ### Premises met: recall answers -/

/-- One recall listed, in a state of its call. -/
def recalled (id : FrameId) (st : RecallStatus) (y : Ctx) (s : State) : State :=
  let t := withCtx y s
  { t with rif := { t.rif with recalls := [⟨id, st⟩] } }

/-- The three ways in which an answer reaches its block: the WAITING entry removed, no entry found, the answer given before. -/
theorem test_witness_brings_answer :
    (let f := Frame.claim ⟨2, 60⟩ 0 1
     let s := recalling [Entry.fresh f] f.ident
     ∃ base, s.BringsAnswer f.ident .recalled base ∧ base.rif.queue = [] ∧ base.rif.recalls = [])
      ∧ (let s := recalling [] ⟨.snapshot, .bare⟩
         ∃ base, s.BringsAnswer ⟨.snapshot, .bare⟩ .tooLate base ∧ base.rif.recalls = [])
      ∧ (∀ a : RecallAnswer, ∀ id y s, (∀ e ∈ s.rif.queue, False) →
        ∃ base, (recalled id (.answered a) y s).BringsAnswer id a base ∧ base.rif.recalls = []) :=
  ⟨⟨_, ⟨_, [], rfl, rfl, .inr (.inr ⟨rfl, rfl, rfl, _, rfl, rfl⟩)⟩, rfl, rfl⟩,
    ⟨_, ⟨_, [], rfl, rfl, .inr (.inl ⟨rfl, rfl, rfl, rfl⟩)⟩, rfl⟩,
    fun a id y s _ => ⟨_, ⟨⟨id, .answered a⟩, _, by simp [recalled], rfl, .inl ⟨rfl, rfl⟩⟩, by simp [recalled]⟩⟩

theorem test_witness_recall_answers_at_the_call :
    (∀ y ∈ [ringing, cleared { ringing with announced := false } .hungUp .ringFate],
      let s := recalled ⟨.ring, .call ⟨2, 60⟩⟩ (.answered .recalled) y panel
      s.stc.state ≠ .leaving ∧ s.findCtx .origin ⟨2, 60⟩ = some 0 ∧ s.ctx 0 = some y)
      ∧ (∀ k ∈ [FrameKind.claim, .wait], ∀ y ∈ [claiming, cleared claiming .reclaimed .frameRecall],
        ∀ s ∈ [panel, withSmu [hold ⟨2, 60⟩ 0 1] [] panel],
        let t := recalled ⟨k, .call ⟨2, 60⟩⟩ (.answered .tooLate) y s
        t.findCtx .origin ⟨2, 60⟩ = some 0 ∧ t.ctx 0 = some y ∧ t.accepts (.release ⟨2, 60⟩ (causeByte y.cause)) = true)
      ∧ (∀ y ∈ [answeringCtx, cleared answeringCtx .hungUp .answerRecall],
        let s := recalled ⟨.answer, .call ⟨2, 60⟩⟩ (.answered .recalled) y handset
        s.findCtx .answer ⟨2, 60⟩ = some 0 ∧ s.ctx 0 = some y)
      ∧ (∀ b ∈ [true, false],
        let y := { cleared ringing .noAnswer .release with reversible := b }
        let s := recalled ⟨.release, .call ⟨2, 60⟩⟩ (.answered .recalled) y panel
        s.findCall ⟨2, 60⟩ = some 0 ∧ s.ctx 0 = some y ∧ y.state = .clearing ∧ y.awaits = .release ∧ y.reversible = b
          ∧ y.cause = some .noAnswer ∧ s.smu.has ⟨2, 60⟩ = false ∧ placement s.smu.holds y.wanted = some (0, 1)
          ∧ s.accepts (.claim ⟨2, 60⟩ (byte 0) (byte 1)) = true ∧ (∀ j : Ref, j ≠ 0 → s.outsideClearing j = false)) := by decide

theorem test_witness_recall_answers_at_smu_and_udir :
    (let s := undelivered panel
     s.smu.overdue = [] ∧ s.accepts (.reclaim ⟨7, 7⟩) = true)
      ∧ (let s := undelivered (withSmu [{ hold ⟨4, 1⟩ 0 4 with audit := .overdue }, { hold ⟨9, 44⟩ 20 1 with audit := .overdue, age := ⟨5, 2⟩ }] [] panel)
         (⟨4, 1⟩, ⟨0, 0⟩) ∈ s.smu.overdue ∧ ∀ y ∈ s.smu.overdue, y.1 ≠ ⟨4, 1⟩ → (⟨0, 0⟩ : Stamp).older y.2 = true)
      ∧ (∀ o ∈ [OfferState.none, .pending],
        let s := { seeker .pending handset with udir := { (seeker .pending handset).udir with offer := o } }
        s.udir.offer = o ∧ s.udir.seeks = [] ++ ⟨9999#16, .pending, [0]⟩ :: [] ∧ s.accepts (.seek 9999) = true)
      ∧ (∀ r ∈ (seeker .queued panel).udir.seeks, r.state ≠ .pending) := by decide

/-- An answer undelivered does not bar the recall of a new frame, and then acts on nothing. -/
theorem test_second_recall_of_one_identity :
    let s := withQueue [Entry.fresh (ring60 [200] 1)]
      (recalled ⟨.ring, .call ⟨2, 60⟩⟩ (.answered .tooLate) { claiming with forward := .narrowing } panel)
    let t := after (.hangup [0]) s
    let u := after (.recallAnswered ⟨.ring, .call ⟨2, 60⟩⟩) t
    t.rif.recalls = [⟨⟨.ring, .call ⟨2, 60⟩⟩, .answered .tooLate⟩, ⟨⟨.ring, .call ⟨2, 60⟩⟩, .asked⟩]
      ∧ u.rif.recalls = [⟨⟨.ring, .call ⟨2, 60⟩⟩, .asked⟩] ∧ u.ctxs = t.ctxs
      ∧ ((after (.recallAnswered ⟨.ring, .call ⟨2, 60⟩⟩) u).rif.queue.map Entry.frame) = [.release ⟨2, 60⟩ 1] := by decide

/-! ### Premises met: timers of calls -/

theorem test_witness_RingTimerExpiryForwardsOrClears :
    (let s := withCtx ringing (withLine 0 [⟨240, 1⟩] panel)
     s.ctx 0 = some ringing ∧ ringing.ring = some 30000 ∧ ringing.state = .ringing ∧ ringing.announced = true
       ∧ ¬ (ringing.ringPhase = 1 ∨ s.sport.config.forward = false ∨ ringing.peerUnit = 0#16 ∨ s.role = .desk)
       ∧ s.lookup 0#16 = some [240#8] ∧ s.accepts (s.ringFrame ringing 1 [240#8]) = true ∧ ringing.cause = none
       ∧ s.accepts (.release ringing.cid 3#8) = true)
      ∧ (withCtx ringing panel).lookup 0#16 = none
      ∧ (let y := { ringing with ringPhase := 1 }; (withCtx y panel).ctx 0 = some y ∧ y.ringPhase = 1)
      ∧ (let y := { ringing with peerUnit := 0#16 }; (withCtx y panel).ctx 0 = some y ∧ y.peerUnit = 0#16) := by decide

def awaitingPath : Ctx := { alerting with state := .awaitPath, alert := none, pathWait := some 75000 }

theorem test_witness_CallTimersEndTheCall :
    ((withCtx waitingCtx panel).ctx 0 = some waitingCtx ∧ waitingCtx.cause = none ∧ waitingCtx.wait = some 30000
      ∧ waitingCtx.state = .waiting ∧ waitingCtx.announced = true ∧ (withCtx waitingCtx panel).accepts (.release waitingCtx.cid 7#8) = true)
      ∧ ((withCtx awaitingPath handset).ctx 0 = some awaitingPath ∧ awaitingPath.cause = none ∧ awaitingPath.pathWait = some 75000
        ∧ awaitingPath.state = .awaitPath ∧ awaitingPath.side = .answer ∧ awaitingPath.endPosted = false
        ∧ (withCtx awaitingPath handset).accepts (.release awaitingPath.cid 8#8) = true)
      ∧ ((withCtx alerting handset).ctx 0 = some alerting ∧ alerting.alert = some 90000 ∧ alerting.state = .alerting
        ∧ alerting.cause = none ∧ alerting.endPosted = false) := by decide

def watched : PathRec := { openPath with loss := noLoss.set 0 (some 2000) }
def muting : PathRec := { openPath with stage := .mute, muteTimer := some 10 }

theorem test_witness_TalkEndsMuteThePath :
    (talkingPanel.ctx 0 = some inTalk ∧ inTalk.talk = some 180000 ∧ inTalk.state = .talk ∧ inTalk.announced = true ∧ inTalk.cause = none
      ∧ inTalk.endPosted = false ∧ talkingPanel.path.record 0 = some openPath ∧ talkingPanel.path.lit 0 = true
      ∧ talkingPanel.sport.notices.length < 16)
      ∧ (let s := withPath watched (withCtx inTalk panel)
         s.path.record 0 = some watched ∧ watched.lossOf 0 = some 2000 ∧ s.ctx 0 = some inTalk ∧ s.path.lit 0 = true
           ∧ watched.base + watched.width ≤ 24)
      ∧ (let y := cleared inTalk .hungUp .pathOff
         let s := withPath muting (withCtx y panel)
         s.path.record 0 = some muting ∧ muting.muteTimer = some 10 ∧ muting.stage = .mute ∧ s.ctx 0 = some y ∧ s.path.lit 0 = true
           ∧ y.state = .clearing ∧ y.awaits = .pathOff ∧ y.announced = true ∧ s.accepts (.release y.cid (causeByte y.cause)) = true
           ∧ (∀ j : Ref, j ≠ 0 → s.path.record j = none)) := by decide

theorem test_witness_apart_from_the_others :
    talkingPanel.path.ApartFrom 0 openPath ∧ (withPath watched (withCtx inTalk panel)).path.ApartFrom 0 watched :=
  ⟨fun j x h hj => (only_record_zero (s := talkingPanel) (by decide) (by decide) (by decide) (fun _ _ => False) j x h hj).elim,
    fun j x h hj => (only_record_zero (s := withPath watched (withCtx inTalk panel)) (by decide) (by decide) (by decide)
      (fun _ _ => False) j x h hj).elim⟩

/-- The desk set's first call in MUTE beside its second in TALK, which owns the port. -/
def mutingBeside : State :=
  let s := (withPath muting (withCtx (cleared inTalk .hungUp .pathOff) desk)).setCtx 1
    (some { inTalk with cid := ⟨2, 61⟩, path := some (22, 2) })
  let r : PathRec := { openPath with base := 22, width := 2, order := ⟨0, 2⟩ }
  { s with path := { (s.path.setRec 1 (some r)).setBlock r.block (some ⟨1, .forward, .stream⟩) with
    owner := some 1, rate := 2, gate := true } }

theorem test_witness_mute_beside_another_path :
    mutingBeside.path.record 0 = some muting ∧ mutingBeside.ctx 0 = some (cleared inTalk .hungUp .pathOff)
      ∧ mutingBeside.path.lit 0 = true ∧ mutingBeside.accepts (.release ⟨2, 60⟩ 1) = true ∧ mutingBeside.path.ApartFrom 0 muting
      ∧ (mutingBeside.path.record 1).isSome = true ∧ mutingBeside.path.owner = mutingBeside.path.bestOwner :=
  ⟨by decide, by decide, by decide, by decide, apart_of (by decide), by decide, by decide⟩

/-- The other call keeps its path and the port. -/
theorem test_mute_beside_another_path :
    let t := after (.muteTimerExpiry 0) mutingBeside
    t.path.record 0 = none ∧ t.path.record 1 = mutingBeside.path.record 1 ∧ t.path.owner = some 1 ∧ t.path.gate = true
      ∧ (List.range 24).filter (fun n => (t.path.enable n).isSome) = [22, 23]
      ∧ t.rif.queue = [Entry.fresh (.release ⟨2, 60⟩ 1)] := by decide

/-- Through the mute the transmitters of the call send silence, and after it they are off. -/
theorem test_talk_limit_mutes_then_turns_off :
    let s := after (.talkTimerExpiry 0) talkingPanel
    s.path.enable 0 = some ⟨0, .forward, .silence⟩ ∧ s.rif.queue = [] ∧ (after (.muteTimerExpiry 0) s).path.enable 0 = none
      ∧ (after (.muteTimerExpiry 0) s).rif.queue = [Entry.fresh (.release ⟨2, 60⟩ 0x0C)] := by decide

theorem test_witness_StaggerAndAuditExpiries :
    (let s := { panel with stc := { panel.stc with stagger := some 6 } }; s.stc.stagger = some 6 ∧ s.stc.state = .joined)
      ∧ (let s := withSmu [hold ⟨9, 44⟩ 20 1] [] panel; s.smu.auditExpiry ⟨9, 44⟩ = some 900000 ∧ s.accepts (.reclaim ⟨9, 44⟩) = true)
      ∧ (let s := withSmu fullHolds [waiting ⟨4, 10⟩ 4] (withQueue [.fresh (.reclaim ⟨9, 44⟩)] panel)
         s.smu.auditExpiry ⟨4, 10⟩ = some 120000 ∧ s.accepts (.reclaim ⟨4, 10⟩) = false)
      ∧ (let s := undelivered (withSmu [hold ⟨9, 44⟩ 20 1] [] panel)
         s.smu.auditExpiry ⟨9, 44⟩ = some 900000 ∧ s.accepts (.reclaim ⟨9, 44⟩) = true
           ∧ ∃ r ∈ s.rif.recalls, r.id.kind = .reclaim ∧ r.status = .answered .recalled) := by decide

/-- The slot goes to the oldest overdue item when the answer comes, not to the audit that expires before it. -/
theorem test_slot_waits_for_the_answer :
    let older := { hold ⟨4, 1⟩ 0 4 with age := ⟨0, 1⟩, audit := .overdue }
    let s := undelivered (withSmu [older, { hold ⟨9, 44⟩ 20 1 with age := ⟨5, 2⟩ }] [] panel)
    let t := after (.auditExpiry ⟨9, 44⟩) s
    t.rif.queue = [] ∧ (t.smu.holdOf ⟨9, 44⟩).map Hold.audit = some .overdue
      ∧ (after (.recallAnswered ⟨.reclaim, .call ⟨7, 7⟩⟩) t).rif.queue = [Entry.fresh (.reclaim ⟨4, 1⟩)] := by decide

/-! ### Premises met: PATH and OKU -/

def settlingRec : PathRec := { openPath with stage := .settle, settleTimer := some 500 }
def unmuting : PathRec := { openPath with stage := .unmute, unmuteTimer := some 60 }
def settlingCtx : Ctx := { claiming with state := .settling, path := some (0, 1) }

/-- A panel whose settle mode is timed. -/
def timed (s : State) : State := { s with sport := { s.sport with config := { s.sport.config with settle := .timed40 } } }

theorem test_witness_DetectorChangeDrivesSettleAndWatch :
    State.reset.rif.supply = .lost ∧ (panel.rif.supply = .present ∧ panel.path.detector .ret 0 ≠ true ∧ panel.path.detector .ret 23 = false)
      ∧ (∀ r ∈ [settlingRec, unmuting, openPath, muting],
        (withPath r panel).path.record 0 = some r ∧ (withPath r panel).path.record 1 = none ∧ (withPath r panel).path.detector .ret 0 ≠ true
          ∧ Half.ret = otherHalf r.sendHalf ∧ r.base ≤ (0 : Channel).val ∧ (0 : Channel).val < r.base + r.width)
      ∧ (settlingRec.settleTimer ≠ none ∧ panel.sport.config.settle = .carrier ∧ (timed panel).sport.config.settle ≠ .carrier)
      ∧ ¬ (Half.forward = otherHalf openPath.sendHalf) ∧ ¬ ((1 : Channel).val < openPath.base + openPath.width) := by decide

theorem test_witness_all_watched_present (k : Nat) (h : k < settlingRec.width) :
    (after (.carrierDetectorChange .ret 0 true) (withPath settlingRec panel)).path.detector (otherHalf settlingRec.sendHalf) (settlingRec.base + k)
      = true := by
  have : k = 0 := by simp [settlingRec, openPath] at h; exact h
  subst this; decide

theorem test_witness_SettleAndUnmuteExpiries :
    (let s := withPath settlingRec (withCtx settlingCtx panel)
     s.path.record 0 = some settlingRec ∧ settlingRec.settleTimer = some 500 ∧ s.sport.config.settle = .carrier
       ∧ s.ctx 0 = some settlingCtx ∧ settlingCtx.state = .settling ∧ settlingCtx.announced = true ∧ settlingCtx.cause = none
       ∧ s.path.lit 0 = true ∧ (timed s).path.record 0 = some settlingRec ∧ (timed s).sport.config.settle ≠ .carrier)
      ∧ (let s := withPath unmuting (withCtx settlingCtx panel)
         s.path.record 0 = some unmuting ∧ unmuting.unmuteTimer = some 60 ∧ s.ctx 0 = some settlingCtx ∧ s.path.owner = some 0
           ∧ ({ s.path with owner := some 1 } : Path).owner ≠ some 0) := by decide

/-- A key's debounce timer running from a debounced state. -/
def bouncing (k : Key) (active : Bool) (s : State) : State := { s with oku := s.oku.setKey k ⟨active, some 10⟩ }

theorem test_witness_KeysAreDebounced :
    (∀ k ∈ [Key.hook, .doorKey, .deskKey], ∀ b ∈ [true, false],
      ((bouncing k b panel).oku.key k).timer = some 10 ∧ ((bouncing k b panel).oku.key k).active = b
        ∧ (panel.oku.key k).timer = none ∧ (panel.oku.key k).active = false)
      ∧ panel.role ≠ .unit
      ∧ ((bouncing .hook false (withCtx alerting handset)).ctx 0 = some alerting ∧ alerting.state = .alerting
        ∧ (bouncing .hook false (withCtx alerting handset)).accepts (.answer alerting.cid handset.sport.config.capability) = true) := by decide

theorem test_witness_one_alerting :
    (∀ i y, (bouncing .hook false handset).ctx i = some y → y.state ≠ .alerting)
      ∧ (∀ j z, (bouncing .hook false (withCtx alerting handset)).ctx j = some z → z.state = .alerting → j = 0) :=
  ⟨no_context (by decide) (by decide) (by decide) (by decide) _, fun j z h _ => by
    by_contra hj
    exact only_context_zero (s := bouncing .hook false (withCtx alerting handset)) (by decide) (by decide) (by decide)
      (fun _ _ => False) j z h hj⟩

/-- Two contexts of the desk set alert, the second since later. -/
def twoAlerting : State :=
  (withCtx alerting desk).setCtx 1 (some { alerting with cid := ⟨3, 1⟩, alert := some 95000 })

theorem test_witness_earliest_alerting :
    let s := bouncing .hook false twoAlerting
    s.ctx 0 = some alerting ∧ alerting.alert = some 90000 ∧ s.accepts (.answer alerting.cid s.sport.config.capability) = true
      ∧ s.ctx 2 = none ∧ s.ctx 3 = none
      ∧ (∃ z b, s.ctx 1 = some z ∧ z.state = .alerting ∧ z.alert = some b ∧ 90000 < b) :=
  ⟨by decide, by decide, by decide, by decide, by decide, _, 95000, rfl, by decide, by decide, by decide⟩

/-- The handset is put down in each state of its one call that a HANGUP clears. -/
def hangable : List (Ctx × State) :=
  [(ringing, handset), ({ ringing with announced := false }, withQueue [Entry.fresh (ring60 [200, 201] 0)] handset),
    ({ ringing with announced := false }, handset), (claiming, withQueue [Entry.fresh (.claim ⟨2, 60⟩ 0 1)] handset),
    (waitingCtx, handset), (answeringCtx, withQueue [Entry.fresh (.answer ⟨2, 60⟩ 4)] handset), (answeringCtx, handset),
    (settlingCtx, withPath settlingRec handset), (answererTalk, talking)]

theorem test_witness_put_down :
    (∀ p ∈ hangable,
      let s := bouncing .hook true (withCtx p.1 p.2)
      (s.oku.key .hook).active = true ∧ (s.oku.key .hook).timer = some 10 ∧ s.role ≠ .entry ∧ s.stc.state = .joined ∧ s.ctx 0 = some p.1
        ∧ s.ctx 1 = none ∧ s.ctx 2 = none ∧ s.ctx 3 = none ∧ p.1.cause = none ∧ p.1.endPosted = false ∧ p.1.side.has p.1.state = true
        ∧ ((p.1.side = .origin ∧ p.1.state ∈ [CtxState.ringing, .claiming, .waiting]) ∨ (p.1.side = .answer ∧ p.1.state = .answering)
          ∨ (p.1.state ∈ [CtxState.settling, .talk] ∧ s.path.lit 0 = true))
        ∧ s.accepts (.release ⟨2, 60⟩ 1) = true)
      ∧ (bouncing .hook true panel).role = .entry := by decide

/-- What a HANGUP and a handset put down do to each of those calls is the same, and what R122 and R141 give. -/
theorem test_hang_up_outcomes :
    let outcome := fun (t : State) => ((t.ctx 0).map Ctx.awaits, t.rif.queue.map Entry.frame, t.rif.recalls.map Recall.status)
    let release := Frame.release ⟨2, 60⟩ 1
    hangable.map (fun p => outcome (after (.hangup [0]) (withCtx p.1 p.2))) =
        [(some .release, [release], []), (some .ringFate, [ring60 [200, 201] 0], [.asked]), (none, [], []),
          (some .release, [.claim ⟨2, 60⟩ 0 1, release], [.asked]), (some .release, [release], []),
          (some .answerRecall, [.answer ⟨2, 60⟩ 4], [.asked]), (none, [], []), (some .pathOff, [], []), (some .pathOff, [], [])]
      ∧ hangable.map (fun p => outcome (after (.debounceTimerExpiry .hook) (bouncing .hook true (withCtx p.1 p.2))))
        = hangable.map fun p => outcome (after (.hangup [0]) (withCtx p.1 p.2)) := by decide

/-- Eight call frames wait, so that the RELEASE of an announced call is refused. -/
def crowded (s : State) : State := withQueue ((List.range 8).map fun n => .fresh (.refuse ⟨9, byte n⟩ 4)) s

theorem test_witness_hang_up_in_a_full_queue :
    ∀ y ∈ [ringing, claiming, waitingCtx],
      let s := crowded (bouncing .hook true (withCtx y handset))
      (s.oku.key .hook).active = true ∧ (s.oku.key .hook).timer = some 10 ∧ s.role ≠ .entry ∧ s.stc.state = .joined ∧ s.ctx 0 = some y
        ∧ s.ctx 1 = none ∧ s.ctx 2 = none ∧ s.ctx 3 = none ∧ y.cause = none ∧ y.endPosted = false ∧ y.side = .origin
        ∧ y.announced = true ∧ s.accepts (.release ⟨2, 60⟩ 1) = false := by decide

/-- The refused RELEASE frees the context; its CALL_ENDED comes before the SEND_FAILED. -/
theorem test_hang_up_in_a_full_queue :
    ∀ y ∈ [ringing, claiming, waitingCtx], ∀ c ∈ [Instr.hangup [0], .debounceTimerExpiry .hook],
      let s := crowded (bouncing .hook true (withCtx y handset))
      let t := after c s
      t.ctx 0 = none ∧ t.rif.queue = s.rif.queue
        ∧ t.sport.notices = [.callEnded 0 ⟨2, 60⟩ (some .hungUp), .sendFailed 0 ⟨2, 60⟩ .release] := by decide

theorem test_witness_door_and_desk_keys :
    (let s := bouncing .doorKey false talking
     (s.oku.key .doorKey).active = false ∧ s.stc.state = .joined ∧ s.path.owner = some 0 ∧ s.ctx 0 = some answererTalk
       ∧ answererTalk.side = .answer ∧ answererTalk.origRole = 0#8 ∧ answererTalk.state = .talk ∧ s.oku.door[(0 : Ref)] = none
       ∧ s.accepts (.open_ answererTalk.cid) = true)
      ∧ ((bouncing .doorKey false handset).path.owner = none
        ∧ (bouncing .doorKey false pendingDoor).path.owner = some 0 ∧ (bouncing .doorKey false pendingDoor).oku.door[(0 : Ref)] ≠ none)
      ∧ (∀ s ∈ [handset, withLine 0 [⟨240, 1⟩] handset],
        let t := bouncing .deskKey false s
        t.role = .unit ∧ t.dialTest 0 t.sport.config.capability = .accepted ∧ t.freeRef = some 0)
      ∧ (withLine 0 [⟨240, 1⟩] handset).lookup 0 = some [240#8] ∧ handset.lookup 0 = none
      ∧ (let s := bouncing .deskKey false talking; s.role = .unit ∧ s.dialTest 0 s.sport.config.capability ≠ .accepted) := by decide

theorem test_witness_StrikeAndRinger :
    ({ panel.oku with strike := some 8000 } : Oku).strike = some 8000
      ∧ (∀ b ∈ [true, false], ({ desk.oku with ringer := .cadence b 1000 } : Oku).ringer = .cadence b 1000) := by decide

theorem test_witness_FaultSampling :
    1 ≤ panel.sport.config.faultSamples
      ∧ (∀ n ∈ [0, 4], ({ panel with oku := panel.oku.setFault .strike ⟨n, false, true⟩ } : State).oku.strikeFault.counter + 1
        < panel.sport.config.faultSamples)
      ∧ (∀ b ∈ [true, false], ({ panel with oku := panel.oku.setFault .ringer ⟨5, b, true⟩ } : State).oku.ringerFault = ⟨5, b, true⟩
        ∧ panel.sport.config.faultSamples ≤ 5 + 1) := by decide

/-- A counter of 9 under a setting lowered to 6. -/
theorem test_witness_counter_above_the_setting :
    ∀ b ∈ [true, false],
      let s := { panel with oku := panel.oku.setFault .strike ⟨9, b, true⟩ }
      s.sport.config.faultSamples = 6 ∧ s.sport.config.faultSamples ≤ (s.oku.fault .strike).counter + 1
        ∧ (s.oku.fault .strike).sticky = b ∧ (s.sampleFault .strike true).oku.fault .strike = ⟨6, true, true⟩ := by decide

/-! ### Premises met: the station port -/

theorem test_witness_RequestDecode :
    ([] : List Byte).length ≠ 18 ∧ ([0] : List Byte).length ≠ 0 ∧ (0x7F#8 : Byte) ∉ requestCodes
      ∧ (∀ p ∈ [(StationState.unconfigured, Status.notConfigured), (.configured, .notJoined), (.learning, .notJoined), (.leaving, .busy),
        (.isolated, .notJoined)], (inState p.1 handset).stc.state = p.1)
      ∧ ([0, 1, 1] : List Byte).length = 3 ∧ ([0] : List Byte).length = 1 := by decide

/-- Panel 5's record of 18 bytes: address 5, capability 4, range 1..9999, the defaults of power-on, attention split. -/
def goodFields : List Byte := [0, 5, 0, 0, 4, 0, 1, 0x27, 0x0F, 30, 1, 30, 0, 180, 0, 5, 6, 1]
def goodRecord : ConfigRecord := { ConfigRecord.powerOn with role := .entry, address := 5#8, capability := 4#8, attn := .split }

theorem test_configure_reads_the_record : parseConfig goodFields = some goodRecord ∧ configBytes goodRecord = goodFields := by decide

theorem test_witness_ConfigureRows :
    goodFields.length = 18 ∧ panel.stc.locked = true ∧ State.reset.stc.locked = false
      ∧ parseConfig (List.replicate 18 0) = none ∧ (List.replicate 18 (0 : Byte)).length = 18
      ∧ ((inState .configured panel).stc.locked = false ∧ (inState .configured panel).stc.state ≠ .unconfigured) := by decide

theorem test_witness_JoinRequestRows :
    (∀ st ∈ [StationState.unconfigured, .leaving, .learning, .joined, .isolated, .configured], (inState st panel).stc.state = st)
      ∧ ((inState .configured panel).rif.supply = .present ∧ (inState .configured panel).rif.queue = [])
      ∧ (inState .configured State.reset).rif.supply = .lost := by decide

theorem test_witness_RestartRequestRows :
    panel.stc.state = .joined ∧ panel.liveCount = 0 ∧ (∀ e ∈ panel.rif.queue, e.frame.kind ≠ .join ∧ e.frame.kind ≠ .leave)
      ∧ ContextLaw panel ∧ ContextLaw talkingPanel ∧ talkingPanel.stc.state = .joined :=
  ⟨by decide, by decide, by decide, no_context (by decide) (by decide) (by decide) (by decide) _, fun i c h => by
    by_cases hi : i = 0
    · subst hi
      have : c = inTalk := by
        rw [show talkingPanel.ctx 0 = some inTalk from by decide] at h; exact (Option.some.inj h).symm
      subst this; unfold Ctx.Fits; decide
    · exact absurd h (fun h => only_context_zero (s := talkingPanel) (by decide) (by decide) (by decide) (fun _ _ => False) i c h hi),
    by decide⟩

theorem test_witness_DialRows :
    panel.stc.state = .joined ∧ ¬ (3#8 = 1#8 ∨ 3#8 = 2#8 ∨ 3#8 = 4#8)
      ∧ (handset.role = .unit ∧ wordOf 0 1 ≠ 0#16)
      ∧ ¬ (wordOf 0x27 0x10 = 0#16 ∨ (panel.sport.config.lower.toNat ≤ (wordOf 0x27 0x10).toNat
        ∧ (wordOf 0x27 0x10).toNat ≤ panel.sport.config.upper.toNat))
      ∧ ((withCtx ringing panel).role ≠ .desk ∧ (withCtx ringing panel).activeCount ≠ 0)
      ∧ ((atLimit desk).role.limit ≤ (atLimit desk).liveCount ∧ (atLimit panel).role.limit ≤ (atLimit panel).liveCount
        ∧ (atLimit panel).activeCount = 0)
      ∧ (∀ s ∈ [panel, withLine 9999 [⟨200, 2⟩] panel], s.dialTest (wordOf 0x27 0x0F) 4 = .accepted ∧ s.freeRef = some 0)
      ∧ panel.lookup (wordOf 0x27 0x0F) = none ∧ (withLine 9999 [⟨200, 2⟩] panel).lookup (wordOf 0x27 0x0F) = some [200#8]
      ∧ panel.accepts (panel.ringFrame seeking 0 [200#8]) = true := by decide

theorem test_witness_SequenceNumberIsTheNextAbsent : fullPanel.smu.holds.length ≤ 24 ∧ fullPanel.smu.waits.length ≤ 16 := by decide

theorem test_witness_ContextRequestsActOnTheirContext :
    (panel.stc.state = .joined ∧ 4 ≤ (4#8 : Byte).toNat ∧ (∀ i : Ref, i.val = (3#8 : Byte).toNat → panel.ctx i = none))
      ∧ ((0 : Ref).val = (0#8 : Byte).toNat ∧ (withCtx alerting handset).ctx 0 = some alerting
        ∧ (withCtx alerting handset).accepts (.answer alerting.cid handset.sport.config.capability) = true)
      ∧ ((withCtx ringing panel).ctx 0 = some ringing ∧ ringing.side = .origin)
      ∧ (∀ b ∈ [true, false],
        let y := { cleared ringing .noAnswer .release with reversible := b }
        (withCtx y panel).ctx 0 = some y ∧ y.side = .origin ∧ y.state = .clearing ∧ y.reversible = b)
      ∧ ((withCtx seeking panel).ctx 0 = some seeking ∧ seeking.state = .seeking ∧ seeking.cause = none ∧ seeking.endPosted = false)
      ∧ ((withCtx awaitingPath handset).ctx 0 = some awaitingPath ∧ awaitingPath.state = .awaitPath
        ∧ (withCtx awaitingPath handset).accepts (.release awaitingPath.cid 1#8) = true)
      ∧ (∀ p ∈ hangable, (withCtx p.1 p.2).stc.state = .joined ∧ (withCtx p.1 p.2).ctx 0 = some p.1)
      ∧ ({ alerting with origRole := 2#8 } : Ctx).origRole ≠ 0#8
      ∧ (talking.ctx 0 = some answererTalk ∧ answererTalk.side = .answer ∧ answererTalk.origRole = 0#8 ∧ answererTalk.state = .talk
        ∧ talking.oku.door[(0 : Ref)] = none ∧ talking.accepts (.open_ answererTalk.cid) = true)
      ∧ (pendingDoor.ctx 0 = some answererTalk ∧ pendingDoor.oku.door[(0 : Ref)] ≠ none) := by decide

theorem test_witness_SettingRequestRows :
    (2#8 ≠ 0#8 ∧ 2#8 ≠ 1#8) ∧ panel.role ≠ .unit ∧ handset.role = .unit ∧ (3#8 ≠ 1#8 ∧ 3#8 ≠ 2#8)
      ∧ (∀ k ∈ [FaultKind.strike, .ringer], (panel.oku.fault k).sticky = false
        ∧ ∀ b ∈ [true, false], (panel.oku.setFault k ⟨6, true, b⟩).fault k = ⟨6, true, b⟩) := by decide

theorem test_witness_PurgeAndReadLine :
    63 < (64#8 : Byte).toNat ∧ (63 : Fin 64).val = (63#8 : Byte).toNat ∧ panel.udir.lineAt 63 = none
      ∧ (withLine 877 group panel).udir.lineAt 45 = some ⟨877, group⟩ ∧ group.length ≤ 4 := by decide

/-- A number of STATION notices in the queue. -/
def noticed (n : Nat) (s : State) : State :=
  { s with sport := { s.sport with notices := List.replicate n (.station .configured .learning .joinRequested) } }

theorem test_witness_NoticesPostedAndRead :
    (noticed 0 panel).sport.notices = [] ∧ (noticed 1 panel).sport.notices = .station .configured .learning .joinRequested :: []
      ∧ ((noticed 1 panel).respond .accepted [] .removeNotice).sport.transaction = some ⟨⟨.accepted, []⟩, .removeNotice⟩
      ∧ (∀ b ∈ [true, false], (panel.respond .accepted [] (.clearOverflow b)).sport.transaction = some ⟨⟨.accepted, []⟩, .clearOverflow b⟩)
      ∧ (noticed 15 panel).sport.notices.length < 16 ∧ 16 ≤ (noticed 16 panel).sport.notices.length := by decide

/-! ### Premises met: a reversal, and recalls in LEAVING -/

/-- A reversible clearing with cause CONGESTED whose wait was granted meanwhile. -/
def congested : Ctx := { cleared ringing .congested .release with reversible := true, path := some (0, 1), answerer := some 200#8 }

theorem test_witness_congested_reversal :
    let s := recalled ⟨.release, .call ⟨2, 60⟩⟩ (.answered .recalled) congested (withSmu [hold ⟨2, 60⟩ 0 1] [] panel)
    s.findCall ⟨2, 60⟩ = some 0 ∧ s.ctx 0 = some congested ∧ congested.state = .clearing ∧ congested.awaits = .release
      ∧ congested.reversible = true ∧ congested.cause = some .congested ∧ congested.path = some (0, 1)
      ∧ (∀ j : Ref, j ≠ 0 → s.outsideClearing j = false) ∧ s.member = true ∧ s.smu.holdOf ⟨2, 60⟩ = some (hold ⟨2, 60⟩ 0 1)
      ∧ s.path.record 0 = none ∧ (after (.recallAnswered ⟨.release, .call ⟨2, 60⟩⟩) s).ctx 0
        = some { congested with state := .settling, reversible := false, cause := none, awaits := .nothing } := by decide

/-- The recall of a reversible RELEASE succeeds beside another call: the desk set goes on with its call, the panel may not. -/
theorem test_witness_reversal_beside_another_call :
    let y := { cleared ringing .noAnswer .release with reversible := true, answerer := some 200#8 }
    let s := fun (r : State) => recalled ⟨.release, .call ⟨2, 60⟩⟩ (.answered .recalled) y (r.setCtx 1 (some { ringing with cid := ⟨2, 62⟩ }))
    let t := fun r => after (.recallAnswered ⟨.release, .call ⟨2, 60⟩⟩) (s r)
    (∀ r ∈ [desk, panel], (s r).findCall ⟨2, 60⟩ = some 0 ∧ (s r).ctx 0 = some y ∧ (s r).outsideClearing 1 = true ∧ y.reversible = true
        ∧ (s r).accepts (.release ⟨2, 60⟩ 3) = true ∧ (s r).smu.has ⟨2, 60⟩ = false)
      ∧ (s desk).role = .desk ∧ (s panel).role ≠ .desk
      ∧ [desk, panel].map (fun r => ((t r).ctx 0).map fun c => (c.state, c.reversible)) = [some (.claiming, false), some (.clearing, false)]
      ∧ [desk, panel].map (fun r => (t r).rif.queue.map Entry.frame) = [[.claim ⟨2, 60⟩ 0 1], [.release ⟨2, 60⟩ 3]] := by decide

/-- In LEAVING with the JOIN still queued no LEAVE falls due. -/
theorem test_witness_recall_in_leaving :
    let s := inState .leaving (recalling [.fresh panel.joinFrame] ⟨.snapshot, .bare⟩)
    s.stc.state = .leaving ∧ s.noLeaveDue ∧ s.queued ⟨.snapshot, .bare⟩ = false ∧ s.kindQueued .join = true := by
  refine ⟨by decide, fun _ => .inr (.inl (by decide)), by decide, by decide⟩

/-! ### Premises met: stale calls and buffered frames -/

theorem test_witness_learn_timer_releases_the_stale :
    let s := { learner 0 with stc := { (learner 0).stc with learn := some 1000, buffer := [(200, .claim ⟨200, 5⟩ 0 1)] } }
    s.stc.learn = some 1000 ∧ (∀ i : Ref, s.ctx i = none) ∧ s.rif.count .call ≤ 4
      ∧ s.staleTaken [⟨200, 5⟩] = [(0, ⟨200, 5⟩)]
      ∧ (after .learnTimerExpiry s).rif.queue = [Entry.fresh (.release ⟨200, 5⟩ 0x15)] := by decide

theorem test_witness_buffered_kinds :
    (∀ s ∈ [learner 0, withSmu fullHolds [waiting ⟨4, 10⟩ 4] (learner 0), withSmu (fullHolds.drop 1) [] (learner 0)],
      ∀ i : Ref, s.ctx i = none)
      ∧ (∀ m ∈ [(⟨[], []⟩ : Smu), ⟨fullHolds, [waiting ⟨4, 10⟩ 4]⟩, ⟨fullHolds.drop 1, []⟩], SlotLaw m)
      ∧ claimTest ⟨[], []⟩ 3 ⟨3, 41⟩ 2 2 = none ∧ claimTest ⟨[], []⟩ 3 ⟨3, 41⟩ 2 4 ≠ none ∧ waitTest ⟨[], []⟩ 5 ⟨5, 14⟩ 3 ≠ none
      ∧ (waitTest ⟨fullHolds, []⟩ 5 ⟨5, 14⟩ 2 = none ∧ freeCount fullHolds = 0)
      ∧ (waitTest ⟨fullHolds.drop 1, []⟩ 5 ⟨5, 14⟩ 2 = none ∧ freeCount (fullHolds.drop 1) ≠ 0) :=
  ⟨by decide, by unfold SlotLaw Hold.Aligned; decide, by decide, by decide, by decide, by decide, by decide⟩

/-- A buffered RELEASE grants its channels to the call that waits, and a buffered REFUSE does nothing. -/
theorem test_buffered_release_grants :
    let s := withSmu fullHolds [waiting ⟨4, 10⟩ 4] (learner 0)
    ((s.applyBuffered (33, .release ⟨33, 1⟩ 1)).smu.holdOf ⟨4, 10⟩).map (fun h => (h.base, h.width)) = some (0, 4)
      ∧ (s.applyBuffered (33, .release ⟨33, 1⟩ 1)).smu.waits = []
      ∧ s.applyBuffered (3, .refuse ⟨3, 1⟩ 4) = { s with eventNo := s.eventNo + 1 } := by decide

/-- Handset 200 comes back with two calls of its own in the copy, one held and one waiting. -/
def staleHolds : List SnapHold := [⟨⟨33, 1⟩, 0, 4⟩, ⟨⟨33, 2⟩, 4, 4⟩, ⟨⟨33, 3⟩, 8, 4⟩, ⟨⟨33, 4⟩, 12, 4⟩, ⟨⟨33, 5⟩, 16, 4⟩, ⟨⟨200, 7⟩, 20, 4⟩]

theorem test_witness_snapshot_with_stale_calls :
    let s := learner 0
    snapValid staleHolds [⟨⟨200, 9⟩, 1⟩] = true ∧ (Frame.snapshot staleHolds [⟨⟨200, 9⟩, 1⟩]).suits = true
      ∧ (∀ i : Ref, s.ctx i = none) ∧ s.rif.count .call ≤ 4
      ∧ s.staleTaken (staleHolds.map SnapHold.cid ++ [⟨200, 9⟩]) = [(0, ⟨200, 7⟩), (1, ⟨200, 9⟩)]
      ∧ (after (.snapshotTaken 3 staleHolds [⟨⟨200, 9⟩, 1⟩]) s).rif.queue
        = [Entry.fresh (.release ⟨200, 7⟩ 0x15), Entry.fresh (.release ⟨200, 9⟩ 0x15)] := by decide

/-! ### Premises met: live contexts against an installed copy -/

def heldAs (b : Nat) : List SnapHold := [⟨⟨2, 60⟩, b, 1⟩, ⟨⟨9, 44⟩, 20, 1⟩]
def fullSnap : List SnapHold := fullHolds.map fun h => ⟨h.cid, h.base, h.width⟩
def mutingCtx : Ctx := cleared inTalk .hungUp .pathOff

/-- Stations whose path is dark, each with the call 2/60 in a state, and another's SNAPSHOT: the call holds a block there, waits there, or
is not there. -/
def darkInstalls : List (Ctx × State × List SnapHold × List SnapWait) :=
  [(claiming, panel, heldAs 0, []), (claiming, withQueue [.fresh (.claim ⟨2, 60⟩ 0 1)] panel, fullSnap, [⟨⟨2, 60⟩, 1⟩]),
    (claiming, panel, snapHolds9, []), (waitingCtx, panel, heldAs 19, []), (waitingCtx, panel, fullSnap, [⟨⟨2, 60⟩, 1⟩]),
    (waitingCtx, panel, snapHolds9, []), (awaitingPath, handset, heldAs 0, []), (awaitingPath, handset, snapHolds9, []),
    ({ congested with path := none }, panel, heldAs 0, []), ({ congested with path := none }, panel, snapHolds9, []),
    (ringing, panel, snapHolds9, []), (alerting, handset, heldAs 0, []), (answeringCtx, handset, snapHolds9, [])]

/-- The same with a lit path on channel 0. -/
def litInstalls : List (PathRec × Ctx × List SnapHold) :=
  [(settlingRec, settlingCtx, heldAs 0), (settlingRec, settlingCtx, heldAs 1), (settlingRec, settlingCtx, snapHolds9),
    (openPath, inTalk, heldAs 0), (openPath, inTalk, heldAs 1), (openPath, inTalk, snapHolds9), (muting, mutingCtx, heldAs 0),
    (muting, mutingCtx, heldAs 1), (muting, mutingCtx, snapHolds9)]

theorem test_witness_installs :
    (∀ p ∈ darkInstalls,
      let s := withCtx p.1 p.2.1
      s.hears 3 (.snapshot p.2.2.1 p.2.2.2) ∧ s.stc.state = .joined ∧ snapValid p.2.2.1 p.2.2.2 = true
        ∧ s.smu.equalTo p.2.2.1 p.2.2.2 = false ∧ (s.ctx 0 = some p.1 ∧ s.ctx 1 = none ∧ s.ctx 2 = none ∧ s.ctx 3 = none)
        ∧ (p.1.announced = true ∨ p.1.side = .answer) ∧ s.rif.count .call ≤ 4 ∧ s.sport.notices = [])
      ∧ (∀ p ∈ litInstalls,
        let s := lit p.1 p.2.1 panel
        s.hears 3 (.snapshot p.2.2 []) ∧ s.stc.state = .joined ∧ snapValid p.2.2 [] = true ∧ s.smu.equalTo p.2.2 [] = false
          ∧ (s.ctx 0 = some p.2.1 ∧ s.ctx 1 = none ∧ s.ctx 2 = none ∧ s.ctx 3 = none) ∧ p.2.1.announced = true
          ∧ s.rif.count .call ≤ 4 ∧ s.sport.notices = []) := by
  simp only [State.hears]; decide

theorem test_witness_install_laws :
    (∀ p ∈ darkInstalls, let s := withCtx p.1 p.2.1; PathLaw s ∧ SlotLaw s.smu ∧ ContextLaw s)
      ∧ (∀ p ∈ litInstalls, let s := lit p.1 p.2.1 panel; PathLaw s ∧ SlotLaw s.smu ∧ ContextLaw s) := by
  have dark : ∀ p ∈ darkInstalls, (withCtx p.1 p.2.1).path = State.reset.path ∧ (withCtx p.1 p.2.1).smu = ⟨[], []⟩ ∧ p.1.Fits
      ∧ ((withCtx p.1 p.2.1).ctx 0 = some p.1 ∧ (withCtx p.1 p.2.1).ctx 1 = none ∧ (withCtx p.1 p.2.1).ctx 2 = none
        ∧ (withCtx p.1 p.2.1).ctx 3 = none) := by unfold Ctx.Fits; decide
  have bright : ∀ p ∈ litInstalls, p.1.block = (0, 1) ∧ SlotLaw (lit p.1 p.2.1 panel).smu ∧ p.2.1.Fits
      ∧ ((lit p.1 p.2.1 panel).ctx 0 = some p.2.1 ∧ (lit p.1 p.2.1 panel).ctx 1 = none ∧ (lit p.1 p.2.1 panel).ctx 2 = none
        ∧ (lit p.1 p.2.1 panel).ctx 3 = none) := by unfold SlotLaw Hold.Aligned Ctx.Fits; decide
  have empty : SlotLaw ⟨[], []⟩ := by unfold SlotLaw Hold.Aligned; decide
  have fits : ∀ p ∈ litInstalls, p.1.Fits p.2.1 panel.now := by
    have h1 : settlingRec.Fits settlingCtx panel.now := ⟨rfl, rfl, rfl, rfl, rfl, rfl⟩
    have h2 : openPath.Fits inTalk panel.now := ⟨rfl, rfl, rfl, rfl, rfl, rfl⟩
    have h3 : muting.Fits mutingCtx panel.now := ⟨rfl, rfl, rfl, rfl, rfl, rfl, 10, rfl, by decide⟩
    intro p hp
    simp only [litInstalls, List.mem_cons, List.not_mem_nil, or_false] at hp
    rcases hp with rfl | rfl | rfl | rfl | rfl | rfl | rfl | rfl | rfl <;> assumption
  refine ⟨fun p hp => ?_, fun p hp => ?_⟩
  · obtain ⟨h, h', hf, hc⟩ := dark p hp
    exact ⟨path_law_of_dark h, h' ▸ empty, context_law_of hc hf⟩
  · obtain ⟨h, h', hf, hc⟩ := bright p hp
    exact ⟨path_law_of_lit h (fits p hp), h', context_law_of hc hf⟩

/-- What the rows of R73 make of those calls: the call's state and block, its path stage, and the kinds of frame queued. -/
theorem test_install_outcomes :
    let call := fun (t : State) => ((t.ctx 0).map Ctx.state, (t.ctx 0).bind Ctx.path)
    let path := fun (t : State) => ((t.path.record 0).map PathRec.stage, t.rif.queue.map fun e => e.frame.kind)
    let dark := darkInstalls.map fun p => after (.snapshotTaken 3 p.2.2.1 p.2.2.2) (withCtx p.1 p.2.1)
    let bright := litInstalls.map fun p => after (.snapshotTaken 3 p.2.2 []) (lit p.1 p.2.1 panel)
    dark.map call =
        [(some .settling, some (0, 1)), (some .waiting, none), (some .claiming, none), (some .settling, some (19, 1)),
          (some .waiting, none), (some .clearing, none), (some .settling, some (0, 1)), (some .awaitPath, none),
          (some .clearing, some (0, 1)), (some .clearing, none), (some .ringing, none), (some .alerting, none), (some .answering, none)]
      ∧ dark.map path =
        [(some .settle, []), (none, [.claim]), (none, []), (some .settle, []), (none, []), (none, [.release]), (some .settle, []),
          (none, []), (none, []), (none, []), (none, []), (none, []), (none, [])]
      ∧ bright.map call =
        [(some .settling, some (0, 1)), (some .clearing, some (0, 1)), (some .clearing, some (0, 1)), (some .talk, some (0, 1)),
          (some .clearing, some (0, 1)), (some .clearing, some (0, 1)), (some .clearing, some (0, 1)), (some .clearing, some (1, 1)),
          (some .clearing, some (0, 1))]
      ∧ bright.map path =
        [(some .settle, []), (none, [.release]), (none, [.release]), (some .opened, []), (none, [.release]), (none, [.release]),
          (some .mute, []), (none, [.release]), (none, [.release])] := by decide

theorem test_witness_own_snapshot :
    (withQueue [.fresh (.snapshot [] [])] panel).kindQueued .snapshot = true
      ∧ (let s := withQueue [carried (.snapshot snapHolds9 [])] (withSmu [hold ⟨9, 44⟩ 20 1] [] panel)
         s.echoes s.own (.snapshot snapHolds9 []) ∧ s.stc.state = .joined ∧ s.smu.equalTo snapHolds9 [] = true
           ∧ (∀ e ∈ s.rif.queue, e.frame.kind = .snapshot → e.carriage = .carrying)
           ∧ s.rif.queue.countP (fun e => e.carriage = .carrying) = 1) := by
  simp only [State.echoes]; decide

/-! ### Premises met: a RELEASE or RECLAIM in each state -/

theorem test_witness_own_release_in_leaving :
    let y := cleared inTalk .hungUp .release
    let s := inState .leaving (withQueue [carried (.release ⟨2, 60⟩ 1)] (withCtx y panel))
    s.echoes s.own (.release ⟨2, 60⟩ 1) ∧ s.ctx 0 = some y ∧ y.state = .clearing ∧ s.stc.state = .leaving ∧ s.liveCount = 1
      ∧ s.kindQueued .join = false ∧ s.kindQueued .leave = false := by
  simp only [State.echoes]; decide

/-- The call 2/60 in each state, with what its station has queued and its copy holds. -/
def endable : List (Ctx × State) :=
  [(seeking, panel), (ringing, panel), ({ ringing with forward := .queued }, withQueue [.fresh (ring60 [240] 1)] panel),
    (claiming, withQueue [.fresh (.claim ⟨2, 60⟩ 0 1)] panel), (waitingCtx, withSmu fullHolds [waiting ⟨2, 60⟩ 1] panel),
    (waitingCtx, withQueue [.fresh (.wait ⟨2, 60⟩ 1)] panel), (settlingCtx, lit settlingRec settlingCtx panel), (inTalk, lit openPath inTalk panel),
    (alerting, handset), (answeringCtx, withQueue [.fresh (.answer ⟨2, 60⟩ 4)] handset), (answeringCtx, handset), (awaitingPath, handset),
    (answererTalk, talking), (congested, withSmu [hold ⟨2, 60⟩ 0 1] [] panel), (cleared answeringCtx .hungUp .answerRecall, handset),
    (mutingCtx, lit muting mutingCtx panel)]

theorem test_witness_endable :
    ∀ p ∈ endable,
      let s := withCtx p.1 p.2
      s.hears 33 (.release ⟨2, 60⟩ 1) ∧ s.hears 33 (.reclaim ⟨2, 60⟩) ∧ SlotLaw s.smu
        ∧ (s.ctx 0 = some p.1 ∧ s.ctx 1 = none ∧ s.ctx 2 = none ∧ s.ctx 3 = none) ∧ p.1.cid = ⟨2, 60⟩ ∧ s.rif.count .call ≤ 4
        ∧ (s.smu.waits = [] ∨ p.1.state = .waiting) := by
  unfold State.hears SlotLaw Hold.Aligned; decide

theorem test_witness_release_under_a_mute :
    let s := lit muting mutingCtx panel
    s.path.record 0 = some muting ∧ muting.stage = .mute ∧ s.path.lit 0 = true
      ∧ s.smu.holdOf ⟨2, 60⟩ = some (hold ⟨2, 60⟩ 0 1) ∧ muting.block = (0, 1) ∧ mutingCtx.announced = true := by decide

/-- What becomes of those calls by a RELEASE, and by a RECLAIM: their state, what a clearing awaits, and the recalls asked. -/
theorem test_release_outcomes :
    let outcome := fun (t : State) => ((t.ctx 0).map Ctx.state, (t.ctx 0).map Ctx.awaits, t.rif.recalls.map fun r => r.id.kind)
    let gone := (none, none, [])
    let waits := fun k => (some CtxState.clearing, some Awaits.frameRecall, [k])
    let releases := (some CtxState.clearing, some Awaits.release, [])
    let steps := (some CtxState.clearing, some Awaits.answerRecall, [FrameKind.answer])
    let marked := (some CtxState.clearing, some Awaits.answerRecall, [])
    endable.map (fun p => outcome (after (.releaseTaken 33 ⟨2, 60⟩ 1) (withCtx p.1 p.2))) =
        [gone, gone, (none, none, [.ring]), waits .claim, gone, waits .wait, gone, gone, gone, steps, gone, gone, gone, releases, marked,
          releases]
      ∧ endable.map (fun p => outcome (after (.reclaimTaken 33 ⟨2, 60⟩) (withCtx p.1 p.2))) =
        [(some .seeking, some .nothing, []), (some .ringing, some .nothing, []), (some .ringing, some .nothing, []),
          (some .claiming, some .nothing, []), gone, (some .waiting, some .nothing, []), gone, gone, (some .alerting, some .nothing, []),
          (some .answering, some .nothing, []), (some .answering, some .nothing, []), (some .awaitPath, some .nothing, []), gone, releases,
          marked, releases] := by decide

/-- Call 2/60 clears with its hold, and call 2/61 waits for a channel in each of the states that a grant finds. -/
def granting (z : Ctx) (s : State) : State :=
  withSmu (hold ⟨2, 60⟩ 0 4 :: fullHolds.drop 1) [waiting ⟨2, 61⟩ 1]
    ((withCtx (cleared ringing .noAnswer .release) s).setCtx 1 (some { z with cid := ⟨2, 61⟩ }))

def grantable : List (Ctx × State) :=
  [(claiming, panel), (waitingCtx, panel), (awaitingPath, handset), (cleared waitingCtx .hungUp .release, panel),
    ({ congested with path := none }, panel), ({ congested with path := none }, desk),
    ({ congested with path := none }, panel.setCtx 2 (some { ringing with cid := ⟨2, 62⟩ }))]

theorem test_witness_granting :
    ∀ p ∈ grantable,
      let s := granting p.1 p.2
      let t := after (.releaseTaken 33 ⟨2, 60⟩ 1) s
      s.hears 33 (.release ⟨2, 60⟩ 1) ∧ PathLaw s ∧ SlotLaw s.smu ∧ (s.ctx 0).map Ctx.cid = some ⟨2, 60⟩
        ∧ (s.ctx 1).map Ctx.cid = some ⟨2, 61⟩ ∧ s.smu.waitOf ⟨2, 61⟩ = some (waiting ⟨2, 61⟩ 1)
        ∧ (t.smu.holdOf ⟨2, 61⟩).map (fun g => (g.base, g.width)) = some (0, 1)
        ∧ (t.ctx 1).map Ctx.state = some (if p.1.state = .clearing then .clearing else .settling)
        ∧ (t.ctx 1).bind Ctx.path = some (0, 1) := by
  have h : ∀ p ∈ grantable, (granting p.1 p.2).path = State.reset.path := by decide
  intro p hp
  have rest : ∀ p ∈ grantable,
      let s := granting p.1 p.2
      let t := after (.releaseTaken 33 ⟨2, 60⟩ 1) s
      s.hears 33 (.release ⟨2, 60⟩ 1) ∧ SlotLaw s.smu ∧ (s.ctx 0).map Ctx.cid = some ⟨2, 60⟩
        ∧ (s.ctx 1).map Ctx.cid = some ⟨2, 61⟩ ∧ s.smu.waitOf ⟨2, 61⟩ = some (waiting ⟨2, 61⟩ 1)
        ∧ (t.smu.holdOf ⟨2, 61⟩).map (fun g => (g.base, g.width)) = some (0, 1)
        ∧ (t.ctx 1).map Ctx.state = some (if p.1.state = .clearing then .clearing else .settling)
        ∧ (t.ctx 1).bind Ctx.path = some (0, 1) := by unfold State.hears SlotLaw Hold.Aligned; decide
  exact ⟨(rest p hp).1, path_law_of_dark (h p hp), (rest p hp).2⟩

theorem test_grant_reverses_or_bars :
    grantable.map (fun p => ((after (.releaseTaken 33 ⟨2, 60⟩ 1) (granting p.1 p.2)).ctx 1).map Ctx.reversible)
      = [some false, some false, some false, some false, some true, some true, some false] := by decide

/-- Call 33/1 has no context here, and call 2/61 waits for a channel of its hold. -/
def grantingElsewhere (z : Ctx) (s : State) : State :=
  withSmu fullHolds [waiting ⟨2, 61⟩ 1] (withCtx { z with cid := ⟨2, 61⟩ } s)

theorem test_witness_granting_elsewhere :
    ∀ p ∈ grantable.take 5,
      let s := grantingElsewhere p.1 p.2
      s.hears 33 (.release ⟨33, 1⟩ 1) ∧ s.hears 34 (.reclaim ⟨33, 1⟩) ∧ SlotLaw s.smu ∧ PathLaw s
        ∧ (∀ j z, s.ctx j = some z → z.cid ≠ ⟨33, 1⟩) ∧ (∀ i j y z, s.ctx i = some y → s.ctx j = some z → y.cid = z.cid → i = j)
        ∧ s.smu.waitOf ⟨2, 61⟩ = some (waiting ⟨2, 61⟩ 1) := by
  have dark : ∀ p ∈ grantable.take 5, (grantingElsewhere p.1 p.2).path = State.reset.path := by decide
  have rest : ∀ p ∈ grantable.take 5,
      let s := grantingElsewhere p.1 p.2
      s.hears 33 (.release ⟨33, 1⟩ 1) ∧ s.hears 34 (.reclaim ⟨33, 1⟩) ∧ SlotLaw s.smu
        ∧ (∀ j : Ref, (s.ctx j).all (fun z => z.cid ≠ ⟨33, 1⟩) = true) ∧ (s.ctx 1 = none ∧ s.ctx 2 = none ∧ s.ctx 3 = none)
        ∧ s.smu.waitOf ⟨2, 61⟩ = some (waiting ⟨2, 61⟩ 1) := by unfold State.hears SlotLaw Hold.Aligned; decide
  intro p hp
  obtain ⟨a, b, c, d, e, f⟩ := rest p hp
  exact ⟨a, b, c, path_law_of_dark (dark p hp), fun j z hz => (by have h := d j; rw [hz] at h; simpa using h), single_call_of e, f⟩

/-- R14: the call goes to SETTLING or records the block in CLEARING, by a RELEASE and by a RECLAIM alike. -/
theorem test_granting_elsewhere_outcomes :
    ∀ c ∈ [Instr.releaseTaken 33 ⟨33, 1⟩ 1, .reclaimTaken 34 ⟨33, 1⟩],
      let ctx := fun (p : Ctx × State) => (after c (grantingElsewhere p.1 p.2)).ctx 0
      (grantable.take 5).map (fun p => (ctx p).map fun z => (z.state, z.reversible)) =
          [some (.settling, false), some (.settling, false), some (.settling, false), some (.clearing, false), some (.clearing, true)]
        ∧ (grantable.take 5).map (fun p => (ctx p).bind Ctx.path) = List.replicate 5 (some (0, 1)) := by decide

/-- The panel's call 2/61 clears with CONGESTED, its RELEASE queued, beside the call 2/60 that a RELEASE ends: at index `i`, the other at
index `j`. -/
def endedBeside (i j : Ref) : State :=
  let ended := { claiming with state := .settling, path := some (0, 4) }
  withQueue [.fresh (.release ⟨2, 61⟩ 7)] (withSmu (hold ⟨2, 60⟩ 0 4 :: fullHolds.drop 1) [waiting ⟨2, 61⟩ 1]
    ((panel.setCtx j (some ended)).setCtx i
      (some { cleared ringing .congested .release with cid := ⟨2, 61⟩, reversible := true, answerer := some 200#8 })))

theorem test_witness_ended_beside :
    ∀ p ∈ [((1 : Ref), (0 : Ref)), (0, 1)],
      let s := endedBeside p.1 p.2
      s.hears 33 (.release ⟨2, 60⟩ 1) ∧ SlotLaw s.smu ∧ PathLaw s
        ∧ ((s.ctx p.1).map Ctx.cid = some ⟨2, 61⟩ ∧ (s.ctx p.1).map Ctx.state = some .clearing
          ∧ (s.ctx p.1).map Ctx.reversible = some true ∧ (s.ctx p.1).bind Ctx.cause = some .congested)
        ∧ ((s.ctx p.2).map Ctx.cid = some ⟨2, 60⟩ ∧ s.outsideClearing p.2 = true) ∧ s.ctx 2 = none ∧ s.ctx 3 = none
        ∧ s.role ≠ .desk ∧ s.smu.waitOf ⟨2, 61⟩ = some (waiting ⟨2, 61⟩ 1) ∧ s.queued ⟨.release, .call ⟨2, 61⟩⟩ = true := by
  have dark : ∀ p ∈ [((1 : Ref), (0 : Ref)), (0, 1)], (endedBeside p.1 p.2).path = State.reset.path := by decide
  have rest : ∀ p ∈ [((1 : Ref), (0 : Ref)), (0, 1)],
      let s := endedBeside p.1 p.2
      s.hears 33 (.release ⟨2, 60⟩ 1) ∧ SlotLaw s.smu
        ∧ ((s.ctx p.1).map Ctx.cid = some ⟨2, 61⟩ ∧ (s.ctx p.1).map Ctx.state = some .clearing
          ∧ (s.ctx p.1).map Ctx.reversible = some true ∧ (s.ctx p.1).bind Ctx.cause = some .congested)
        ∧ ((s.ctx p.2).map Ctx.cid = some ⟨2, 60⟩ ∧ s.outsideClearing p.2 = true) ∧ s.ctx 2 = none ∧ s.ctx 3 = none
        ∧ s.role ≠ .desk ∧ s.smu.waitOf ⟨2, 61⟩ = some (waiting ⟨2, 61⟩ 1) ∧ s.queued ⟨.release, .call ⟨2, 61⟩⟩ = true := by
    unfold State.hears SlotLaw Hold.Aligned; decide
  exact fun p hp => ⟨(rest p hp).1, (rest p hp).2.1, path_law_of_dark (dark p hp), (rest p hp).2.2⟩

/-- The model's order (log 50): the clearing at the higher index asks for its RELEASE's recall, the one at the lower is final. -/
theorem test_ended_beside_outcomes :
    [((1 : Ref), (0 : Ref)), (0, 1)].map (fun p =>
      let t := after (.releaseTaken 33 ⟨2, 60⟩ 1) (endedBeside p.1 p.2)
      ((t.ctx p.1).map (fun z => (z.path, z.reversible)), (t.ctx p.2).map Ctx.state, t.rif.recalls.map Recall.id)) =
      [(some (some (0, 1), true), none, [⟨.release, .call ⟨2, 61⟩⟩]), (some (some (0, 1), false), none, [])] := by decide

/-! ### Premises met: rings and answers at the answering side -/

/-- Handset 200's call in each state of its side. -/
def answerSide : List (Ctx × State) :=
  [(alerting, handset), (answeringCtx, handset), (answeringCtx, withQueue [.fresh (.answer ⟨2, 60⟩ 4)] handset), (awaitingPath, handset),
    (answererTalk, talking), (cleared answeringCtx .hungUp .answerRecall, withQueue [.fresh (.answer ⟨2, 60⟩ 4)] handset),
    (cleared answererTalk .hungUp .release, handset)]

theorem test_witness_answer_side :
    ∀ p ∈ answerSide,
      let s := withCtx p.1 p.2
      (∀ ms ∈ [[200, 201], [201]], ∀ k ∈ [0, 1], s.hears 2 (ring60 ms k)) ∧ s.hears 201 (.answer ⟨2, 60⟩ 1)
        ∧ s.hears 2 (.claim ⟨2, 60⟩ 0 1) ∧ s.hears 2 (.wait ⟨2, 60⟩ 1) ∧ s.stc.state = .joined ∧ s.findCtx .origin ⟨2, 60⟩ = none
        ∧ s.findCtx .answer ⟨2, 60⟩ = some 0 ∧ (s.ctx 0 = some p.1 ∧ s.ctx 1 = none ∧ s.ctx 2 = none ∧ s.ctx 3 = none)
        ∧ p.1.side.has p.1.state = true ∧ p.1.side = .answer ∧ p.1.ringPhase = 0 ∧ 201#8 ∈ p.1.members := by
  simp only [State.hears]; decide

/-- A RING to the other member alone in the call's phase and in the next, another member's ANSWER, and a CLAIM that fails. -/
theorem test_answer_side_outcomes :
    let outcome := fun (t : State) => ((t.ctx 0).map Ctx.state, (t.ctx 0).map Ctx.superseded)
    let by_ := fun (c : Instr) => answerSide.map fun p => outcome (after c (withCtx p.1 p.2))
    let gone := (none, none)
    let waits := (some CtxState.clearing, some true)
    let stays := fun k => (some k, some false)
    by_ (.ringTaken 2 ⟨2, 60⟩ 877 1 0 0 [201]) = [gone, gone, waits, gone, gone, waits, stays .clearing]
      ∧ by_ (.ringTaken 2 ⟨2, 60⟩ 877 1 0 1 [201]) = [gone, gone, waits, stays .awaitPath, stays .talk, waits, stays .clearing]
      ∧ by_ (.answerTaken 201 ⟨2, 60⟩ 1) = [gone, gone, waits, stays .awaitPath, stays .talk, waits, stays .clearing]
      ∧ by_ (.claimTaken 2 ⟨2, 60⟩ 2 4) = [gone, gone, waits, stays .awaitPath, stays .talk, waits, stays .clearing] := by decide

theorem test_witness_own_answer_in_clearing :
    ∀ b ∈ [true, false], ∀ hs ∈ [[], [hold ⟨2, 60⟩ 0 1]],
      let y := { cleared answeringCtx .hungUp .answerRecall with superseded := b }
      let s := withSmu hs [] (withQueue [carried (.answer ⟨2, 60⟩ 4)] (withCtx y handset))
      s.echoes s.own (.answer ⟨2, 60⟩ 4) ∧ s.findCtx .origin ⟨2, 60⟩ = none ∧ s.findCtx .answer ⟨2, 60⟩ = some 0 ∧ s.ctx 0 = some y
        ∧ (y.state = .clearing ∧ y.awaits = .answerRecall ∧ y.superseded = b) ∧ s.smu.has ⟨2, 60⟩ = !hs.isEmpty
        ∧ (s.onEcho ⟨.answer, .call ⟨2, 60⟩⟩).accepts (.release ⟨2, 60⟩ (causeByte y.cause)) = true
        ∧ (after (.answerTaken 200 ⟨2, 60⟩ 4) s).rif.queue
          = if b = false ∧ hs = [] then [Entry.fresh (.release ⟨2, 60⟩ 1)] else [] := by
  simp only [State.echoes]; decide

/-! ### Premises met: rings and answers at the originating side, and other events in LEAVING -/

/-- The own RING in carriage with the call as each row of R107 finds it, some call frames queued behind it; the last three find the queue
full. -/
def ownRings : List (Byte × Ctx × Nat × State) :=
  [(0, { ringing with announced := false, ring := none }, 0, panel), (1, { ringing with forward := .queued }, 0, panel),
    (1, { claiming with forward := .queued }, 0, panel), (1, { claiming with forward := .narrowing }, 0, panel),
    (0, cleared { ringing with announced := false } .hungUp .pathOff, 0, panel),
    (0, cleared { ringing with announced := false } .hungUp .ringFate, 0, panel), (0, { claiming with announced := false }, 0, panel),
    (1, claiming, 0, panel), (1, { claiming with forward := .queued }, 8, panel), (1, { waitingCtx with forward := .queued }, 8, panel),
    (1, { inTalk with forward := .queued }, 8, lit openPath inTalk panel)]

def ownRing (p : Byte × Ctx × Nat × State) : State :=
  withQueue (carried (ring60 [240] p.1) :: (List.range p.2.2.1).map fun n => .fresh (.refuse ⟨9, byte n⟩ 4)) (withCtx p.2.1 p.2.2.2)

theorem test_witness_own_rings :
    ∀ p ∈ ownRings,
      let s := ownRing p
      let base := s.onEcho ⟨.ring, .call ⟨2, 60⟩⟩
      let narrowing := Frame.ring ⟨2, 60⟩ p.2.1.peerUnit (byte p.2.1.wanted) s.role.code 1 [p.2.1.answerer.getD 0]
      s.echoes s.own (ring60 [240] p.1) ∧ s.stc.state = .joined ∧ s.findCtx .origin ⟨2, 60⟩ = some 0 ∧ s.ctx 0 = some p.2.1
        ∧ base.accepts narrowing = decide (p.2.2.1 = 0) ∧ (p.2.2.1 = 0 → base.accepts (.release ⟨2, 60⟩ (causeByte p.2.1.cause)) = true)
        ∧ (p.2.1.state = .clearing ∨ p.2.1.cause = none) ∧ (p.2.1.state = .talk → s.path.lit 0 = true) := by
  simp only [State.echoes]; decide

theorem test_own_ring_outcomes :
    let outcome := fun (t : State) => ((t.ctx 0).map Ctx.state, (t.ctx 0).map Ctx.forward, (t.rif.queue.map fun e => e.frame.kind))
    let refuses := List.replicate 8 FrameKind.refuse
    ownRings.map (fun p => outcome (after (.ringTaken 2 ⟨2, 60⟩ 877 1 0 p.1 [240]) (ownRing p))) =
      [(some .ringing, some .none, []), (some .ringing, some .none, []), (some .claiming, some .narrowing, [.ring]),
        (some .claiming, some .none, []), (some .clearing, some .none, []), (some .clearing, some .none, [.release]),
        (some .claiming, some .none, []), (some .claiming, some .none, []), (none, none, refuses), (none, none, refuses),
        (some .clearing, some .none, refuses)] := by decide

/-- Ring phase is 1 once the forward RING has been taken (R100): the own forward RING in RINGING, in CLAIMING, and in CLEARING. -/
theorem test_forward_ring_sets_the_phase :
    [{ ringing with forward := .queued }, { claiming with forward := .queued },
        cleared { claiming with forward := .queued } .hungUp .release].map (fun y =>
      ((after (.ringTaken 2 ⟨2, 60⟩ 877 1 0 1 [240]) (ownRing (1, y, 0, panel))).ctx 0).map fun c => (c.ringPhase, c.members)) =
      [some (1, [240]), some (1, [200, 201]), some (1, [200, 201])] := by decide

/-- The forward RING dropped with its recall on the way: the call clears with SEND_FAILED (R53, R111). -/
theorem test_forward_ring_dropped_under_recall :
    let s := lastTry (ring60 [240] 1) { claiming with forward := .queued } panel
    let t := after (.frameSpoiled 0 []) { s with rif := { s.rif with recalls := [⟨⟨.ring, .call ⟨2, 60⟩⟩, .asked⟩] } }
    (t.ctx 0).bind Ctx.cause = some .sendFailed ∧ t.rif.recalls = []
      ∧ (t.rif.queue.drop 1).map Entry.frame = [.release ⟨2, 60⟩ 0x0F] := by decide

/-- An ANSWER finds a forward queued with its RING, and a reversible clearing alone or beside another call. -/
theorem test_witness_answer_reverses :
    let reversible := { cleared ringing .noAnswer .release with reversible := true }
    let forwarding := { ringing with forward := .queued }
    let alone := withQueue [.fresh (.release ⟨2, 60⟩ 3)] (withCtx reversible panel)
    let beside := alone.setCtx 1 (some { alerting with cid := ⟨3, 1⟩ })
    (∀ s ∈ [alone, beside],
      s.hears 200 (.answer ⟨2, 60⟩ 2) ∧ s.findCtx .origin ⟨2, 60⟩ = some 0 ∧ s.findCtx .answer ⟨2, 60⟩ = none ∧ s.ctx 0 = some reversible
        ∧ 200#8 ∈ reversible.members ∧ reversible.answerer = none ∧ s.queued ⟨.release, .call ⟨2, 60⟩⟩ = true)
      ∧ (∀ j : Ref, j ≠ 0 → alone.outsideClearing j = false) ∧ (beside.role ≠ .desk ∧ beside.outsideClearing 1 = true)
      ∧ (let s := withQueue [.fresh (ring60 [240] 1)] (withCtx forwarding panel)
         s.hears 200 (.answer ⟨2, 60⟩ 2) ∧ s.ctx 0 = some forwarding ∧ s.queued ⟨.ring, .call ⟨2, 60⟩⟩ = true
           ∧ (after (.answerTaken 200 ⟨2, 60⟩ 2) s).rif.recalls = [⟨⟨.ring, .call ⟨2, 60⟩⟩, .asked⟩])
      ∧ (inState .leaving (withCtx ringing panel)).hears 200 (.answer ⟨2, 60⟩ 2) := by
  simp only [State.hears]; decide

theorem test_witness_door_in_leaving :
    let s := inState .leaving talkingPanel
    let t := inState .leaving pendingDoor
    s.hears 200 (.open_ ⟨2, 60⟩) ∧ s.noLeaveDue ∧ t.hears 2 (.opened ⟨2, 60⟩ 4) ∧ t.noLeaveDue := by
  simp only [State.hears, State.noLeaveDue]; decide

theorem test_witness_expiries_outside_joined :
    (let s := inState .learning panel; ({ s with stc := { s.stc with stagger := some 6 } } : State).stc.stagger = some 6)
      ∧ (let s := inState .leaving (withSmu [hold ⟨9, 44⟩ 20 1] [] panel)
         s.smu.auditExpiry ⟨9, 44⟩ = some 900000 ∧ s.accepts (.reclaim ⟨9, 44⟩) = true) := by decide

/-- A posting dropped between a READ_STATUS and the last byte of its answer. -/
theorem test_witness_overflow_while_read (n : Notice) :
    let s := (noticed 16 panel).respond .accepted [] (.clearOverflow false)
    16 ≤ s.sport.notices.length ∧ s.sport.transaction = some ⟨⟨.accepted, []⟩, .clearOverflow false⟩
      ∧ (after .overflowFlagCleared (s.post n)).sport.overflow = true := ⟨by decide, rfl, rfl⟩

/-! ### Premises met: a RESTART, riser loss, alerting and door requests -/

/-- The calls of the installs meet the premises of a RESTART in JOINED too. -/
theorem test_witness_restart_of_calls :
    (∀ p ∈ darkInstalls,
      let s := withCtx p.1 p.2.1
      s.stc.state = .joined ∧ s.ctx 0 = some p.1 ∧ (PathLaw s ∧ SlotLaw s.smu ∧ ContextLaw s) ∧ s.rif.count .call ≤ 4
        ∧ s.sport.notices = [] ∧ ∀ i : Ref, s.path.record i = none)
      ∧ (∀ p ∈ litInstalls,
        let s := lit p.1 p.2.1 panel
        s.stc.state = .joined ∧ s.ctx 0 = some p.2.1 ∧ (PathLaw s ∧ SlotLaw s.smu ∧ ContextLaw s) ∧ s.rif.count .call ≤ 4
          ∧ s.sport.notices = [] ∧ (p.2.1.state ≠ .clearing → s.path.lit 0 = true))
      ∧ (let s := withQueue [.fresh (.snapshot [] []), .fresh panel.joinFrame] panel
         s.queued ⟨.snapshot, .bare⟩ = true ∧ s.queued s.joinFrame.ident = true) := by
  have dark : ∀ p ∈ darkInstalls, ∀ i : Ref, (withCtx p.1 p.2.1).path.record i = none := by decide
  have bright : ∀ p ∈ litInstalls, p.2.1.state ≠ .clearing → (lit p.1 p.2.1 panel).path.lit 0 = true := by decide
  refine ⟨fun p hp => ?_, fun p hp => ?_, by decide⟩
  · obtain ⟨-, h1, -, -, h2, -, h3, h4⟩ := test_witness_installs.1 p hp
    exact ⟨h1, h2.1, test_witness_install_laws.1 p hp, h3, h4, dark p hp⟩
  · obtain ⟨-, h1, -, -, h2, -, h3, h4⟩ := test_witness_installs.2 p hp
    exact ⟨h1, h2.1, test_witness_install_laws.2 p hp, h3, h4, bright p hp⟩

/-- What R75, R125 and R144 make of some calls: the state, what a clearing awaits, and the kinds of frame queued. -/
theorem test_restart_outcomes :
    let outcome := fun (t : State) => ((t.ctx 0).map Ctx.state, (t.ctx 0).map Ctx.awaits, t.rif.queue.map fun e => e.frame.kind)
    let cause := fun (t : State) => (t.ctx 0).map Ctx.cause
    let of := fun (p : Ctx × State) => after (.restart []) (withCtx p.1 p.2)
    let calls := [(seeking, panel), (ringing, panel), (claiming, withQueue [.fresh (.claim ⟨2, 60⟩ 0 1)] panel), (waitingCtx, panel),
      (inTalk, lit openPath inTalk panel), (alerting, handset), (answeringCtx, withQueue [.fresh (.answer ⟨2, 60⟩ 4)] handset),
      (awaitingPath, handset), (congested, withQueue [.fresh (.release ⟨2, 60⟩ 7)] panel)]
    calls.map (fun p => outcome (of p)) =
        [(none, none, [.leave]), (some .clearing, some .release, [.release]), (some .clearing, some .release, [.claim, .release]),
          (some .clearing, some .release, [.release]), (some .clearing, some .pathOff, []), (none, none, [.leave]),
          (some .clearing, some .answerRecall, [.answer]), (some .clearing, some .release, [.release]),
          (some .clearing, some .release, [.release])]
      ∧ (calls.map fun p => cause (of p)) =
        [none, some (some .restart), some (some .restart), some (some .restart), some (some .restart), none, some (some .restart),
          some (some .restart), some (some .congested)]
      ∧ ((of (congested, panel)).ctx 0).map Ctx.reversible = some false
      ∧ (of (alerting, handset)).sport.notices = [.callEnded 0 ⟨2, 60⟩ (some .restart), .station .joined .leaving .restartRequested] := by
  decide

/-- Handset 200 alerting. -/
def alertingHandset : State := after (.ringTaken 2 ⟨2, 60⟩ 877 1 0 0 [200, 201]) handset

/-- Handset 200 in TALK with the path lit and its OPEN pending. -/
def litDoor : State := (lit { openPath with sendHalf := .ret } answererTalk handset).setDoor 0 (some 2000)

/-- Each with a command waiting that touches what the law speaks of. -/
def alertDue : State := { alertingHandset with pending := [.alertLimitExpiry 0] }
def doorDue : State := { litDoor with pending := [.replyWaitExpiry 0] }

theorem test_witness_alert_and_door_laws :
    (∀ s ∈ [alertDue, doorDue], AlertLaw s ∧ RingerLaw s ∧ DoorLaw s ∧ PathLaw s ∧ ContextLaw s ∧ RoleLaw s ∧ s.onRiser = true
        ∧ s.carrying = none ∧ ∃ t, step s = .next t)
      ∧ alertDue.oku.alerting[(0 : Ref)] = true ∧ alertDue.oku.ringer ≠ .silent ∧ doorDue.oku.door[(0 : Ref)] ≠ none := by
  refine ⟨fun s hs => ?_, by decide⟩
  have h : ∀ s ∈ [alertDue, doorDue], ∀ i : Ref,
      (s.oku.alerting[i] = true ↔ (s.ctx i).map Ctx.state = some .alerting)
        ∧ (s.oku.door[i] ≠ none → (s.ctx i).map (fun y => (y.side, y.state)) = some (.answer, .talk)) := by decide
  have path : ∀ s ∈ [alertDue, doorDue], PathLaw s := by
    intro s hs
    simp only [List.mem_cons, List.not_mem_nil, or_false] at hs
    rcases hs with rfl | rfl
    · exact path_law_of_dark (by decide)
    · exact path_law_of_lit (r := { openPath with sendHalf := .ret }) (y := answererTalk) (s := handset) rfl ⟨rfl, rfl, rfl, rfl, rfl, rfl⟩
  have context : ∀ s ∈ [alertDue, doorDue], ContextLaw s := by
    intro s hs
    simp only [List.mem_cons, List.not_mem_nil, or_false] at hs
    rcases hs with rfl | rfl
    · exact context_law_of (y := { alerting with alertedAt := 1 }) (by decide) (by unfold Ctx.Fits; decide)
    · exact context_law_of (y := answererTalk) (by decide) (by unfold Ctx.Fits; decide)
  have rest : ∀ s ∈ [alertDue, doorDue], RingerLaw s ∧ LockLaw s ∧ (s.member = true ∧ s.stc.state.sends = true)
      ∧ s.liveCount ≤ s.role.limit ∧ s.activeCount ≤ 1 ∧ s.onRiser = true ∧ s.carrying = none := by unfold RingerLaw LockLaw; decide
  obtain ⟨ringer, lock, ⟨member, sends⟩, live, active, riser, quiet⟩ := rest s hs
  refine ⟨fun i => ?_, ringer, fun i hi => ?_, path s hs, context s hs,
    ⟨lock, ⟨fun c => (by rw [member] at c; cases c), fun c => (by rw [sends] at c; cases c)⟩, live, fun _ => active⟩,
    riser, quiet, ?_⟩
  · rw [(h s hs i).1]; cases s.ctx i <;> simp
  · have := (h s hs i).2 hi
    cases hc : s.ctx i <;> simp_all
  · simp only [List.mem_cons, List.not_mem_nil, or_false] at hs
    rcases hs with rfl | rfl <;> exact ⟨_, rfl⟩

/-- The loss of the riser ends the alerting call: its CALL_ENDED comes before the STATION notice, and the ringer falls silent. -/
theorem test_riser_loss_silences_the_ringer :
    let t := after .supplyLossTimerExpiry { alertingHandset with rif := { alertingHandset.rif with lossTimer := some 50 } }
    t.oku.ringer = .silent ∧ t.sport.notices.drop 1 = [.callEnded 0 ⟨2, 60⟩ (some .isolated), .station .joined .isolated .riserLost] := by
  decide

/-- A member address that a RING carries twice counts once (R128). -/
theorem test_member_twice_counts_once :
    let t := after (.readContext [0]) (after (.ringTaken 2 ⟨2, 60⟩ 877 1 0 0 [201, 200, 201]) handset)
    (t.ctx 0).map Ctx.members = some [201, 200]
      ∧ (t.sport.transaction.map fun x => (x.answer.fields.drop 6).take 5) = some [2, 201, 200, 0, 0] := by decide
/-! ### Premises met: laws -/

def full : State := { withSmu fullHolds [waiting ⟨4, 10⟩ 4] panel with pending := [.releaseTaken 33 ⟨33, 1⟩ 1] }

theorem test_witness_SlotLawIsKept : SlotLaw full.smu ∧ ∃ t, step full = .next t :=
  ⟨by unfold SlotLaw Hold.Aligned; decide, _, rfl⟩

theorem test_witness_ReadsAnswerTheStateAsItStands :
    4 ≤ (4#8 : Byte).toNat ∧ ((3 : Ref).val = (3#8 : Byte).toNat ∧ panel.ctx 3 = none)
      ∧ ((0 : Ref).val = (0#8 : Byte).toNat ∧ (withCtx ringing panel).ctx 0 = some ringing)
      ∧ (full.smu.waits = [] ++ waiting ⟨4, 10⟩ 4 :: [] ∧ ∀ x ∈ full.rif.queue, x.frame.kind ≠ .reclaim)
      ∧ (reclaiming.rif.queue = [Entry.fresh (.refuse ⟨3, 1⟩ 4)] ++ carried (.reclaim ⟨9, 44⟩) 15 :: []
        ∧ ∀ y ∈ [Entry.fresh (.refuse ⟨3, 1⟩ 4)], y.frame.kind ≠ .reclaim)
      ∧ (((1#8, some 30000) ∈ [(1#8, ringing.ring), (2#8, ringing.wait), (3#8, ringing.talk), (4#8, ringing.alert), (5#8, ringing.pathWait)])
        ∧ (0x7F#8 : Byte) ∉ requestCodes ∧ ([] : List Byte).length < (1#8 : Byte).toNat
        ∧ (panel.reply .badRef).sport.transaction = some ⟨⟨.badRef, []⟩, .nothing⟩ ∧ panel.sport.transaction = none) := by decide

/-- A READ_CONTEXT on the pins: code 35h, length 1, reference 4, two bytes past the request; BAD_REF and M = 0 after the turnaround
byte. -/
theorem test_transaction_bytes :
    let c := transactionOf [0x35, 1, 4, 0, 0]
    c = .readContext [4] ∧ ((List.range 8).map fun n => (after c panel).sdo 1 n) = [0, 0, 0, 0, 0x0A, 0, 0, 0]
      ∧ transactionOf [0x10, 3, 3, 109] = .transactionDiscarded ∧ transactionOf [0x10] = .transactionDiscarded
      ∧ transactionOf [0x7F, 0] = .unknownRequest 0x7F [] := by decide

theorem test_witness_QueueLawIsKept : QueueLaw { contending with pending := [.opening none 1] }
    ∧ ∃ t, step { contending with pending := [.opening none 1] } = .next t := by
  refine ⟨⟨?_, by decide, by decide⟩, _, rfl⟩
  intro k; cases k <;> decide

theorem test_witness_OutputLawsAreKept :
    let s := { (after (.ringTaken 2 ⟨2, 60⟩ 877 1 0 0 [200]) handset) with pending := [.alertLimitExpiry 0] }
    NoticeLaw s ∧ LockLaw s ∧ StrikeLaw s ∧ RingerLaw s ∧ ∃ t, step s = .next t := by
  refine ⟨by unfold NoticeLaw; decide, by unfold LockLaw; decide, by unfold StrikeLaw; decide, ?_, _, rfl⟩
  unfold RingerLaw; decide

theorem test_witness_FramesAndRecordsAreReadAsSent :
    (Frame.snapshot (List.replicate 24 ⟨⟨1, 1⟩, 0, 1⟩) (List.replicate 16 ⟨⟨1, 1⟩, 1⟩)).suits = true
      ∧ (ring60 [1, 2, 3, 4] 1).suits = true ∧ goodRecord.valid = true := by decide

/-- Panel 2 with line 45 of unit 877 and a JOIN to take. -/
def listed : State := { withLine 877 group panel with pending := [.joinTaken 204 1 877 2] }

theorem test_witness_line_at (k : Fin 64) : listed.udir.lineAt k = if k = 45 then some ⟨877, group⟩ else none := by
  show (State.reset.udir.lines.set (lineIndex 877) (some ⟨877, group⟩))[k] = _
  have h45 : (lineIndex 877).val = 45 := by decide
  rw [Fin.getElem_fin, Vector.getElem_set]
  simp only [h45, State.reset, Vector.getElem_replicate, Fin.ext_iff]
  by_cases h : k.val = 45
  · simp [h]
  · simp [h, Ne.symm h]

theorem test_witness_DirectoryLawIsKept : DirectoryLaw listed ∧ ∃ t, step listed = .next t := by
  refine ⟨⟨?_, ?_⟩, _, rfl⟩
  · intro k l h
    rw [test_witness_line_at] at h
    split at h
    · next hk => cases h; subst hk; decide
    · cases h
  · intro j k l m a hj hk _ _
    rw [test_witness_line_at] at hj hk
    split at hj
    · next hj' => split at hk
                  · next hk' => rw [hj', hk']
                  · cases hk
    · cases hj

/-- Panel 2 in TALK, its talk timer due. -/
def dueTalk : State := { talkingPanel with pending := [.talkTimerExpiry 0] }

theorem test_witness_ContextLawsAreKept : RoleLaw dueTalk ∧ ContextLaw dueTalk ∧ ∃ t, step dueTalk = .next t := by
  refine ⟨⟨by unfold LockLaw; decide, ⟨fun h => absurd h (by decide), fun h => absurd h (by decide)⟩, by decide, by decide⟩,
    test_witness_RestartRequestRows.2.2.2.2.1, _, rfl⟩

/-- The same with its receive gate open, as it is in TALK. -/
def duePath : State := { dueTalk with path := { dueTalk.path with gate := true } }

theorem test_witness_PathLaw :
    PathLaw duePath ∧ SlotLaw duePath.smu ∧ RoleLaw duePath ∧ ContextLaw duePath ∧ ∃ t, step duePath = .next t :=
  ⟨path_law_of_lit (r := openPath) (y := inTalk) (s := panel) rfl ⟨rfl, rfl, rfl, rfl, rfl, rfl⟩,
    by unfold SlotLaw Hold.Aligned; decide, test_witness_ContextLawsAreKept.1, test_witness_ContextLawsAreKept.2.1, _, rfl⟩

/-! ### Moments of the worked sequences -/

/-- Rush hour: the copy at 08:10. -/
def rush : State :=
  withSmu [hold ⟨34, 2⟩ 6 2, hold ⟨240, 15⟩ 8 4, hold ⟨21, 40⟩ 12 4, hold ⟨33, 7⟩ 16 4, hold ⟨241, 3⟩ 20 1, hold ⟨242, 1⟩ 21 1,
    hold ⟨243, 1⟩ 22 2] [] panel

theorem test_rush_first_placements :
    freeCount rush.smu.holds = 6 ∧ placement rush.smu.holds 1 = some (0, 1) ∧ placement rush.smu.holds 4 = some (0, 4) := by decide

theorem test_rush_claim_taken_then_not_free :
    let s := after (.claimTaken 3 ⟨3, 50⟩ 0 1) rush
    freeCount s.smu.holds = 5 ∧ claimTest s.smu 3 ⟨3, 41⟩ 0 4 = some .notFree ∧ placement s.smu.holds 4 = some (2, 2) := by decide

/-- The list fills: a RELEASE of block 8+4 grants the three calls at the head. -/
theorem test_release_grants_from_the_head :
    let s := withSmu fullHolds [waiting ⟨242, 6⟩ 1, waiting ⟨2, 51⟩ 1, waiting ⟨3, 42⟩ 4, waiting ⟨177, 3⟩ 1] handset
    let t := after (.releaseTaken 33 ⟨33, 3⟩ 1) s
    t.smu.waits.map WaitEntry.cid = [⟨177, 3⟩]
      ∧ t.smu.holds.map (fun h => (h.cid, h.base, h.width)) =
        [(⟨33, 1⟩, 0, 4), (⟨33, 2⟩, 4, 4), (⟨242, 6⟩, 8, 1), (⟨2, 51⟩, 9, 1), (⟨3, 42⟩, 10, 2), (⟨33, 4⟩, 12, 4), (⟨33, 5⟩, 16, 4),
          (⟨33, 6⟩, 20, 4)] := by decide

/-- The panel returns: the stale hold of its own address is released with cause STALE. -/
theorem test_stale_self_release :
    let s := inState .learning panel
    let t := after (.snapshotTaken 3 [⟨⟨2, 44⟩, 20, 1⟩] []) s
    t.stc.state = .joined ∧ t.stc.outcome = .snapshot
      ∧ t.rif.queue = [Entry.fresh (.release ⟨2, 44⟩ 0x15)] ∧ (t.ctx 0).map Ctx.state = some .clearing
      ∧ t.sport.notices = [.station .learning .joined .learned, .callEnded 0 ⟨2, 44⟩ (some .stale)] := by decide

/-- A ring group: a handset with DND on refuses, and one that is free alerts and sounds its ringer. -/
theorem test_ring_alerts_and_refuses :
    let t := after (.ringTaken 2 ⟨2, 60⟩ 877 1 0 0 [200, 201]) handset
    t.oku.ringerOn = true ∧ t.sport.attn0 = true ∧ t.rif.queue = []
      ∧ (after (.ringTaken 2 ⟨2, 60⟩ 877 1 0 0 [200, 201]) { handset with sport := { handset.sport with dnd := true } }).rif.queue
        = [Entry.fresh (.refuse ⟨2, 60⟩ 1)] := by decide

/-- A door request meets a strike fault: the sixth active sample qualifies, and the OPEN is answered FAULT. -/
theorem test_strike_fault_refuses_the_door :
    let s := after (.faultSample true false) { talkingPanel with oku := talkingPanel.oku.setFault .strike ⟨5, false, true⟩ }
    s.oku.strikeFault.sticky = true ∧ s.sport.notices = [.fault .strike false]
      ∧ (after (.openTaken 200 ⟨2, 60⟩) s).oku.strikeOn = false
      ∧ (after (.openTaken 200 ⟨2, 60⟩) s).rif.queue = [Entry.fresh (.opened ⟨2, 60⟩ 2)]
      ∧ (after (.openTaken 200 ⟨2, 60⟩) talkingPanel).oku.strike = some 5000 := by decide

theorem test_dial_miss_seeks :
    let t := after (.dial [3, 109, 1]) panel
    t.sport.transaction = some ⟨⟨.accepted, [0, 2, 1]⟩, .nothing⟩ ∧ t.rif.queue = [Entry.fresh (.seek 877)]
      ∧ (t.ctx 0).map Ctx.state = some .seeking := by decide

theorem test_no_word_spells_a_command : decodeTableWord 8 1 = none ∧ panel.withFetchWord 8 1 = panel := by decide

end Sys2Proof.Machine.Test
end

section
/-! PROOFS. The slot map: the CLAIM and WAIT tests by rows, the placement rule, and the grant scan (R4, R6, R26, R30). -/

namespace Sys2Proof.Machine

/-! ### Questions -/

theorem validWidth_iff {w : Nat} : validWidth w = true ↔ w = 1 ∨ w = 2 ∨ w = 4 := by
  simp [validWidth, or_assoc]

theorem blockFree_eq_false_iff {hs : List Hold} {b w : Nat} :
    blockFree hs b w = false ↔ ∃ n, b ≤ n ∧ n < b + w ∧ channelFree hs n = false := by
  rw [← Bool.not_eq_true, blockFree_iff]
  push Not
  simp

theorem holdOf_isSome_iff {m : Smu} {c : CallId} : (m.holdOf c).isSome = true ↔ ∃ h ∈ m.holds, h.cid = c := by
  simp [Smu.holdOf]

theorem waitOf_isSome_iff {m : Smu} {c : CallId} : (m.waitOf c).isSome = true ↔ ∃ e ∈ m.waits, e.cid = c := by
  simp [Smu.waitOf]

theorem Smu.has_iff {m : Smu} {c : CallId} :
    m.has c = true ↔ (∃ h ∈ m.holds, h.cid = c) ∨ ∃ e ∈ m.waits, e.cid = c := by
  simp [Smu.has, holdOf_isSome_iff, waitOf_isSome_iff]

/-! ### Tests of CLAIM and WAIT -/

/-- A CLAIM is malformed by its width, its alignment, its range or its originator (R6). -/
def ClaimMalformed (x : Byte) (c : CallId) (b w : Nat) : Prop :=
  ¬ (w = 1 ∨ w = 2 ∨ w = 4) ∨ b % w ≠ 0 ∨ 24 < b + w ∨ c.orig ≠ x

/-- A WAIT is malformed by its width or its originator (R26). -/
def WaitMalformed (x : Byte) (c : CallId) (w : Nat) : Prop := ¬ (w = 1 ∨ w = 2 ∨ w = 4) ∨ c.orig ≠ x

section Tests

variable {m : Smu} {x : Byte} {c : CallId} {b w : Nat}

theorem claimTest_of_malformed (h : ClaimMalformed x c b w) : claimTest m x c b w = some .malformed := by
  unfold claimTest
  rcases h with h | h | h | h
  · rw [if_pos (by rw [Bool.not_eq_true', ← Bool.not_eq_true, validWidth_iff]; exact h)]
  all_goals
    split
    · rfl
    · simp [h, Config.channels]

/-- Past its malformed rows the test asks for an item of the call id, then for a channel taken (R6). -/
theorem claimTest_of_wellFormed (h : ¬ ClaimMalformed x c b w) :
    claimTest m x c b w =
      if m.has c then some .duplicate else if blockFree m.holds b w then none else some .notFree := by
  simp only [ClaimMalformed, not_or, not_not, not_lt] at h
  obtain ⟨hw, halign, hrange, horig⟩ := h
  replace hw : w = 1 ∨ w = 2 ∨ w = 4 := by omega
  unfold claimTest
  rw [if_neg (by rw [validWidth_iff.mpr hw]; decide), if_neg (by simp [halign, Config.channels, hrange]),
    if_neg (by simpa using horig)]
  cases hh : (m.holdOf c).isSome <;> cases hwt : (m.waitOf c).isSome <;> cases blockFree m.holds b w <;>
    simp [Smu.has, hh, hwt]

theorem waitTest_of_malformed (h : WaitMalformed x c w) : waitTest m x c w = some .malformed := by
  unfold waitTest
  rcases h with h | h
  · rw [if_pos (by rw [Bool.not_eq_true', ← Bool.not_eq_true, validWidth_iff]; exact h)]
  · split
    · rfl
    · rfl

/-- Past its malformed rows the test asks for an item of the call id, then for a place in the list (R26). -/
theorem waitTest_of_wellFormed (h : ¬ WaitMalformed x c w) :
    waitTest m x c w =
      if m.has c then some .duplicate else if 16 ≤ m.waits.length then some .full else none := by
  simp only [WaitMalformed, not_or, not_not] at h
  obtain ⟨hw, horig⟩ := h
  replace hw : w = 1 ∨ w = 2 ∨ w = 4 := by omega
  unfold waitTest
  rw [if_neg (by rw [validWidth_iff.mpr hw]; decide), if_neg (by simpa using horig)]
  cases hh : (m.holdOf c).isSome <;> cases hwt : (m.waitOf c).isSome <;> simp [Smu.has, hh, hwt, Config.waitCap]

end Tests

/-- Settles O17: past the malformed rows each test is a cascade of two conditions. -/
theorem claimAndWaitTestRows : Obligations.ClaimAndWaitTestRows := by
  unfold Obligations.ClaimAndWaitTestRows
  refine ⟨fun m x c b w => ?_, fun m x c w => ?_⟩
  · intro malformed duplicate held
    have hdup : duplicate ↔ m.has c = true := Smu.has_iff.symm
    have hheld : held ↔ blockFree m.holds b w = false := blockFree_eq_false_iff.symm
    rw [hdup, hheld]
    by_cases hm : malformed
    · simp [hm, claimTest_of_malformed (m := m) hm]
    · rw [claimTest_of_wellFormed (m := m) hm]
      cases m.has c <;> cases blockFree m.holds b w <;> simp [hm]
  · intro malformed duplicate
    have hdup : duplicate ↔ m.has c = true := Smu.has_iff.symm
    rw [hdup]
    by_cases hm : malformed
    · simp [hm, waitTest_of_malformed (m := m) hm]
    · rw [waitTest_of_wellFormed (m := m) hm]
      by_cases hl : 16 ≤ m.waits.length
      · cases m.has c <;> simp [hm, hl]
      · cases m.has c <;> simp [hm, hl, Nat.lt_of_not_le hl]

/-! ### Placement -/

theorem mem_alignedBases {w b : Nat} (hw : 0 < w) : b ∈ alignedBases w ↔ b % w = 0 ∧ b + w ≤ 24 / w * w := by
  unfold alignedBases
  simp only [List.mem_map, List.mem_range, Config.channels]
  constructor
  · rintro ⟨k, hk, rfl⟩
    refine ⟨Nat.mul_mod_left _ _, ?_⟩
    rw [← Nat.succ_mul]
    exact Nat.mul_le_mul_right _ hk
  · rintro ⟨hmod, hle⟩
    have hb : b / w * w = b := Nat.div_mul_cancel (Nat.dvd_of_mod_eq_zero hmod)
    refine ⟨b / w, ?_, hb⟩
    rw [← hb, ← Nat.succ_mul] at hle
    exact Nat.le_of_mul_le_mul_right hle hw

/-- The aligned blocks of a width that is in use end within the channels (R2). -/
theorem mem_alignedBases_of_width {w b : Nat} (hw : w = 1 ∨ w = 2 ∨ w = 4) :
    b ∈ alignedBases w ↔ b % w = 0 ∧ b + w ≤ 24 := by
  rw [mem_alignedBases (by omega)]
  rcases hw with rfl | rfl | rfl <;> rfl

/-- The bases stand in ascending order. -/
theorem pairwise_alignedBases {w : Nat} (hw : 0 < w) : (alignedBases w).Pairwise (· < ·) := by
  unfold alignedBases
  rw [List.pairwise_map]
  exact List.pairwise_lt_range.imp fun h => Nat.mul_lt_mul_of_pos_right h hw

theorem lowestFree_eq_none_iff {hs : List Hold} {w : Nat} (hw : w = 1 ∨ w = 2 ∨ w = 4) :
    lowestFree hs w = none ↔ ∀ b, b % w = 0 → b + w ≤ 24 → blockFree hs b w = false := by
  simp only [lowestFree, Option.map_eq_none_iff, List.find?_eq_none, mem_alignedBases_of_width hw, Bool.not_eq_true,
    and_imp]

/-- A block found is free, aligned and within the channels, and no lower one of its width is free (R4). -/
theorem lowestFree_eq_some {hs : List Hold} {w : Nat} {p : Block} (hw : w = 1 ∨ w = 2 ∨ w = 4)
    (h : lowestFree hs w = some p) :
    p.2 = w ∧ p.1 % w = 0 ∧ p.1 + w ≤ 24 ∧ blockFree hs p.1 w = true
      ∧ ∀ b, b < p.1 → b % w = 0 → blockFree hs b w = false := by
  obtain ⟨b, hb, rfl⟩ := Option.map_eq_some_iff.mp h
  obtain ⟨hfree, pre, post, hsplit, hpre⟩ := List.find?_eq_some_iff_append.mp hb
  have hmem : b ∈ alignedBases w := by rw [hsplit]; simp
  obtain ⟨hmod, hle⟩ := (mem_alignedBases_of_width hw).mp hmem
  refine ⟨rfl, hmod, hle, hfree, fun b' hlt hmod' => ?_⟩
  have hmem' : b' ∈ alignedBases w := (mem_alignedBases_of_width hw).mpr ⟨hmod', by omega⟩
  have hsorted := pairwise_alignedBases (w := w) (by omega)
  rw [hsplit] at hmem' hsorted
  rcases List.mem_append.mp hmem' with hin | hin
  · simpa using hpre b' hin
  · have hge : b ≤ b' := by
      rcases List.mem_cons.mp hin with rfl | hin
      · exact le_refl _
      · exact le_of_lt ((List.pairwise_cons.mp (List.pairwise_append.mp hsorted).2.1).1 b' hin)
    omega

/-- The widths that the placement rule tries, widest first (R4). -/
theorem mem_triedWidths {w k : Nat} :
    k ∈ [4, 2, 1].filter (fun v => decide (v ≤ w)) ↔ (k = 1 ∨ k = 2 ∨ k = 4) ∧ k ≤ w := by
  simp only [List.mem_filter, List.mem_cons, List.not_mem_nil, or_false, decide_eq_true_eq]
  tauto

theorem placement_eq_none_iff {hs : List Hold} {w : Nat} :
    placement hs w = none ↔ ∀ k, (k = 1 ∨ k = 2 ∨ k = 4) → k ≤ w → lowestFree hs k = none := by
  unfold placement
  simp only [List.findSome?_eq_none_iff, mem_triedWidths, and_imp]

/-- The block placed is the lowest free one of its width, and no wider width that was asked for has one (R4). -/
theorem placement_eq_some {hs : List Hold} {w : Nat} {p : Block} (h : placement hs w = some p) :
    ∃ k, (k = 1 ∨ k = 2 ∨ k = 4) ∧ k ≤ w ∧ lowestFree hs k = some p
      ∧ ∀ k', (k' = 1 ∨ k' = 2 ∨ k' = 4) → k < k' → k' ≤ w → lowestFree hs k' = none := by
  obtain ⟨pre, k, post, hsplit, hk, hpre⟩ := List.findSome?_eq_some_iff.mp h
  have hsorted : ([4, 2, 1].filter fun v => decide (v ≤ w)).Pairwise (· > ·) := List.Pairwise.filter _ (by decide)
  have hmem : ∀ v, v ∈ pre ++ k :: post ↔ (v = 1 ∨ v = 2 ∨ v = 4) ∧ v ≤ w := fun v => by
    rw [← hsplit]; exact mem_triedWidths
  obtain ⟨hwidth, hle⟩ := (hmem k).mp (by simp)
  refine ⟨k, hwidth, hle, hk, fun k' hwidth' hlt hle' => ?_⟩
  rcases List.mem_append.mp ((hmem k').mpr ⟨hwidth', hle'⟩) with hin | hin
  · exact hpre k' hin
  · rw [hsplit] at hsorted
    have hpost := (List.pairwise_cons.mp (List.pairwise_append.mp hsorted).2.1).1
    rcases List.mem_cons.mp hin with rfl | hin
    · omega
    · have := hpost k' hin; omega

theorem freeCount_eq_zero_iff {hs : List Hold} : freeCount hs = 0 ↔ ∀ n, n < 24 → channelFree hs n = false := by
  simp [freeCount, List.countP_eq_zero, Config.channels]

theorem blockFree_one {hs : List Hold} {b : Nat} : blockFree hs b 1 = channelFree hs b := by simp [blockFree]

/-- A single free channel is a block, so nothing is found only where no channel is free or none is wanted (R4). -/
theorem placement_eq_none {hs : List Hold} {w : Nat} : placement hs w = none ↔ freeCount hs = 0 ∨ w = 0 := by
  rw [placement_eq_none_iff, freeCount_eq_zero_iff]
  constructor
  · intro h
    rcases Nat.eq_zero_or_pos w with hw | hw
    · exact .inr hw
    · refine .inl fun n hn => ?_
      rw [← blockFree_one]
      exact (lowestFree_eq_none_iff (.inl rfl)).mp (h 1 (.inl rfl) hw) n (Nat.mod_one n) (by omega)
  · rintro (h | rfl) k hk hle
    · rw [lowestFree_eq_none_iff hk]
      exact fun b _ hb => blockFree_eq_false_iff.mpr ⟨b, le_refl _, by omega, h b (by omega)⟩
    · omega

/-! ### The grant scan -/

section Scan

variable {mk : CallId → Block → Hold}

@[simp] theorem scanFrom_nil (hs : List Hold) : scanFrom mk hs [] = ⟨hs, [], []⟩ := rfl

theorem scanFrom_stop {hs : List Hold} {w : WaitEntry} (h : placement hs w.wanted = none) (ws : List WaitEntry) :
    scanFrom mk hs (w :: ws) = ⟨hs, w :: ws, []⟩ := by
  rw [scanFrom, h]

theorem scanFrom_grant {hs : List Hold} {w : WaitEntry} {b : Block} (h : placement hs w.wanted = some b) (ws : List WaitEntry) :
    scanFrom mk hs (w :: ws) =
      { scanFrom mk (insertHold (mk w.cid b) hs) ws with
        grants := ⟨w.cid, b, decide (b.2 < w.wanted)⟩ :: (scanFrom mk (insertHold (mk w.cid b) hs) ws).grants } := by
  rw [scanFrom, h]

/-- A scan over a list of entries, each of which wants a channel: it ends with no entry or no channel left (R30). -/
theorem scanFrom_done (ws : List WaitEntry) : ∀ hs : List Hold, (∀ w ∈ ws, 1 ≤ w.wanted) →
    (scanFrom mk hs ws).waits = [] ∨ freeCount (scanFrom mk hs ws).holds = 0 := by
  induction ws with
  | nil => exact fun hs _ => .inl rfl
  | cons w ws ih =>
    intro hs hw
    cases hp : placement hs w.wanted with
    | none =>
      rw [scanFrom_stop hp]
      have := hw w (by simp)
      exact .inr ((placement_eq_none.mp hp).resolve_right (by omega))
    | some b => rw [scanFrom_grant hp]; exact ih _ fun v hv => hw v (by simp [hv])

/-- The entries granted are the head of the list, in its order (R30). -/
theorem scanFrom_grants_head (ws : List WaitEntry) : ∀ hs : List Hold,
    ∃ done, ws = done ++ (scanFrom mk hs ws).waits ∧ (scanFrom mk hs ws).grants.map NewHold.cid = done.map WaitEntry.cid := by
  induction ws with
  | nil => exact fun hs => ⟨[], rfl, rfl⟩
  | cons w ws ih =>
    intro hs
    cases hp : placement hs w.wanted with
    | none => rw [scanFrom_stop hp]; exact ⟨[], rfl, rfl⟩
    | some b =>
      rw [scanFrom_grant hp]
      obtain ⟨done, hws, hgrants⟩ := ih (insertHold (mk w.cid b) hs)
      exact ⟨w :: done, by rw [List.cons_append, ← hws], by simp [hgrants]⟩

/-- The holds after a scan are those before it and those of its grants (R30). -/
theorem mem_scanFrom_holds (ws : List WaitEntry) : ∀ {hs : List Hold} {h : Hold},
    h ∈ (scanFrom mk hs ws).holds ↔ h ∈ hs ∨ ∃ g ∈ (scanFrom mk hs ws).grants, h = mk g.cid g.block := by
  induction ws with
  | nil => simp
  | cons w ws ih =>
    intro hs h
    cases hp : placement hs w.wanted with
    | none => simp [scanFrom_stop hp]
    | some b =>
      rw [scanFrom_grant hp]
      simp only [ih, mem_insertHold, List.exists_mem_cons_iff]
      tauto

end Scan

/-- Settles O23: the widest width first, and the scan by induction on the entries. -/
theorem placementAndGrantScan : Obligations.PlacementAndGrantScan := by
  unfold Obligations.PlacementAndGrantScan
  refine ⟨fun hs w => ⟨placement_eq_none, fun b k h => ?_⟩, fun mk hs ws _ hw => ?_⟩
  · obtain ⟨v, hv, hle, hlow, hwider⟩ := placement_eq_some h
    obtain ⟨hkv, hmod, hrange, hfree, hlower⟩ := lowestFree_eq_some hv hlow
    obtain rfl : k = v := hkv
    refine ⟨hv, hle, hmod, hrange, hfree, hlower, fun k' b' hk' hlt hle' hmod' hrange' => ?_⟩
    have hk'' : k' = 1 ∨ k' = 2 ∨ k' = 4 := .inr hk'
    exact (lowestFree_eq_none_iff hk'').mp (hwider k' hk'' hlt hle') b' hmod' hrange'
  · exact ⟨scanFrom_done ws hs hw, scanFrom_grants_head ws hs,
      fun g hg => (mem_scanFrom_holds ws).mpr (.inr ⟨g, hg, rfl⟩), fun h hh => (mem_scanFrom_holds ws).mpr (.inl hh)⟩

end Sys2Proof.Machine
end

section
/-! PROOFS. The riser's openings, and the frames that change nothing (R46, R49, R50, R55). -/

namespace Sys2Proof.Machine

/-! ### Openings -/

theorem le_lowestClass {q : List Entry} {k j : Nat} (h : ∀ e ∈ q, k ≤ e.frame.cls) (hj : lowestClass q = some j) : k ≤ j := by
  induction q generalizing j with
  | nil => cases hj
  | cons e q ih =>
    have he := h e (by simp)
    rw [lowestClass] at hj
    cases hq : lowestClass q with
    | none => rw [hq] at hj; cases hj; exact he
    | some i => rw [hq] at hj; cases hj; exact le_min he (ih (fun x hx => h x (by simp [hx])) hq)

/-- The lowest class is that of an entry which none undercuts (R49). -/
theorem lowestClass_append_cons {pre post : List Entry} {e : Entry} (hpre : ∀ x ∈ pre, e.frame.cls ≤ x.frame.cls)
    (hpost : ∀ x ∈ post, e.frame.cls ≤ x.frame.cls) : lowestClass (pre ++ e :: post) = some e.frame.cls := by
  induction pre with
  | nil =>
    rw [List.nil_append, lowestClass]
    cases hq : lowestClass post with
    | none => rfl
    | some j => exact congrArg some (min_eq_left (le_lowestClass hpost hq))
  | cons x pre ih =>
    rw [List.cons_append, lowestClass, ih fun y hy => hpre y (by simp [hy])]
    simp [hpre x (by simp)]

/-- The entry whose carriage starts is the first of its class (R50). -/
theorem startCarriage_append_cons {f : Frame} {e : Entry} {pre rest : List Entry}
    (hpre : ∀ x ∈ pre, x.frame.cls ≠ e.frame.cls) :
    startCarriage f e.frame.cls (pre ++ e :: rest) =
      pre ++ { e with carriage := .carrying, frame := if e.frame.kind = .snapshot then f else e.frame } :: rest := by
  induction pre with
  | nil => simp [startCarriage]
  | cons x pre ih =>
    rw [List.cons_append, startCarriage, if_neg (hpre x (by simp)), ih fun y hy => hpre y (by simp [hy])]
    rfl

/-- The own key wins where no lower key contends (R50). -/
theorem keyWins_iff {k : Nat} {a : Byte} {other : Option ArbKey} :
    keyWins k a other = true ↔ ∀ o, other = some o → k < o.cls.toNat ∨ (k = o.cls.toNat ∧ a ≤ o.addr) := by
  cases other <;> simp [keyWins]

/-- Off the riser, or with no entry that had reached RIF, an opening is no event (R46, R49). -/
theorem exec_opening_idle {s : State} {n : Nat} (h : s.onRiser = false ∨ s.rif.queue.length ≤ n) (other : Option ArbKey) :
    exec (.opening other n) s = .next s := by
  unfold exec execOpening
  rcases h with h | h
  · simp [h]
  · simp [Nat.sub_eq_zero_of_le h, lowestClass]

/-- An opening of a station that may contend, with a candidate's class (R49, R50). -/
theorem exec_opening_candidate {s : State} {n k : Nat} (hr : s.onRiser = true) (hc : s.carrying = none)
    (hk : lowestClass (s.rif.queue.take (s.rif.queue.length - n)) = some k) (other : Option ArbKey) :
    exec (.opening other n) s = .next
      (if keyWins k s.own other then { s with rif := { s.rif with queue := startCarriage s.smu.compose k s.rif.queue } } else s) := by
  unfold exec execOpening
  simp [hr, hc, hk]

/-- Settles O7: the entries that had reached RIF are the queue without its newest, and the candidate is the first of their lowest
class. -/
theorem openingCarriesTheOldestOfTheLowestClass : Obligations.OpeningCarriesTheOldestOfTheLowestClass := by
  unfold Obligations.OpeningCarriesTheOldestOfTheLowestClass
  refine ⟨fun s other n h => exec_opening_idle h other, fun s pre post late e other hr hc hq hpre hpost => ?_⟩
  have hreached : s.rif.queue.take (s.rif.queue.length - late.length) = pre ++ e :: post := by
    rw [hq, List.length_append, Nat.add_sub_cancel, List.take_left]
  have hexec := exec_opening_candidate (n := late.length) hr hc
    (by rw [hreached]; exact lowestClass_append_cons (fun x hx => le_of_lt (hpre x hx)) hpost) other
  rw [hexec]
  refine ⟨fun hwin => ?_, fun o ho hlose => ?_⟩
  · rw [if_pos (keyWins_iff.mpr hwin), hq, List.append_assoc, List.cons_append,
      startCarriage_append_cons fun x hx => Nat.ne_of_gt (hpre x hx), List.append_assoc, List.cons_append]
  · rw [if_neg]
    intro hwin
    have hle := keyWins_iff.mp hwin o ho
    rcases hlose with hlt | ⟨heq, haddr⟩ <;> rcases hle with hlt' | ⟨heq', haddr'⟩
    · omega
    · omega
    · omega
    · exact absurd haddr (by bv_omega)

/-! ### Frames that do nothing -/

/-- A station off the riser takes no frame (R46). -/
theorem taking_offRiser {s : State} (h : s.onRiser = false) (x : Byte) (f : Frame) (learn act : State → State) :
    s.taking x f learn act = s := by
  unfold State.taking; simp [h]

/-- A frame of another station that does not suit reaches no block (R55). -/
theorem taking_unsuited {s : State} {x : Byte} {f : Frame} (hx : x ≠ s.own) (h : validAddr x = false ∨ f.suits = false)
    (learn act : State → State) : s.taking x f learn act = s := by
  have hbad : (validAddr x && f.suits) = false := by rcases h with h | h <;> simp [h]
  unfold State.taking State.deliver
  split
  · rfl
  · split <;> simp [hx, hbad]

/-- A command that takes a frame is a taking of it (R54). -/
theorem exec_takenFrame {c : Instr} {x : Byte} {f : Frame} (h : takenFrame c = some (x, f)) (s : State) :
    ∃ learn act, exec c s = .next (s.taking x f learn act) := by
  cases c <;> cases h <;> exact ⟨_, _, rfl⟩

/-- Settles O9: every command that takes a frame goes through one taking. -/
theorem unsuitedAndUnheardFramesDoNothing : Obligations.UnsuitedAndUnheardFramesDoNothing := by
  unfold Obligations.UnsuitedAndUnheardFramesDoNothing
  refine fun s => ⟨fun x k body hx => ?_, fun hr c x f h => ?_, fun c x f h hx hbad => ?_⟩
  · simp [exec, execUnsuitedFrameTaken, hx]
  · obtain ⟨learn, act, hexec⟩ := exec_takenFrame h s
    rw [hexec, taking_offRiser hr]
  · obtain ⟨learn, act, hexec⟩ := exec_takenFrame h s
    rw [hexec, taking_unsuited hx hbad]

end Sys2Proof.Machine
end

section
/-! PROOFS. The reads of the station port, and a transaction as bytes (R23, R42, R173 to R175, R184, R185). -/

namespace Sys2Proof.Machine

/-! ### Blocks of bytes -/

/-- A list of blocks of one length, read at a byte. -/
theorem getElem?_flatMap_const {α β : Type} {f : α → List β} {k : Nat} (hf : ∀ x, (f x).length = k) {j : Nat} (hj : j < k) :
    ∀ (l : List α) (i : Nat), (l.flatMap f)[k * i + j]? = l[i]?.bind fun x => (f x)[j]? := by
  intro l
  induction l with
  | nil => simp
  | cons x l ih =>
    intro i
    rw [List.flatMap_cons]
    cases i with
    | zero => rw [Nat.mul_zero, Nat.zero_add, List.getElem?_append_left (by rw [hf]; exact hj)]; rfl
    | succ i =>
      rw [Nat.mul_succ, List.getElem?_append_right (by rw [hf]; omega), hf,
        show k * i + k + j - k = k * i + j by omega, ih i]
      rfl

theorem length_flatMap_const {α β : Type} {f : α → List β} {k : Nat} (hf : ∀ x, (f x).length = k) (l : List α) :
    (l.flatMap f).length = k * l.length := by
  induction l with
  | nil => rfl
  | cons x l ih => rw [List.flatMap_cons, List.length_append, hf, ih, List.length_cons, Nat.mul_succ]; omega

@[simp] theorem length_wordBytes (u : BitVec 16) : (wordBytes u).length = 2 := rfl

@[simp] theorem length_ageBytes (s : State) (a : Stamp) : (s.ageBytes a).length = 2 := rfl

theorem callField_eq (c : Option CallId) : callField c = [(c.map CallId.orig).getD 0#8, (c.map CallId.seq).getD 0#8] := by
  cases c <;> rfl

/-! ### READ_SLOTS -/

/-- The bytes of the channel entries in READ_SLOTS (R23). -/
def channelBytes (hs : List Hold) : List Byte := (List.range 24).flatMap fun n => callField (holderOf hs n)

/-- The bytes of the hold records in READ_SLOTS (R23). -/
def State.holdBytes (s : State) : List Byte :=
  s.smu.holds.flatMap fun h => [byte h.base, byte h.width, h.cid.orig, h.cid.seq] ++ s.ageBytes h.age

theorem slotBytes_eq (s : State) :
    s.slotBytes = byte (freeCount s.smu.holds) :: (channelBytes s.smu.holds ++ byte s.smu.holds.length :: s.holdBytes) := rfl

theorem length_channelBytes (hs : List Hold) : (channelBytes hs).length = 48 :=
  length_flatMap_const (k := 2) (fun n => by rw [callField_eq]; rfl) _

theorem length_holdBytes (s : State) : s.holdBytes.length = 6 * s.smu.holds.length :=
  length_flatMap_const (fun h => by simp) _

/-- The entry of channel n takes two bytes (R23). -/
theorem channelBytes_getElem? (hs : List Hold) {n j : Nat} (hn : n < 24) (hj : j < 2) :
    (channelBytes hs)[2 * n + j]? = (callField (holderOf hs n))[j]? := by
  rw [channelBytes, getElem?_flatMap_const (k := 2) (fun n => by rw [callField_eq]; rfl) hj, List.getElem?_range hn]
  rfl

/-- A byte of the channel entries as READ_SLOTS carries it, behind the free count. -/
theorem slotBytes_channel (s : State) {n j : Nat} (hn : n < 24) (hj : j < 2) :
    s.slotBytes[1 + j + 2 * n]? = (callField (holderOf s.smu.holds n))[j]? := by
  rw [slotBytes_eq, show 1 + j + 2 * n = 2 * n + j + 1 by omega, List.getElem?_cons_succ,
    List.getElem?_append_left (by rw [length_channelBytes]; omega), channelBytes_getElem? _ hn hj]

theorem slotBytes_count (s : State) : s.slotBytes[49]? = some (byte s.smu.holds.length) := by
  rw [slotBytes_eq, List.getElem?_cons_succ, List.getElem?_append_right (by rw [length_channelBytes]), length_channelBytes]
  rfl

theorem slotBytes_drop (s : State) : s.slotBytes.drop 50 = s.holdBytes := by
  rw [slotBytes_eq, List.drop_succ_cons, List.drop_append, length_channelBytes,
    List.drop_eq_nil_of_le (by rw [length_channelBytes]; omega)]
  rfl

/-! ### READ_WAITS -/

/-- The seven bytes of a wait entry at a position (R42). -/
def State.waitEntryBytes (s : State) (n : Nat) (w : WaitEntry) : List Byte :=
  [byte n] ++ w.cid.bytes ++ [byte w.wanted] ++ s.ageBytes w.age ++ [w.audit.code]

theorem waitBytes_cons (s : State) (n : Nat) (w : WaitEntry) (ws : List WaitEntry) :
    s.waitBytes n (w :: ws) = s.waitEntryBytes n w ++ s.waitBytes (n + 1) ws := rfl

@[simp] theorem length_waitEntryBytes (s : State) (n : Nat) (w : WaitEntry) : (s.waitEntryBytes n w).length = 7 := rfl

theorem length_waitBytes (s : State) (ws : List WaitEntry) : ∀ n, (s.waitBytes n ws).length = 7 * ws.length := by
  induction ws with
  | nil => exact fun _ => rfl
  | cons w ws ih =>
    intro n
    rw [waitBytes_cons, List.length_append, ih, length_waitEntryBytes, List.length_cons]
    omega

theorem waitBytes_append (s : State) (old new : List WaitEntry) :
    ∀ n, s.waitBytes n (old ++ new) = s.waitBytes n old ++ s.waitBytes (n + old.length) new := by
  induction old with
  | nil => exact fun _ => rfl
  | cons w ws ih =>
    intro n
    rw [List.cons_append, waitBytes_cons, waitBytes_cons, ih, List.append_assoc, List.length_cons,
      show n + 1 + ws.length = n + (ws.length + 1) by omega]

/-- The bytes of one wait entry among those of the list (R42). -/
theorem waitBytes_entry (s : State) (n : Nat) (old new : List WaitEntry) (w : WaitEntry) :
    ((s.waitBytes n (old ++ w :: new)).drop (7 * old.length)).take 7 = s.waitEntryBytes (n + old.length) w := by
  rw [waitBytes_append, List.drop_left' (length_waitBytes s old n), waitBytes_cons, List.take_left' (length_waitEntryBytes _ _ _)]

/-- The bytes are those of the state before the transaction opened. -/
theorem waitBytes_openTransaction (s : State) (ws : List WaitEntry) : ∀ n, s.openTransaction.waitBytes n ws = s.waitBytes n ws := by
  induction ws with
  | nil => exact fun _ => rfl
  | cons w ws ih => intro n; rw [waitBytes_cons, waitBytes_cons, ih]; rfl

/-- The answer of READ_WAITS (R42). -/
def State.waitsAnswer (s : State) : List Byte :=
  byte s.smu.waits.length :: (s.waitBytes 1 s.smu.waits ++ callField s.queuedReclaim)

theorem exec_readWaits (s : State) : exec (.readWaits []) s = .next (s.respond .accepted s.waitsAnswer .nothing) := by
  unfold State.waitsAnswer
  rw [← waitBytes_openTransaction]
  rfl

theorem waitsAnswer_entry {s : State} {old new : List WaitEntry} {w : WaitEntry} (h : s.smu.waits = old ++ w :: new) :
    (s.waitsAnswer.drop (1 + 7 * old.length)).take 7 = s.waitEntryBytes (old.length + 1) w := by
  have hlen := length_waitBytes s s.smu.waits 1
  have hentry := waitBytes_entry s 1 old new w
  rw [h, List.length_append, List.length_cons] at hlen
  rw [State.waitsAnswer, Nat.add_comm 1 (7 * _), List.drop_succ_cons, h, List.drop_append_of_le_length (by omega),
    List.take_append_of_le_length (by rw [List.length_drop]; omega), hentry, Nat.add_comm]

theorem waitsAnswer_reclaim (s : State) : s.waitsAnswer.drop (1 + 7 * s.smu.waits.length) = callField s.queuedReclaim := by
  rw [State.waitsAnswer, Nat.add_comm 1 (7 * _), List.drop_succ_cons, List.drop_left' (length_waitBytes _ _ _)]

theorem queuedReclaim_none {s : State} (h : ∀ x ∈ s.rif.queue, x.frame.kind ≠ .reclaim) : s.queuedReclaim = none := by
  rw [State.queuedReclaim, List.findSome?_eq_none_iff]
  intro x hx
  have := h x hx
  cases hf : x.frame <;> simp_all [Frame.kind]

theorem queuedReclaim_some {s : State} {pre post : List Entry} {x : Entry} {c : CallId} (hq : s.rif.queue = pre ++ x :: post)
    (hpre : ∀ y ∈ pre, y.frame.kind ≠ .reclaim) (hx : x.frame = .reclaim c) : s.queuedReclaim = some c := by
  rw [State.queuedReclaim, List.findSome?_eq_some_iff]
  refine ⟨pre, x, post, hq, by rw [hx], fun y hy => ?_⟩
  have := hpre y hy
  cases hf : y.frame <;> simp_all [Frame.kind]

/-! ### READ_CONTEXT -/

theorem refOf_none {b : Byte} (h : 4 ≤ b.toNat) : refOf b = none := dif_neg (by omega)

theorem refOf_some {b : Byte} {i : Ref} (h : i.val = b.toNat) : refOf b = some i := by
  unfold refOf
  rw [dif_pos (by omega)]
  exact congrArg some (Fin.ext h.symm)

/-- READ_CONTEXT answers the bytes of the context named (R185). -/
theorem exec_readContext {b : Byte} {i : Ref} (h : i.val = b.toNat) (s : State) :
    exec (.readContext [b]) s = .next (s.respond .accepted (s.contextBytes i) .nothing) := by
  simp [exec, execReadContext, State.serve, refOf_some h]
  rfl

/-- READ_CONTEXT of a byte that names no context (R176). -/
theorem exec_readContext_badRef {b : Byte} (h : 4 ≤ b.toNat) (s : State) :
    exec (.readContext [b]) s = .next (s.reply .badRef) := by
  simp [exec, execReadContext, State.serve, refOf_none h]
  rfl

theorem contextBytes_free {s : State} {i : Ref} (h : s.ctx i = none) : s.contextBytes i = List.replicate 32 0#8 := by
  rw [State.contextBytes, h]

/-- The timers of a context with their codes (R185). -/
def Ctx.timers (y : Ctx) : List (Byte × Timer) :=
  [(1#8, y.ring), (2#8, y.wait), (3#8, y.talk), (4#8, y.alert), (5#8, y.pathWait)]

theorem running_eq (y : Ctx) : y.running = y.timers.findSome? fun p => p.2.map fun e => (p.1, e) := rfl

theorem running_none {y : Ctx} (h : ∀ p ∈ y.timers, p.2 = none) : y.running = none := by
  rw [running_eq, List.findSome?_eq_none_iff]
  intro p hp
  rw [h p hp]
  rfl

/-- The codes tell the timers apart. -/
theorem timers_codes (y : Ctx) : (y.timers.map Prod.fst).Nodup := by
  simp [Ctx.timers]

/-- The one timer that runs is the one reported (R185). -/
theorem running_some {y : Ctx} {code : Byte} {e : Nat} (h : (code, some e) ∈ y.timers)
    (hother : ∀ p ∈ y.timers, p.1 ≠ code → p.2 = none) : y.running = some (code, e) := by
  obtain ⟨pre, post, hsplit⟩ := List.append_of_mem h
  have hcodes := timers_codes y
  rw [running_eq, List.findSome?_eq_some_iff]
  refine ⟨pre, (code, some e), post, hsplit, rfl, fun p hp => ?_⟩
  have hne : p.1 ≠ code := by
    rw [hsplit, List.map_append, List.nodup_append] at hcodes
    exact hcodes.2.2 p.1 (List.mem_map_of_mem hp) code (by simp)
  rw [hother p (by rw [hsplit]; simp [hp]) hne]
  rfl

/-! ### Bytes of a transaction -/

theorem transactionOf_request {fs : List Byte} (h : fs.length < 256) (code : Byte) (rest : List Byte) :
    transactionOf (code :: byte fs.length :: fs ++ rest) = requestOf code fs := by
  have hlen : (byte fs.length).toNat = fs.length := by simp [byte, Nat.mod_eq_of_lt h]
  simp [transactionOf, hlen]

theorem transactionOf_short {fs : List Byte} {len : Byte} (h : fs.length < len.toNat) (code : Byte) :
    transactionOf (code :: len :: fs) = .transactionDiscarded := by
  rw [transactionOf, if_neg (by omega)]

theorem transactionOf_start {fs : List Byte} (h : fs.length < 2) : transactionOf fs = .transactionDiscarded := by
  match fs, h with
  | [], _ => rfl
  | [_], _ => rfl

/-- Each code of the table names its request (R175). -/
theorem requestOf_known (fs : List Byte) {code : Byte} {cmd : Instr}
    (h : (code, cmd) ∈ [(0x01#8, Instr.configure fs), (0x02#8, .join fs), (0x03#8, .restart fs), (0x10#8, .dial fs),
          (0x11#8, .answer fs), (0x12#8, .hangup fs), (0x13#8, .openDoor fs), (0x20#8, .setDnd fs), (0x21#8, .clearFault fs),
          (0x22#8, .purge fs), (0x30#8, .readNotice fs), (0x31#8, .readStatus fs), (0x32#8, .readSlots fs),
          (0x33#8, .readWaits fs), (0x34#8, .readLine fs), (0x35#8, .readContext fs)]) : requestOf code fs = cmd := by
  simp only [List.mem_cons, List.not_mem_nil, or_false, Prod.mk.injEq] at h
  rcases h with h | h | h | h | h | h | h | h | h | h | h | h | h | h | h | h <;> obtain ⟨rfl, rfl⟩ := h <;> rfl

section Sdo

variable {s : State} {a : Answer} {tail : Tail} (h : s.sport.transaction = some ⟨a, tail⟩) (len : Nat)
include h

theorem sdo_eq (n : Nat) : s.sdo len n = a.sdo len n := by rw [State.sdo, h]

/-- SDO carries 00h through the request phase and the turnaround byte (R173). -/
theorem sdo_before {n : Nat} (hn : n < 3 + len) : s.sdo len n = 0#8 := by
  rw [sdo_eq h, Answer.sdo, if_pos (by omega)]

/-- Then it carries the answer record, and 00h after it (R173). -/
theorem sdo_answer (k : Nat) : s.sdo len (3 + len + k) = a.bytes.getD k 0#8 := by
  rw [sdo_eq h, Answer.sdo, if_neg (by omega), show 3 + len + k - (2 + len + 1) = k by omega]

end Sdo

theorem sdo_none {s : State} (h : s.sport.transaction = none) (len n : Nat) : s.sdo len n = 0#8 := by rw [State.sdo, h]

/-- Settles O52: each read through the bytes it answers, then the transaction's bytes. -/
theorem readsAnswerTheStateAsItStands : Obligations.ReadsAnswerTheStateAsItStands := by
  unfold Obligations.ReadsAnswerTheStateAsItStands
  refine ⟨fun s => ⟨rfl, ?_, ?_, fun b hb => ?_, fun b i hi hc => ?_, fun b i y hi hc => ?_⟩, fun fs => ?_, ?_,
    fun s len n h => sdo_none h len n⟩
  · refine ⟨s.slotBytes, rfl, ?_, rfl, fun n hn => ⟨?_, ?_⟩, slotBytes_count s, slotBytes_drop s⟩
    · simp only [slotBytes_eq, List.length_cons, List.length_append, length_channelBytes, length_holdBytes]
      omega
    · rw [show 1 + 2 * n = 1 + 0 + 2 * n by omega, slotBytes_channel s hn (by omega), callField_eq]; rfl
    · rw [show 2 + 2 * n = 1 + 1 + 2 * n by omega, slotBytes_channel s hn (by omega), callField_eq]; rfl
  · refine ⟨s.waitsAnswer, exec_readWaits s, ?_, rfl, fun old w new hw => ?_, fun h => ?_, fun pre x post c hq hpre hx => ?_⟩
    · simp only [State.waitsAnswer, List.length_cons, List.length_append, length_waitBytes, callField_eq, List.length_nil]
      omega
    · rw [waitsAnswer_entry hw, State.waitEntryBytes]
      cases w.audit <;> rfl
    · rw [waitsAnswer_reclaim, queuedReclaim_none h]; rfl
    · rw [waitsAnswer_reclaim, queuedReclaim_some hq hpre hx]; rfl
  · exact exec_readContext_badRef hb s
  · rw [exec_readContext hi, contextBytes_free hc]
  · refine ⟨s.timerBytes y, ?_, fun h => ?_, fun code e h hother => ?_⟩
    · rw [exec_readContext hi, State.contextBytes, hc]; rfl
    · rw [State.timerBytes, running_none h]
    · rw [State.timerBytes, running_some h hother]
  · exact ⟨fun code cmd h => requestOf_known fs h, fun code h => (requestOf_unknown code fs).mpr h,
      fun code rest h => transactionOf_request h code rest, fun code len h => transactionOf_short h code, transactionOf_start⟩
  · intro s a tail len h
    exact ⟨fun n hn => sdo_before h len hn, sdo_answer h len 0,
      by rw [show 4 + len = 3 + len + 1 by omega, sdo_answer h]; rfl,
      fun k => by rw [show 5 + len + k = 3 + len + (k + 2) by omega, sdo_answer h]; rfl⟩

end Sys2Proof.Machine
end

section
/-! PROOFS. What an operation at one context leaves alone at another, in the chain form of Laws/Calm.lean: `Spares ks j a t`. -/

namespace Sys2Proof.Machine

/-- From a to t context j, its path record and its place in the alerting set stand as they stood; recalls were asked at most, and
frames queued of kinds in `ks` alone. -/
structure Spares (ks : FrameKind → Prop) (j : Ref) (a t : State) : Prop where
  ctx : t.ctx j = a.ctx j
  record : t.path.record j = a.path.record j
  alerting : t.oku.alerting[j] = a.oku.alerting[j]
  recalls : a.rif.recalls <+: t.rif.recalls
  queue : ∃ fs : List Frame, t.rif.queue = a.rif.queue ++ fs.map Entry.fresh ∧ ∀ f ∈ fs, ks f.kind

/-! ### Contexts, records and alerting places -/

@[simp] theorem ctx_post (s : State) (n : Notice) (j : Ref) : (s.post n).ctx j = s.ctx j := State.ctx_congr (by simp) j
@[simp] theorem ctx_queueFrame (s : State) (f : Frame) (j : Ref) : (s.queueFrame f).ctx j = s.ctx j :=
  State.ctx_congr (by simp) j
@[simp] theorem ctx_askRecall (s : State) (id : FrameId) (j : Ref) : (s.askRecall id).ctx j = s.ctx j :=
  State.ctx_congr (by simp) j
@[simp] theorem ctx_cutPath (s : State) (i j : Ref) : (s.cutPath i).ctx j = s.ctx j := rfl
@[simp] theorem ctx_setAlerting (s : State) (i j : Ref) (b : Bool) : (s.setAlerting i b).ctx j = s.ctx j := rfl
@[simp] theorem ctx_setDoor (s : State) (i j : Ref) (t : Timer) : (s.setDoor i t).ctx j = s.ctx j := rfl

@[simp] theorem Oku.followAlerting_alerting (o : Oku) (now : Nat) : (o.followAlerting now).alerting = o.alerting := by
  unfold Oku.followAlerting; split
  · split <;> rfl
  · rfl

/-- A place of the alerting set is set, and every other one stands (R169). -/
theorem alerting_setAlerting (s : State) (i j : Ref) (b : Bool) :
    (s.setAlerting i b).oku.alerting[j] = if j = i then b else s.oku.alerting[j] := by
  simp only [State.setAlerting, Oku.followAlerting_alerting]
  by_cases h : j = i
  · subst h; simp
  · simp [h, Vector.getElem_set_ne, Fin.val_ne_of_ne (Ne.symm h)]

@[simp] theorem Path.record_remove (p : Path) (i j : Ref) :
    (p.remove i).record j = if j = i then none else p.record j := by
  unfold Path.remove
  cases h : p.record i with
  | none => by_cases hj : j = i <;> simp [hj, h]
  | some r => dsimp only; split <;> simp

/-! ### The chain -/

variable {ks : FrameKind → Prop} {i j : Ref} {a s : State}

theorem Spares.refl (j : Ref) (a : State) : Spares ks j a a :=
  ⟨rfl, rfl, rfl, List.prefix_refl _, [], by simp, by simp⟩

theorem Spares.trans {t : State} (h : Spares ks j a s) (k : Spares ks j s t) : Spares ks j a t := by
  obtain ⟨fs, hq, hfs⟩ := h.queue
  obtain ⟨gs, hr, hgs⟩ := k.queue
  refine ⟨k.ctx.trans h.ctx, k.record.trans h.record, k.alerting.trans h.alerting, h.recalls.trans k.recalls, fs ++ gs, ?_, ?_⟩
  · rw [hr, hq, List.map_append, List.append_assoc]
  · exact fun f hf => (List.mem_append.mp hf).elim (hfs f) (hgs f)

/-- An update that leaves RIF's queue and recalls alone. -/
theorem Spares.of_rif {t : State} (h : Spares ks j a s) (hc : t.ctx j = s.ctx j) (hp : t.path.record j = s.path.record j)
    (ha : t.oku.alerting[j] = s.oku.alerting[j]) (hr : t.rif = s.rif) : Spares ks j a t :=
  h.trans ⟨hc, hp, ha, by rw [hr], [], by simp [hr], by simp⟩

theorem Spares.setCtx (h : Spares ks j a s) (hij : j ≠ i) (c : Option Ctx) : Spares ks j a (s.setCtx i c) :=
  h.of_rif (by simp [hij]) rfl rfl rfl

theorem Spares.modifyCtx (h : Spares ks j a s) (hij : j ≠ i) (f : Ctx → Ctx) : Spares ks j a (s.modifyCtx i f) :=
  h.of_rif (by simp [State.ctx_modifyCtx, hij]) (by simp) (by simp) (by simp)

theorem Spares.post (h : Spares ks j a s) (n : Notice) : Spares ks j a (s.post n) :=
  h.of_rif (by simp) (by simp) (by simp) (by simp)

theorem Spares.queueFrame (h : Spares ks j a s) (f : Frame) (hf : ks f.kind) : Spares ks j a (s.queueFrame f) := by
  refine h.trans ⟨by simp, by simp, by simp, by simp, ?_⟩
  rw [queueFrame_queue]
  split
  · exact ⟨[f], rfl, by simpa using hf⟩
  · exact ⟨[], by simp, by simp⟩

theorem askRecall_recalls_prefix (s : State) (id : FrameId) : s.rif.recalls <+: (s.askRecall id).rif.recalls := by
  rw [askRecall_recalls]; split
  · exact List.prefix_append _ _
  · exact List.prefix_refl _

theorem Spares.askRecall (h : Spares ks j a s) (id : FrameId) : Spares ks j a (s.askRecall id) :=
  h.trans ⟨by simp, by simp, by simp, askRecall_recalls_prefix s id, [], by simp, by simp⟩

theorem Spares.withUdir (h : Spares ks j a s) (d : Udir) : Spares ks j a { s with udir := d } := h.of_rif rfl rfl rfl rfl

theorem Spares.leaveSeek (h : Spares ks j a s) (i : Ref) : Spares ks j a (s.leaveSeek i) := by
  unfold State.leaveSeek; split
  · dsimp only; split
    · split
      · exact (h.withUdir _).askRecall _
      · exact h.withUdir _
    · exact h.withUdir _
  · exact h

theorem Spares.setAlerting (h : Spares ks j a s) (hij : j ≠ i) (b : Bool) : Spares ks j a (s.setAlerting i b) :=
  h.of_rif rfl rfl (by rw [alerting_setAlerting, if_neg hij]) rfl

theorem Spares.setDoor (h : Spares ks j a s) (i : Ref) (t : Timer) : Spares ks j a (s.setDoor i t) := h.of_rif rfl rfl rfl rfl

/-! ### PATH -/

theorem Spares.withPath (h : Spares ks j a s) {p : Path} (hp : p.record j = s.path.record j) :
    Spares ks j a { s with path := p } := h.of_rif rfl hp rfl rfl

theorem Spares.postPath (h : Spares ks j a s) (i : Ref) (b : Bool) : Spares ks j a (s.postPath i b) := by
  unfold State.postPath; split
  · exact h.post _
  · exact h

theorem Spares.reckonOwner (h : Spares ks j a s) : Spares ks j a s.reckonOwner := by
  have hp : ∀ o, Spares ks j a { s with path := s.path.changeOwner o } := fun o => h.withPath (by simp)
  unfold State.reckonOwner; dsimp only
  repeat' split
  · exact h
  · exact (hp _).postPath _ _
  · exact hp _
  · exact hp _
  · exact hp _

theorem Spares.startSettle (h : Spares ks j a s) (hij : j ≠ i) (x : Side) (b : Block) (t : Bool) :
    Spares ks j a (s.startSettle i x b t) :=
  Spares.reckonOwner (h.withPath (by simp [hij]))

theorem Spares.cutPath (h : Spares ks j a s) (hij : j ≠ i) : Spares ks j a (s.cutPath i) :=
  h.withPath (by simp [hij])

theorem Spares.teardown (h : Spares ks j a s) (hij : j ≠ i) : Spares ks j a (s.teardown i) := by
  unfold State.teardown
  cases s.path.record i with
  | none => exact h
  | some r =>
    dsimp only; split
    · exact (h.cutPath hij).reckonOwner
    · exact Spares.reckonOwner (h.withPath (by simp [hij]))

/-! ### Ending and clearing -/

theorem Spares.dropDuties (h : Spares ks j a s) (hij : j ≠ i) : Spares ks j a (s.dropDuties i) :=
  ((h.leaveSeek i).setAlerting hij false).setDoor i none

theorem Spares.postEnd (h : Spares ks j a s) (hij : j ≠ i) : Spares ks j a (s.postEnd i) := by
  unfold State.postEnd; split
  · split
    · exact h
    · exact (h.post _).setCtx hij _
  · exact h

theorem Spares.freeCtx (h : Spares ks j a s) (hij : j ≠ i) : Spares ks j a (s.freeCtx i) := (h.postEnd hij).setCtx hij none

theorem Spares.endNow (h : Spares ks j a s) (hij : j ≠ i) (x : Cause) : Spares ks j a (s.endNow i x) :=
  ((h.modifyCtx hij _).dropDuties hij).freeCtx hij

theorem Spares.enterClearing (h : Spares ks j a s) (hij : j ≠ i) (x : Cause) (final : Bool) :
    Spares ks j a (s.enterClearing i x final) := by
  unfold State.enterClearing; dsimp only; split
  · exact ((h.modifyCtx hij _).dropDuties hij).postEnd hij
  · exact (h.modifyCtx hij _).dropDuties hij

theorem Spares.setAwaits (h : Spares ks j a s) (hij : j ≠ i) (w : Awaits) : Spares ks j a (s.setAwaits i w) := h.modifyCtx hij _

theorem Spares.makeFinal (h : Spares ks j a s) (hij : j ≠ i) : Spares ks j a (s.makeFinal i) := h.modifyCtx hij _

theorem Spares.supersede (h : Spares ks j a s) (hij : j ≠ i) : Spares ks j a (s.supersede i) := h.modifyCtx hij _

theorem Spares.recallCall (h : Spares ks j a s) (c : CallId) : Spares ks j a (s.recallCall c) :=
  ((h.askRecall _).askRecall _).askRecall _

theorem Spares.awaitAnswerRecall (h : Spares ks j a s) (hij : j ≠ i) (c : CallId) : Spares ks j a (s.awaitAnswerRecall i c) := by
  unfold State.awaitAnswerRecall; split
  · exact (h.askRecall _).setAwaits hij _
  · exact h.freeCtx hij

theorem Spares.endAnswer (h : Spares ks j a s) (hij : j ≠ i) (x : Cause) : Spares ks j a (s.endAnswer i x) := by
  unfold State.endAnswer; split
  · split
    · exact ((h.enterClearing hij x true).modifyCtx hij _).awaitAnswerRecall hij _
    · exact h
    · exact ((h.cutPath hij).endNow hij x).reckonOwner
  · exact h

theorem Spares.endOrigin (h : Spares ks j a s) (hij : j ≠ i) (x : Cause) : Spares ks j a (s.endOrigin i x) := by
  unfold State.endOrigin; split
  · rename_i c _
    have h1 := (((h.enterClearing hij x true).cutPath hij).recallCall c.cid).reckonOwner
    dsimp only; split
    · exact h1.setAwaits hij _
    · exact h1.freeCtx hij
  · exact h

theorem Spares.callState (h : Spares ks j a s) (i : Ref) (d : CallDetail) : Spares ks j a (s.callState i d) := by
  unfold State.callState; split
  · exact h.post _
  · exact h

theorem Spares.enterWaiting (h : Spares ks j a s) (hij : j ≠ i) (p : Nat) : Spares ks j a (s.enterWaiting i p) :=
  (h.modifyCtx hij _).callState i _

theorem Spares.askReversal (h : Spares ks j a s) (hij : j ≠ i) : Spares ks j a (s.askReversal i) := by
  unfold State.askReversal; split
  · split
    · exact h.askRecall _
    · exact h.makeFinal hij
  · exact h

theorem Spares.reclaimAt (h : Spares ks j a s) (hij : j ≠ i) (c : Ctx) : Spares ks j a (s.reclaimAt i c) := by
  unfold State.reclaimAt; split
  · exact h.makeFinal hij
  · exact h.endOrigin hij _
  · exact h.supersede hij
  · exact h.endAnswer hij _

theorem Spares.releaseAt (h : Spares ks j a s) (hij : j ≠ i) (c : Ctx) (own : Bool) (x : Byte) :
    Spares ks j a (s.releaseAt i c own x) := by
  unfold State.releaseAt
  repeat' split
  · exact h.freeCtx hij
  · exact h.makeFinal hij
  · exact h
  · exact h.endOrigin hij _
  · exact h.freeCtx hij
  · exact h.supersede hij
  · exact h.endAnswer hij _
  · exact h.endAnswer hij _
  · exact h
  · exact h.endAnswer hij _

theorem Spares.outcomeAtAnswer (h : Spares ks j a s) (hij : j ≠ i) (c : Ctx) : Spares ks j a (s.outcomeAtAnswer i c) := by
  unfold State.outcomeAtAnswer; split
  · exact h.endAnswer hij _
  · exact h.endAnswer hij _
  · exact h.supersede hij
  · exact h

/-! ### Operations that may queue a RELEASE -/

section Releases

variable (hr : ks .release)
include hr

theorem Spares.queueRelease (h : Spares ks j a s) (hij : j ≠ i) : Spares ks j a (s.queueRelease i) := by
  unfold State.queueRelease; split
  · dsimp only; split
    · exact (h.queueFrame (.release _ _) hr).setAwaits hij _
    · exact (h.post _).freeCtx hij
  · exact h

theorem Spares.sendRelease (h : Spares ks j a s) (hij : j ≠ i) : Spares ks j a (s.sendRelease i) := by
  unfold State.sendRelease; split
  · repeat' split
    · exact h.queueRelease hr hij
    · exact h.setAwaits hij _
    · exact h.freeCtx hij
  · exact h

theorem Spares.teardownThenRelease (h : Spares ks j a s) (hij : j ≠ i) : Spares ks j a (s.teardownThenRelease i) := by
  unfold State.teardownThenRelease; split
  · exact (h.teardown hij).sendRelease hr hij
  · exact (h.teardown hij).setAwaits hij _

theorem Spares.clearOrigin (h : Spares ks j a s) (hij : j ≠ i) (x : Cause) (final : Bool) :
    Spares ks j a (s.clearOrigin i x final) := by
  unfold State.clearOrigin; split
  · rename_i c _
    have h1 := (h.enterClearing hij x final).recallCall c.cid
    dsimp only; split
    · exact h1.teardownThenRelease hr hij
    · exact h1.sendRelease hr hij
  · exact h

theorem Spares.clearAnswer (h : Spares ks j a s) (hij : j ≠ i) (x : Cause) : Spares ks j a (s.clearAnswer i x) := by
  unfold State.clearAnswer; split
  · split
    · exact (h.enterClearing hij x true).awaitAnswerRecall hij _
    · exact (h.enterClearing hij x true).teardownThenRelease hr hij
    · exact (h.enterClearing hij x true).teardownThenRelease hr hij
    · exact (h.enterClearing hij x true).queueRelease hr hij
    · exact h.endNow hij x
    · exact h
  · exact h

theorem Spares.clearCall (h : Spares ks j a s) (hij : j ≠ i) (x : Cause) : Spares ks j a (s.clearCall i x) := by
  unfold State.clearCall; split
  · split
    · exact h.clearOrigin hr hij x true
    · exact h.clearAnswer hr hij x
  · exact h

theorem Spares.enterSettling (h : Spares ks j a s) (hij : j ≠ i) (b : Block) (t : Bool) :
    Spares ks j a (s.enterSettling i b t) := by
  unfold State.enterSettling
  cases s.ctx i with
  | none => exact h
  | some c =>
    have h1 := (h.setCtx hij (some { c.stopTimers with state := .settling, path := some b, trimmed := t })).callState i
      (.settling b.1 b.2 t)
    dsimp only; split
    · exact h1
    · split
      · exact h1.startSettle hij _ _ _
      · exact h1.clearCall hr hij _

theorem Spares.settleOn (h : Spares ks j a s) (hij : j ≠ i) (b : Block) : Spares ks j a (s.settleOn i b) := by
  unfold State.settleOn; split
  · exact h.enterSettling hr hij b _
  · exact h

theorem Spares.newHoldAt (h : Spares ks j a s) (hij : j ≠ i) (c : Ctx) (n : NewHold) : Spares ks j a (s.newHoldAt i c n) := by
  unfold State.newHoldAt; split
  · exact h.enterSettling hr hij _ _
  · exact h.enterSettling hr hij _ _
  · exact h.settleOn hr hij _
  · dsimp only; split
    · exact (h.modifyCtx hij _).askReversal hij
    · exact h.modifyCtx hij _
  · exact h

theorem Spares.reportAt (h : Spares ks j a s) (hij : j ≠ i) (r : Report) (c : Ctx) : Spares ks j a (State.reportAt r s i c) := by
  unfold State.reportAt; repeat' split
  · exact h.releaseAt hij c _ _
  · exact h.reclaimAt hij c
  · exact h.newHoldAt hr hij c _
  · exact h

theorem Spares.settleCtx (h : Spares ks j a s) (hij : j ≠ i) (c : Ctx) : Spares ks j a (s.settleCtx i c) := by
  unfold State.settleCtx; dsimp only
  split
  · split
    · exact h
    · exact h.clearCall hr hij _
  · split
    · exact h
    · exact h.clearCall hr hij _
  · split
    · exact ((h.askRecall _).askRecall _).settleOn hr hij _
    · exact ((h.askRecall _).askRecall _).enterWaiting hij _
    · exact h
  · split
    · exact h.settleOn hr hij _
    · exact h
    · exact h.clearCall hr hij _
  · split
    · exact h.settleOn hr hij _
    · exact h
  · split
    · exact h.modifyCtx hij _
    · exact h
  · exact h

/-! ### Operations that may queue a CLAIM or a WAIT -/

section Chooses

variable (hc : ks .claim) (hw : ks .wait)
include hw

theorem Spares.queueWait (h : Spares ks j a s) (hij : j ≠ i) : Spares ks j a (s.queueWait i) := by
  unfold State.queueWait; split
  · dsimp only; split
    · exact h.queueFrame (.wait _ _) hw
    · exact h.clearOrigin hr hij _ _
  · exact h

include hc

theorem Spares.chooseFrame (n : Nat) : ∀ {s : State}, Spares ks j a s → j ≠ i → Spares ks j a (State.chooseFrame n s i) := by
  induction n with
  | zero => intro s h hij; exact h.queueWait hr hw hij
  | succ n ih =>
    intro s h hij
    unfold State.chooseFrame
    cases s.ctx i with
    | none => exact h
    | some c =>
      dsimp only
      repeat' split
      · exact h.settleOn hr hij _
      · exact h.enterWaiting hij _
      · exact h.queueFrame (.claim _ _ _) hc
      · exact ih (h.setCtx hij _) hij
      · exact (h.setCtx hij _).queueWait hr hw hij
      · exact h.queueWait hr hw hij

theorem Spares.claimFailed (h : Spares ks j a s) (hij : j ≠ i) (r : ClaimReason) : Spares ks j a (s.claimFailed i r) := by
  unfold State.claimFailed; split
  · dsimp only; split
    · exact Spares.chooseFrame hr hc hw _ (h.setCtx hij _) hij
    · exact (h.setCtx hij _).queueWait hr hw hij
  · exact h

end Chooses

end Releases

end Sys2Proof.Machine
end

section
/-! PROOFS. A frame that reaches a member's blocks: the state in which they act, the test for LEAVE behind them, and a pass over the
contexts (R46, R54, R56, R77). -/

namespace Sys2Proof.Machine

/-! ### The test for LEAVE -/

/-- The test for LEAVE queues one frame at most (R77). -/
theorem leaveCheck_eq (s : State) : s.leaveCheck = s ∨ s.leaveCheck = s.queueFrame .leave := by
  unfold State.leaveCheck; split
  · exact .inr rfl
  · exact .inl rfl

section LeaveCheck

variable (s : State)

@[simp] theorem leaveCheck_now : s.leaveCheck.now = s.now := by rcases leaveCheck_eq s with h | h <;> simp [h]
@[simp] theorem leaveCheck_smu : s.leaveCheck.smu = s.smu := by rcases leaveCheck_eq s with h | h <;> simp [h]
@[simp] theorem leaveCheck_stc : s.leaveCheck.stc = s.stc := by rcases leaveCheck_eq s with h | h <;> simp [h]
@[simp] theorem leaveCheck_ctxs : s.leaveCheck.ctxs = s.ctxs := by rcases leaveCheck_eq s with h | h <;> simp [h]
@[simp] theorem leaveCheck_path : s.leaveCheck.path = s.path := by rcases leaveCheck_eq s with h | h <;> simp [h]
@[simp] theorem leaveCheck_oku : s.leaveCheck.oku = s.oku := by rcases leaveCheck_eq s with h | h <;> simp [h]
@[simp] theorem leaveCheck_sport : s.leaveCheck.sport = s.sport := by rcases leaveCheck_eq s with h | h <;> simp [h]
@[simp] theorem leaveCheck_recalls : s.leaveCheck.rif.recalls = s.rif.recalls := by
  rcases leaveCheck_eq s with h | h <;> simp [h]
@[simp] theorem ctx_leaveCheck (i : Ref) : s.leaveCheck.ctx i = s.ctx i := State.ctx_congr (by simp) i

end LeaveCheck

theorem liveCount_eq_zero_iff {s : State} : s.liveCount = 0 ↔ ∀ i, s.ctx i = none := by
  simp [State.liveCount, List.countP_eq_zero, mem_refs]

/-- No LEAVE falls due while a context is live (R77). -/
theorem leaveCheck_of_live {s : State} {i : Ref} {y : Ctx} (h : s.ctx i = some y) : s.leaveCheck = s := by
  unfold State.leaveCheck
  refine if_neg fun hl => ?_
  have := liveCount_eq_zero_iff.mp hl.2.1 i
  simp [h] at this

/-- No LEAVE falls due outside LEAVING (R77). -/
theorem leaveCheck_of_state {s : State} (h : s.stc.state ≠ .leaving) : s.leaveCheck = s := by
  unfold State.leaveCheck
  exact if_neg fun hl => h hl.1

/-! ### Taken frames -/

theorem onEcho_eq (s : State) (id : FrameId) : s.onEcho id = (s.echoed id).newEvent := by
  simp [State.onEcho, State.echoed, State.dropCarrying, State.markRecall, State.newEvent, Recall.opens]

/-- The state in which the blocks of a member take a frame: a new event, and the own entry gone from the queue (R54, R56). -/
def State.takingBase (s : State) (x : Byte) (f : Frame) : State := if x = s.own then s.onEcho f.ident else s.newEvent

theorem takingBase_own (s : State) (f : Frame) : s.takingBase s.own f = s.onEcho f.ident := if_pos rfl

theorem takingBase_of_ne {s : State} {x : Byte} (h : x ≠ s.own) (f : Frame) : s.takingBase x f = s.newEvent := if_neg h

theorem member_iff {s : State} : s.member = true ↔ s.stc.state = .joined ∨ s.stc.state = .leaving := by
  simp [State.member]

theorem onRiser_of_member {s : State} (h : s.member = true) : s.onRiser = true := by
  rcases member_iff.mp h with h | h <;> simp [State.onRiser, h]

theorem taking_of_hears {s : State} {x : Byte} {f : Frame} (h : s.hears x f) (learn act : State → State) :
    s.taking x f learn act = (act s.newEvent).leaveCheck := by
  obtain ⟨hm, hc, hx, hv, hf⟩ := h
  have hl : s.stc.state ≠ .learning := by rcases member_iff.mp hm with h | h <;> simp [h]
  simp [State.taking, State.deliver, onRiser_of_member hm, hc, hx, hv, hf, hl]

theorem taking_of_echoes {s : State} {x : Byte} {f : Frame} (h : s.echoes x f) (learn act : State → State) :
    s.taking x f learn act = (act (s.onEcho f.ident)).leaveCheck := by
  obtain ⟨hm, rfl, hc, hv, hf⟩ := h
  obtain ⟨e, he, hef⟩ := Option.map_eq_some_iff.mp hc
  have hl : (s.echoed f.ident).stc.state ≠ .learning := by
    show s.stc.state ≠ .learning
    rcases member_iff.mp hm with h | h <;> simp [h]
  simp [State.taking, State.deliver, onRiser_of_member hm, he, hef, hv, hf, hl, onEcho_eq]

/-- A frame that a member takes acts on the base, and then LEAVE is tested (R54, R77). -/
theorem taking_of_takesFrame {s : State} {x : Byte} {f : Frame} (h : s.takesFrame x f) (learn act : State → State) :
    s.taking x f learn act = (act (s.takingBase x f)).leaveCheck := by
  rcases h with h | h
  · rw [taking_of_hears h, takingBase_of_ne h.2.2.1]
  · obtain ⟨-, rfl, -⟩ := id h
    rw [taking_of_echoes h, takingBase_own]

theorem takesFrame_member {s : State} {x : Byte} {f : Frame} (h : s.takesFrame x f) : s.member = true := by
  rcases h with h | h
  · exact h.1
  · exact h.1

section TakingBase

variable (s : State) (x : Byte) (f : Frame)

@[simp] theorem takingBase_now : (s.takingBase x f).now = s.now := by unfold State.takingBase; split <;> rfl
@[simp] theorem takingBase_eventNo : (s.takingBase x f).eventNo = s.eventNo + 1 := by unfold State.takingBase; split <;> rfl
@[simp] theorem takingBase_pins : (s.takingBase x f).pins = s.pins := by unfold State.takingBase; split <;> rfl
@[simp] theorem takingBase_smu : (s.takingBase x f).smu = s.smu := by unfold State.takingBase; split <;> rfl
@[simp] theorem takingBase_stc : (s.takingBase x f).stc = s.stc := by unfold State.takingBase; split <;> rfl
@[simp] theorem takingBase_udir : (s.takingBase x f).udir = s.udir := by unfold State.takingBase; split <;> rfl
@[simp] theorem takingBase_ctxs : (s.takingBase x f).ctxs = s.ctxs := by unfold State.takingBase; split <;> rfl
@[simp] theorem takingBase_path : (s.takingBase x f).path = s.path := by unfold State.takingBase; split <;> rfl
@[simp] theorem takingBase_oku : (s.takingBase x f).oku = s.oku := by unfold State.takingBase; split <;> rfl
@[simp] theorem takingBase_sport : (s.takingBase x f).sport = s.sport := by unfold State.takingBase; split <;> rfl
@[simp] theorem takingBase_still : (s.takingBase x f).rif.still = s.rif.still := by unfold State.takingBase; split <;> rfl
@[simp] theorem ctx_takingBase (i : Ref) : (s.takingBase x f).ctx i = s.ctx i := State.ctx_congr (by simp) i
@[simp] theorem takingBase_own_eq : (s.takingBase x f).own = s.own := by simp [State.own]

end TakingBase

/-! ### Fixtures and station -/

theorem SameFixtures.trans {s t u : State} (h : SameFixtures s t) (k : SameFixtures t u) : SameFixtures s u := by
  obtain ⟨h1, h2, h3, h4, h5, h6, h7, h8, h9, h10, h11, h12, h13, h14, h15⟩ := h
  obtain ⟨k1, k2, k3, k4, k5, k6, k7, k8, k9, k10, k11, k12, k13, k14, k15⟩ := k
  exact ⟨k1.trans h1, k2.trans h2, k3.trans h3, k4.trans h4, k5.trans h5, k6.trans h6, k7.trans h7, k8.trans h8, k9.trans h9,
    k10.trans h10, k11.trans h11, k12.trans h12, k13.trans h13, k14.trans h14, k15.trans h15⟩

theorem SameStation.trans {s t u : State} (h : SameStation s t) (k : SameStation t u) : SameStation s u := by
  obtain ⟨h1, h2, h3, h4, h5, h6, h7⟩ := h
  obtain ⟨k1, k2, k3, k4, k5, k6, k7⟩ := k
  exact ⟨k1.trans h1, k2.trans h2, k3.trans h3, k4.trans h4, k5.trans h5, k6.trans h6, k7.trans h7⟩

theorem Calm.sameFixtures {a t : State} (h : Calm a t) : SameFixtures a t := by
  have hrif := h.rif
  have hoku := h.oku
  simp only [Rif.still, Oku.still, Prod.mk.injEq] at hrif hoku
  obtain ⟨r1, r2, r3, r4, -⟩ := hrif
  obtain ⟨o1, o2, o3, -, o5, o6⟩ := hoku
  exact ⟨h.now, h.pins, r1, r2, r3, r4, h.fwd, h.ret, o1, o2, o3, o5, o6, h.config, h.dnd⟩

theorem Calm.sameStation {a t : State} (h : Calm a t) : SameStation a t := by
  have hstc := h.stc
  simp only [Stc.still, Prod.mk.injEq] at hstc
  obtain ⟨c1, c2, c3, c4, c5, c6⟩ := hstc
  exact ⟨c1, c2, c3, c4, c5, c6, h.lines⟩

theorem Calm.strike {a t : State} (h : Calm a t) : t.oku.strike = a.oku.strike := congrArg (·.2.2.2.1) h.oku

theorem Calm.state {a t : State} (h : Calm a t) : t.stc.state = a.stc.state := congrArg (·.1) h.stc

theorem Calm.member {a t : State} (h : Calm a t) : t.member = a.member := by unfold State.member; rw [h.state]

theorem Calm.own {a t : State} (h : Calm a t) : t.own = a.own := by unfold State.own; rw [h.config]

theorem Calm.role {a t : State} (h : Calm a t) : t.role = a.role := by unfold State.role; rw [h.config]

/-- The base of a taken frame, and what the blocks then do calmly on the copy they have changed (R54). -/
theorem sameFixtures_of_taken {s t : State} {x : Byte} {f : Frame} {m : Smu} (h : Calm { s.takingBase x f with smu := m } t) :
    SameFixtures s t := by
  have hb := takingBase_still s x f
  simp only [Rif.still, Prod.mk.injEq] at hb
  obtain ⟨b1, b2, b3, b4, -⟩ := hb
  refine SameFixtures.trans (t := { s.takingBase x f with smu := m }) ?_ h.sameFixtures
  refine ⟨?_, ?_, b1, b2, b3, b4, ?_, ?_, ?_, ?_, ?_, ?_, ?_, ?_, ?_⟩ <;> simp

theorem sameStation_of_taken {s t : State} {x : Byte} {f : Frame} {m : Smu} (h : Calm { s.takingBase x f with smu := m } t) :
    SameStation s t :=
  SameStation.trans (t := { s.takingBase x f with smu := m }) (by simp [SameStation]) h.sameStation

/-! ### A pass over the contexts -/

/-- One context of a pass: its operation where it is live. -/
def State.visit (f : State → Ref → Ctx → State) (s : State) (i : Ref) : State :=
  match s.ctx i with
  | some c => f s i c
  | none => s

theorem eachCtx_eq (s : State) (f : State → Ref → Ctx → State) :
    s.eachCtx f = State.visit f (State.visit f (State.visit f (State.visit f s 0) 1) 2) 3 := rfl

theorem visit_live {f : State → Ref → Ctx → State} {s : State} {i : Ref} {y : Ctx} (h : s.ctx i = some y) :
    State.visit f s i = f s i y := by rw [State.visit, h]

theorem visit_free {f : State → Ref → Ctx → State} {s : State} {i : Ref} (h : s.ctx i = none) : State.visit f s i = s := by
  rw [State.visit, h]

/-- A pass seen from context i: the contexts below it are visited with it spared, then itself, then the contexts above it with it
spared again. `M k` is what holds when the contexts below k have been visited. -/
theorem eachCtx_around {ks : FrameKind → Prop} {f : State → Ref → Ctx → State} {M : Nat → State → Prop} {s : State}
    (h0 : M 0 s) (hfree : ∀ (i : Ref) t, M i t → t.ctx i = none → M (i + 1) t)
    (hlive : ∀ (i : Ref) t y, M i t → t.ctx i = some y → M (i + 1) (f t i y) ∧ ∀ j, j ≠ i → Spares ks j t (f t i y)) (i : Ref) :
    ∃ a, M i a ∧ Spares ks i s a ∧ M (i + 1) (State.visit f a i) ∧ Spares ks i (State.visit f a i) (s.eachCtx f) := by
  have hM : ∀ (i : Ref) t, M i t → M (i + 1) (State.visit f t i) := fun i t ht => by
    cases hc : t.ctx i with
    | none => rw [visit_free hc]; exact hfree i t ht hc
    | some y => rw [visit_live hc]; exact (hlive i t y ht hc).1
  have hS : ∀ (k j : Ref) t, M k t → j ≠ k → Spares ks j t (State.visit f t k) := fun k j t ht hj => by
    cases hc : t.ctx k with
    | none => rw [visit_free hc]; exact Spares.refl _ _
    | some y => rw [visit_live hc]; exact (hlive k t y ht hc).2 j hj
  have m1 := hM 0 _ h0
  have m2 := hM 1 _ m1
  have m3 := hM 2 _ m2
  have m4 := hM 3 _ m3
  rw [eachCtx_eq]
  match i with
  | 0 => exact ⟨_, h0, Spares.refl _ _, m1,
      ((hS 1 0 _ m1 (by decide)).trans (hS 2 0 _ m2 (by decide))).trans (hS 3 0 _ m3 (by decide))⟩
  | 1 => exact ⟨_, m1, hS 0 1 _ h0 (by decide), m2, (hS 2 1 _ m2 (by decide)).trans (hS 3 1 _ m3 (by decide))⟩
  | 2 => exact ⟨_, m2, (hS 0 2 _ h0 (by decide)).trans (hS 1 2 _ m1 (by decide)), m3, hS 3 2 _ m3 (by decide)⟩
  | 3 => exact ⟨_, m3, ((hS 0 3 _ h0 (by decide)).trans (hS 1 3 _ m1 (by decide))).trans (hS 2 3 _ m2 (by decide)), m4,
      Spares.refl _ _⟩

/-- What holds at the end of a pass. -/
theorem eachCtx_end {f : State → Ref → Ctx → State} {M : Nat → State → Prop} {s : State} (h0 : M 0 s)
    (hfree : ∀ (i : Ref) t, M i t → t.ctx i = none → M (i + 1) t)
    (hlive : ∀ (i : Ref) t y, M i t → t.ctx i = some y → M (i + 1) (f t i y)) : M 4 (s.eachCtx f) := by
  have hM : ∀ (i : Ref) t, M i t → M (i + 1) (State.visit f t i) := fun i t ht => by
    cases hc : t.ctx i with
    | none => rw [visit_free hc]; exact hfree i t ht hc
    | some y => rw [visit_live hc]; exact hlive i t y ht hc
  exact hM 3 _ (hM 2 _ (hM 1 _ (hM 0 _ h0)))

/-- A pass whose operation leaves the contexts of other calls leaves them. -/
theorem OtherCallsKept.eachCtx {c : CallId} {ks : FrameKind → Prop} {f : State → Ref → Ctx → State} {s a : State}
    (h : OtherCallsKept c s a) (hother : ∀ t i y, y.cid ≠ c → f t i y = t)
    (hspare : ∀ t i y j, j ≠ i → Spares ks j t (f t i y)) : OtherCallsKept c s (a.eachCtx f) := by
  refine eachCtx_end (M := fun _ t => OtherCallsKept c s t) h (fun _ t ht _ => ht) fun i t y ht hy j hj => ?_
  by_cases hij : j = i
  · subst hij
    rw [hother t j y (hj y ((ht j hj).symm.trans hy))]
    exact ht j hj
  · rw [(hspare t i y j hij).ctx]
    exact ht j hj

end Sys2Proof.Machine
end

section
/-! PROOFS. A CLAIM, a RELEASE and a RECLAIM at the copy (R6, R8 to R11, R30). -/

namespace Sys2Proof.Machine

/-! ### Outcomes and reports that name one call -/

theorem OtherCallsKept.refl (c : CallId) (s : State) : OtherCallsKept c s s := fun _ _ => rfl

theorem OtherCallsKept.of_ctxs {c : CallId} {s a t : State} (h : OtherCallsKept c s a) (ht : ∀ i, t.ctx i = a.ctx i) :
    OtherCallsKept c s t := fun i hi => (ht i).trans (h i hi)

theorem OtherCallsKept.claimOutcome {s a : State} {c : CallId} (h : OtherCallsKept c s a) (x : Byte) (r : Option ClaimReason)
    (b : Block) : OtherCallsKept c s (a.claimOutcome x c r b) := by
  refine h.eachCtx (ks := fun _ => True) (fun t i y hy => if_pos hy) fun t i y j hij => ?_
  have h := Spares.refl (ks := fun _ => True) j t
  repeat' split
  · exact h
  · exact h.outcomeAtAnswer hij y
  · exact h.settleOn trivial hij b
  · exact h.claimFailed trivial trivial trivial hij _
  · exact h

theorem reportAt_of_other {r : Report} {y : Ctx} (hc : y.cid ≠ r.cid) (hn : ∀ h ∈ r.newHolds, h.cid ≠ y.cid) (s : State)
    (i : Ref) : State.reportAt r s i y = s := by
  have hfind : (r.newHolds.find? fun h => h.cid = y.cid) = none := by simpa [List.find?_eq_none] using hn
  rw [State.reportAt, if_neg (fun h => hc h.1), if_neg (fun h => hc h.1), hfind]

/-- A report that frees nothing, at PATH and CENG (R12, R14). -/
theorem changeReport_of_freed_none {r : Report} (h : r.freed = none) (s : State) :
    s.changeReport r = (s.eachCtx (State.reportAt r)).reckonOwner := by
  rw [State.changeReport, h]

theorem OtherCallsKept.changeReport {s a : State} {c : CallId} (h : OtherCallsKept c s a) {r : Report} (hf : r.freed = none)
    (hc : r.cid = c) (hn : ∀ n ∈ r.newHolds, n.cid = c) : OtherCallsKept c s (a.changeReport r) := by
  rw [changeReport_of_freed_none hf]
  refine OtherCallsKept.of_ctxs (a := a.eachCtx (State.reportAt r)) ?_ fun i =>
    ((Spares.refl (ks := fun _ => True) i _).reckonOwner).ctx
  refine h.eachCtx (ks := fun _ => True) (fun t i y hy => ?_) fun t i y j hij =>
    (Spares.refl j t).reportAt trivial hij r y
  exact reportAt_of_other (by rwa [hc]) (fun n hm hny => hy (hny.symm.trans (hn n hm))) t i

/-! ### A taken CLAIM -/

/-- The report of a CLAIM lists its hold where it succeeded, and nothing else (R12). -/
def claimReport (x own : Byte) (c : CallId) (hs : List NewHold) : Report :=
  { kind := .claim, cid := c, own := decide (x = own), newHolds := hs }

section ClaimTaken

variable {s : State} {x : Byte} {c : CallId} {b w : Byte}

theorem claimTaken_success (h : claimTest s.smu x c b.toNat w.toNat = none) :
    s.claimTaken x c b w =
      ((s.addHold c (b.toNat, w.toNat)).claimOutcome x c none (b.toNat, w.toNat)).changeReport
        (claimReport x s.own c [⟨c, (b.toNat, w.toNat), false⟩]) := by
  simp only [State.claimTaken, h, claimReport]

theorem claimTaken_failure {r : ClaimReason} (h : claimTest s.smu x c b.toNat w.toNat = some r) :
    s.claimTaken x c b w =
      (s.claimOutcome x c (some r) (b.toNat, w.toNat)).changeReport (claimReport x s.own c []) := by
  simp only [State.claimTaken, h, claimReport]

/-- The copy after a CLAIM: the hold joins where the test succeeds (R6, R8). -/
def State.claimCopy (s : State) (x : Byte) (c : CallId) (b w : Nat) : Smu :=
  if claimTest s.smu x c b w = none then (s.addHold c (b, w)).smu else s.smu

/-- A CLAIM changes the copy, and then acts calmly (R6 to R8). -/
theorem calm_claimTaken (s : State) (x : Byte) (c : CallId) (b w : Byte) :
    Calm { s with smu := s.claimCopy x c b.toNat w.toNat } (s.claimTaken x c b w) := by
  cases h : claimTest s.smu x c b.toNat w.toNat with
  | none =>
    rw [claimTaken_success h, State.claimCopy, if_pos h]
    exact ((Calm.refl _).claimOutcome _ _ _ _).changeReport _
  | some r =>
    rw [claimTaken_failure h, State.claimCopy, if_neg (by simp [h])]
    exact ((Calm.refl _).claimOutcome _ _ _ _).changeReport _

theorem otherCallsKept_claimTaken (s : State) (x : Byte) (c : CallId) (b w : Byte) :
    OtherCallsKept c s (s.claimTaken x c b w) := by
  cases h : claimTest s.smu x c b.toNat w.toNat with
  | none =>
    rw [claimTaken_success h]
    refine OtherCallsKept.changeReport (OtherCallsKept.claimOutcome ?_ _ _ _) rfl rfl (by simp [claimReport])
    exact OtherCallsKept.of_ctxs (OtherCallsKept.refl c s) fun _ => rfl
  | some r =>
    rw [claimTaken_failure h]
    exact ((OtherCallsKept.refl c s).claimOutcome _ _ _).changeReport rfl rfl (by simp [claimReport])

end ClaimTaken

/-- Settles O18: the copy changes first, and what follows is calm and stays with the contexts of the call. -/
theorem claimTakenComparesAndSwaps : Obligations.ClaimTakenComparesAndSwaps := by
  unfold Obligations.ClaimTakenComparesAndSwaps
  intro s x c b w h
  have hexec : exec (.claimTaken x c b w) s =
      .next (((s.takingBase x (.claim c b w)).claimTaken x c b w).leaveCheck) := congrArg _ (taking_of_takesFrame h _ _)
  have hcalm := (calm_claimTaken (s.takingBase x (.claim c b w)) x c b w).leaveCheck
  refine ⟨_, hexec, sameFixtures_of_taken hcalm, sameStation_of_taken hcalm, ?_, ?_, ?_, fun hr => ?_, fun hn => ?_⟩
  · intro i hi
    rw [ctx_leaveCheck, otherCallsKept_claimTaken _ x c b w i (by simpa using hi), ctx_takingBase]
  · rw [hcalm.strike]; simp
  · rw [hcalm.smu]
    unfold State.claimCopy
    split <;> simp [State.addHold]
  · rw [hcalm.smu]
    simp [State.claimCopy, hr]
  · rw [hcalm.smu]
    simp [State.claimCopy, hn, State.addHold, State.newHold, State.stamp, State.holdAudit, Config.holdAuditMs,
      Config.auditStaggerMs]

/-! ### Items and their audits -/

/-- Two copies with the same items, audits apart (R35, R37). -/
def SameItems (m m' : Smu) : Prop :=
  (∃ f : Hold → Hold, m'.holds = m.holds.map f
      ∧ ∀ h, (f h).cid = h.cid ∧ (f h).base = h.base ∧ (f h).width = h.width ∧ (f h).age = h.age)
    ∧ ∃ g : WaitEntry → WaitEntry, m'.waits = m.waits.map g ∧ ∀ w, (g w).cid = w.cid ∧ (g w).wanted = w.wanted

theorem SameItems.refl (m : Smu) : SameItems m m :=
  ⟨⟨id, by simp, by simp⟩, ⟨id, by simp, by simp⟩⟩

theorem sameItems_setAudit (s : State) (c : CallId) (a : Audit) : SameItems s.smu (s.setAudit c a).smu :=
  ⟨⟨_, rfl, fun h => by split <;> simp⟩, ⟨_, rfl, fun w => by split <;> simp⟩⟩

theorem sameItems_nextOverdue (s : State) : SameItems s.smu s.nextOverdue.smu := by
  unfold State.nextOverdue State.queueReclaim
  split
  · split
    · simpa using sameItems_setAudit (s.queueFrame (.reclaim _)) _ .reclaimQueued
    · exact SameItems.refl _
  · exact SameItems.refl _

section SameItems

variable {m m' : Smu} (h : SameItems m m')
include h

theorem SameItems.holdOf (c : CallId) :
    (m'.holdOf c).map (fun x => (x.cid, x.base, x.width, x.age)) = (m.holdOf c).map fun x => (x.cid, x.base, x.width, x.age) := by
  obtain ⟨⟨f, hf, hkeep⟩, -⟩ := h
  have hcid : (fun x : Hold => decide (x.cid = c)) ∘ f = fun x => decide (x.cid = c) := funext fun x => by simp [hkeep x]
  rw [Smu.holdOf, Smu.holdOf, hf, List.find?_map, hcid, Option.map_map]
  exact congrArg (fun g => Option.map g _) (funext fun x => by simp [hkeep x])

theorem SameItems.has (c : CallId) : m'.has c = m.has c := by
  have hh : (m'.holdOf c).isSome = (m.holdOf c).isSome := by
    simpa using congrArg Option.isSome (h.holdOf c)
  obtain ⟨-, g, hg, hkeep⟩ := h
  have hw : (m'.waitOf c).isSome = (m.waitOf c).isSome := by
    have hcid : (fun x : WaitEntry => decide (x.cid = c)) ∘ g = fun x => decide (x.cid = c) := funext fun x => by simp [hkeep x]
    rw [Smu.waitOf, Smu.waitOf, hg, List.find?_map, hcid, Option.isSome_map]
  rw [Smu.has, Smu.has, hh, hw]

theorem SameItems.channelFree (n : Nat) : channelFree m'.holds n = channelFree m.holds n := by
  obtain ⟨⟨f, hf, hkeep⟩, -⟩ := h
  rw [Bool.eq_iff_iff, channelFree_iff, channelFree_iff, hf]
  simp [Hold.covers, hkeep]

theorem SameItems.freeCount : freeCount m'.holds = freeCount m.holds := by
  unfold Machine.freeCount
  simp only [h.channelFree]

theorem SameItems.waits_cid : m'.waits.map WaitEntry.cid = m.waits.map WaitEntry.cid := by
  obtain ⟨-, g, hg, hkeep⟩ := h
  rw [hg, List.map_map]
  exact List.map_congr_left fun w _ => (hkeep w).1

theorem SameItems.snapHolds : m'.snapHolds = m.snapHolds := by
  obtain ⟨⟨f, hf, hkeep⟩, -⟩ := h
  rw [Smu.snapHolds, Smu.snapHolds, hf, List.map_map]
  exact List.map_congr_left fun x _ => by simp [hkeep x]

theorem SameItems.snapWaits : m'.snapWaits = m.snapWaits := by
  obtain ⟨-, g, hg, hkeep⟩ := h
  rw [Smu.snapWaits, Smu.snapWaits, hg, List.map_map]
  exact List.map_congr_left fun x _ => by simp [hkeep x]

end SameItems

/-! ### The copy after a RELEASE or RECLAIM -/

/-- The copy once a call is freed: its items gone, and the scan run where there were any (R9, R30). -/
def State.freedCopy (s : State) (c : CallId) : Smu := if s.smu.has c then (s.removeItem c).grantScan.smu else s.smu

/-- The grants of the scan behind a freed call (R30). -/
def State.freedGrants (s : State) (c : CallId) : List NewHold := if s.smu.has c then (s.removeItem c).grants else []

/-- The state in which the report of a freed call is acted on: the copy changed, and an own queued RECLAIM's recall asked (R9, R11). -/
def State.freedBase (s : State) (c : CallId) : State := ({ s with smu := s.freedCopy c } : State).askRecall ⟨.reclaim, .call c⟩

/-- The report of a freed call (R12). -/
def State.freedReport (s : State) (k : FrameKind) (x : Byte) (c : CallId) (cause : Option Byte) : Report :=
  { s.removalReport k x c cause with newHolds := s.freedGrants c }

theorem askRecall_withSmu (s : State) (m : Smu) (id : FrameId) :
    ({ s with smu := m } : State).askRecall id = { s.askRecall id with smu := m } := by
  unfold State.askRecall
  by_cases h : (s.queued id && !(s.rif.recalls.any fun r => r.opens id)) = true
  · have h' : (({ s with smu := m } : State).queued id && !(s.rif.recalls.any fun r => r.opens id)) = true := h
    rw [if_pos h, if_pos h']
  · have h' : ¬ (({ s with smu := m } : State).queued id && !(s.rif.recalls.any fun r => r.opens id)) = true := h
    rw [if_neg h, if_neg h']

theorem newHold_askRecall (s : State) (id : FrameId) : (s.askRecall id).newHold = s.newHold := by
  funext c b; simp [State.newHold, State.stamp, State.holdAudit, State.own]

theorem grantScan_askRecall (s : State) (id : FrameId) : (s.askRecall id).grantScan = s.grantScan.askRecall id := by
  simp only [State.grantScan, newHold_askRecall, State.askRecall_smu, askRecall_withSmu]

theorem grants_askRecall (s : State) (id : FrameId) : (s.askRecall id).grants = s.grants := by
  simp only [State.grants, newHold_askRecall, State.askRecall_smu]

theorem Smu.has_eq_false_iff {m : Smu} {c : CallId} :
    m.has c = false ↔ (∀ h ∈ m.holds, h.cid ≠ c) ∧ ∀ w ∈ m.waits, w.cid ≠ c := by
  rw [← Bool.not_eq_true, Smu.has_iff]
  push Not
  rfl

theorem removeItem_of_not_has {s : State} {c : CallId} (h : s.smu.has c = false) : s.removeItem c = s := by
  obtain ⟨hh, hw⟩ := Smu.has_eq_false_iff.mp h
  have h1 : s.smu.holds.filter (fun x => decide (x.cid ≠ c)) = s.smu.holds :=
    List.filter_eq_self.mpr fun x hx => decide_eq_true (hh x hx)
  have h2 : s.smu.waits.filter (fun x => decide (x.cid ≠ c)) = s.smu.waits :=
    List.filter_eq_self.mpr fun x hx => decide_eq_true (hw x hx)
  unfold State.removeItem
  rw [h1, h2]

/-- A freed call: the copy first, then the report (R9, R11). -/
theorem freeCall_eq (s : State) (k : FrameKind) (x : Byte) (c : CallId) (cause : Option Byte) :
    s.freeCall k x c cause = (s.freedBase c).changeReport (s.freedReport k x c cause) := by
  unfold State.freeCall State.freedBase State.freedReport State.freedCopy State.freedGrants
  dsimp only
  cases h : s.smu.has c with
  | true => simp only [if_true, grantScan_askRecall, grants_askRecall]; rfl
  | false =>
    simp only [Bool.false_eq_true, if_false, removeItem_of_not_has h]
    rfl

section FreedCopy

variable {s : State} {c : CallId}

theorem freedCopy_of_not_has (h : s.smu.has c = false) : s.freedCopy c = s.smu := by simp [State.freedCopy, h]

theorem freedCopy_of_has (h : s.smu.has c = true) :
    s.freedCopy c =
      ⟨(scanFrom s.newHold (s.removeItem c).smu.holds (s.removeItem c).smu.waits).holds,
        (scanFrom s.newHold (s.removeItem c).smu.holds (s.removeItem c).smu.waits).waits⟩ := by
  simp only [State.freedCopy, h, if_true]
  rfl

theorem freedGrants_of_has (h : s.smu.has c = true) :
    s.freedGrants c = (scanFrom s.newHold (s.removeItem c).smu.holds (s.removeItem c).smu.waits).grants := by
  simp only [State.freedGrants, h, if_true]
  rfl

theorem mem_removeItem_waits {w : WaitEntry} : w ∈ (s.removeItem c).smu.waits ↔ w ∈ s.smu.waits ∧ w.cid ≠ c := by
  simp [State.removeItem]

/-- A call granted at the freeing of another was waiting (R30). -/
theorem freedGrants_waiting {g : NewHold} (hg : g ∈ s.freedGrants c) : ∃ w ∈ s.smu.waits, w.cid = g.cid ∧ w.cid ≠ c := by
  cases h : s.smu.has c with
  | false => simp [State.freedGrants, h] at hg
  | true =>
    rw [freedGrants_of_has h] at hg
    obtain ⟨done, hdone, hcids⟩ := scanFrom_grants_head (mk := s.newHold) (s.removeItem c).smu.waits (s.removeItem c).smu.holds
    have hmem : g.cid ∈ done.map WaitEntry.cid := hcids ▸ List.mem_map_of_mem hg
    obtain ⟨w, hw, hwc⟩ := List.mem_map.mp hmem
    obtain ⟨h1, h2⟩ := mem_removeItem_waits.mp (by rw [hdone]; exact List.mem_append_left _ hw : w ∈ (s.removeItem c).smu.waits)
    exact ⟨w, h1, hwc, h2⟩

/-- The holds after a freeing are those of the other calls, and those granted now (R9, R30). -/
theorem mem_freedCopy_holds {h : Hold} :
    h ∈ (s.freedCopy c).holds ↔ (h ∈ s.smu.holds ∧ h.cid ≠ c) ∨ ∃ g ∈ s.freedGrants c, h = s.newHold g.cid g.block := by
  cases hc : s.smu.has c with
  | false =>
    have hne : h ∈ s.smu.holds → h.cid ≠ c := fun hh he => by
      have := Smu.has_iff.mpr (.inl ⟨h, hh, he⟩)
      simp [hc] at this
    simp only [freedCopy_of_not_has hc, State.freedGrants, hc, Bool.false_eq_true, if_false, List.not_mem_nil, false_and,
      exists_false, or_false]
    exact ⟨fun hh => ⟨hh, hne hh⟩, fun hh => hh.1⟩
  | true => rw [freedCopy_of_has hc, freedGrants_of_has hc, mem_scanFrom_holds, mem_removeItem]

theorem freedCopy_has (s : State) (c : CallId) : (s.freedCopy c).has c = false := by
  cases hc : s.smu.has c with
  | false => rw [freedCopy_of_not_has hc, hc]
  | true =>
    rw [← Bool.not_eq_true, Smu.has_iff]
    rintro (⟨h, hh, rfl⟩ | ⟨w, hw, rfl⟩)
    · rcases mem_freedCopy_holds.mp hh with ⟨-, hne⟩ | ⟨g, hg, heq⟩
      · exact hne rfl
      · obtain ⟨w, -, hwg, hne⟩ := freedGrants_waiting hg
        exact hne (hwg.trans (congrArg Hold.cid heq).symm)
    · rw [freedCopy_of_has hc] at hw
      obtain ⟨done, hdone, -⟩ := scanFrom_grants_head (mk := s.newHold) (s.removeItem w.cid).smu.waits (s.removeItem w.cid).smu.holds
      have hmem : w ∈ (s.removeItem w.cid).smu.waits := by rw [hdone]; exact List.mem_append_right _ hw
      exact (mem_removeItem_waits.mp hmem).2 rfl

theorem freedCopy_done (hl : SlotLaw s.smu) : (s.freedCopy c).waits = [] ∨ freeCount (s.freedCopy c).holds = 0 := by
  obtain ⟨-, -, -, -, hwidth, hfull⟩ := hl
  cases hc : s.smu.has c with
  | false => rw [freedCopy_of_not_has hc]; exact hfull
  | true =>
    rw [freedCopy_of_has hc]
    refine scanFrom_done _ _ fun w hw => ?_
    have := validWidth_iff.mp (hwidth w (mem_removeItem_waits.mp hw).1)
    omega

/-- Holds and wait entries bear different call ids (R1, R24). -/
theorem SlotLaw.hold_wait {m : Smu} (hl : SlotLaw m) {h : Hold} {w : WaitEntry} (hh : h ∈ m.holds) (hw : w ∈ m.waits) :
    h.cid ≠ w.cid :=
  (List.nodup_append.mp hl.2.2.1).2.2 _ (List.mem_map_of_mem hh) _ (List.mem_map_of_mem hw)

/-- The waiting calls but the freed one are granted from the head of the list, aged from now (R15, R30). -/
theorem freedCopy_granted (hl : SlotLaw s.smu) :
    ∃ granted, (s.smu.waits.filter fun w => w.cid ≠ c).map WaitEntry.cid = granted ++ (s.freedCopy c).waits.map WaitEntry.cid
      ∧ ∀ g ∈ granted, ∃ h, (s.freedCopy c).holdOf g = some h ∧ h.age = s.stamp := by
  cases hc : s.smu.has c with
  | false =>
    refine ⟨[], ?_, by simp⟩
    have hw : s.smu.waits.filter (fun x => decide (x.cid ≠ c)) = s.smu.waits :=
      congrArg (fun t : State => t.smu.waits) (removeItem_of_not_has hc)
    rw [freedCopy_of_not_has hc, hw, List.nil_append]
  | true =>
    obtain ⟨done, hdone, hcids⟩ := scanFrom_grants_head (mk := s.newHold) (s.removeItem c).smu.waits (s.removeItem c).smu.holds
    refine ⟨done.map WaitEntry.cid, ?_, fun g hg => ?_⟩
    · rw [freedCopy_of_has hc, ← List.map_append]
      exact congrArg (List.map WaitEntry.cid) hdone
    · rw [← hcids, ← freedGrants_of_has hc] at hg
      obtain ⟨n, hn, rfl⟩ := List.mem_map.mp hg
      have hmem : s.newHold n.cid n.block ∈ (s.freedCopy c).holds := mem_freedCopy_holds.mpr (.inr ⟨n, hn, rfl⟩)
      obtain ⟨h, hh⟩ := Option.isSome_iff_exists.mp (holdOf_isSome_iff.mpr ⟨_, hmem, rfl⟩)
      refine ⟨h, hh, ?_⟩
      obtain ⟨hin, hcid⟩ := holdOf_some hh
      rcases mem_freedCopy_holds.mp hin with ⟨hold, -⟩ | ⟨g, -, rfl⟩
      · obtain ⟨w, hw, hwn, -⟩ := freedGrants_waiting hn
        exact absurd (hcid.trans hwn.symm) (hl.hold_wait hold hw)
      · rfl

end FreedCopy

/-! ### A taken RELEASE or RECLAIM -/

/-- The copy after a RELEASE or RECLAIM has the items of the freed copy (R9, R11, R36). -/
def FreesCopy (s : State) (x : Byte) (c : CallId) (t : State) : Prop :=
  ∃ m, Calm { s with smu := s.freedCopy c } m ∧ (t = m ∨ (x = s.own ∧ t = m.nextOverdue))

theorem freesCopy_releaseTaken (s : State) (x : Byte) (c : CallId) (k : Byte) : FreesCopy s x c (s.releaseTaken x c k) := by
  refine ⟨_, ?_, .inl rfl⟩
  rw [State.releaseTaken, freeCall_eq]
  exact ((Calm.refl _).askRecall _).changeReport _

theorem freesCopy_reclaimTaken (s : State) (x : Byte) (c : CallId) : FreesCopy s x c (s.reclaimTaken x c) := by
  unfold State.reclaimTaken
  dsimp only
  refine ⟨if s.smu.has c then s.freeCall .reclaim x c none else s.changeReport (s.removalReport .reclaim x c none), ?_, ?_⟩
  · cases hc : s.smu.has c with
    | true => simp only [if_true, freeCall_eq]; exact ((Calm.refl _).askRecall _).changeReport _
    | false =>
      simp only [Bool.false_eq_true, if_false, freedCopy_of_not_has hc]
      exact (Calm.refl _).changeReport _
  · split
    · rename_i hx; exact .inr ⟨hx, rfl⟩
    · exact .inl rfl

/-- The RECLAIM of the next overdue item changes an audit and the queue at most (R36). -/
theorem nextOverdue_eq (s : State) :
    s.nextOverdue = s ∨ ∃ c, s.nextOverdue = (s.queueFrame (.reclaim c)).setAudit c .reclaimQueued := by
  unfold State.nextOverdue State.queueReclaim
  split
  · split
    · exact .inr ⟨_, rfl⟩
    · exact .inl rfl
  · exact .inl rfl

theorem calm_nextOverdue (s : State) : Calm { s with smu := s.nextOverdue.smu } s.nextOverdue := by
  rcases nextOverdue_eq s with h | ⟨c, h⟩
  · rw [h]; exact Calm.refl _
  · rw [h]
    have h1 := (Calm.refl s).queueFrame (.reclaim c)
    exact { h1 with smu := rfl }

theorem FreesCopy.calm {s t : State} {x : Byte} {c : CallId} (h : FreesCopy s x c t) : Calm { s with smu := t.smu } t := by
  obtain ⟨m, hm, rfl | ⟨-, rfl⟩⟩ := h
  · exact { hm with smu := rfl }
  · have h1 : Calm { s with smu := m.nextOverdue.smu } { m with smu := m.nextOverdue.smu } := { hm with smu := rfl }
    exact h1.trans (calm_nextOverdue m)

theorem FreesCopy.items {s t : State} {x : Byte} {c : CallId} (h : FreesCopy s x c t) : SameItems (s.freedCopy c) t.smu := by
  obtain ⟨m, hm, rfl | ⟨-, rfl⟩⟩ := h
  · rw [hm.smu]; exact SameItems.refl _
  · have := sameItems_nextOverdue m
    rwa [hm.smu] at this

theorem FreesCopy.unchanged {s t : State} {x : Byte} {c : CallId} (h : FreesCopy s x c t) (hc : s.smu.has c = false)
    (hx : x ≠ s.own) : t.smu = s.smu := by
  obtain ⟨m, hm, rfl | ⟨hx', -⟩⟩ := h
  · rw [hm.smu]; exact freedCopy_of_not_has hc
  · exact absurd hx' hx

/-- The command of a taken RELEASE or RECLAIM, and its frame. -/
def FreesCall (s : State) (x : Byte) (c : CallId) (k : Byte) (cmd : Instr) : Prop :=
  (cmd = .releaseTaken x c k ∧ s.takesFrame x (.release c k)) ∨ (cmd = .reclaimTaken x c ∧ s.takesFrame x (.reclaim c))

/-- A taken RELEASE or RECLAIM acts on its base, frees the copy, and then LEAVE is tested. -/
theorem FreesCall.exec {s : State} {x : Byte} {c : CallId} {k : Byte} {cmd : Instr} (h : FreesCall s x c k cmd) :
    ∃ f t, exec cmd s = .next t.leaveCheck ∧ FreesCopy (s.takingBase x f) x c t := by
  rcases h with ⟨rfl, h⟩ | ⟨rfl, h⟩
  · exact ⟨_, _, congrArg _ (taking_of_takesFrame h _ _), freesCopy_releaseTaken _ x c k⟩
  · exact ⟨_, _, congrArg _ (taking_of_takesFrame h _ _), freesCopy_reclaimTaken _ x c⟩

/-- Settles O21: what a RELEASE or RECLAIM leaves has the items of the freed copy. -/
theorem releaseAndReclaimFreeTheCall : Obligations.ReleaseAndReclaimFreeTheCall := by
  unfold Obligations.ReleaseAndReclaimFreeTheCall
  intro s x c k cmd h hl
  obtain ⟨f, t, hexec, ht⟩ := FreesCall.exec h
  have hcalm := ht.calm.leaveCheck
  have hl' : SlotLaw (s.takingBase x f).smu := by rwa [takingBase_smu]
  refine ⟨_, hexec, sameFixtures_of_taken hcalm, sameStation_of_taken hcalm, ?_, fun hc hx => ?_, fun h hh hc => ?_, ?_, ?_⟩
  · rw [leaveCheck_smu, ht.items.has, freedCopy_has]
  · rw [leaveCheck_smu, ht.unchanged (by simpa using hc) (by simpa using hx), takingBase_smu]
  · obtain ⟨⟨g, hg, hkeep⟩, -⟩ := ht.items
    have hmem : h ∈ ((s.takingBase x f).freedCopy c).holds := mem_freedCopy_holds.mpr (.inl ⟨by simpa using hh, hc⟩)
    exact ⟨g h, by rw [leaveCheck_smu, hg]; exact List.mem_map_of_mem hmem, hkeep h⟩
  · obtain ⟨granted, hsplit, hheld⟩ := freedCopy_granted (c := c) hl'
    refine ⟨granted, ?_, fun g hg => ?_⟩
    · rw [leaveCheck_smu, ht.items.waits_cid, ← hsplit, takingBase_smu]
    · obtain ⟨h, hh, -⟩ := hheld g hg
      have := congrArg Option.isSome (ht.items.holdOf g)
      simpa [hh] using this
  · rw [leaveCheck_smu, ht.items.freeCount]
    refine (freedCopy_done hl').imp (fun hw => ?_) id
    have := ht.items.waits_cid
    rw [hw] at this
    simpa using this

end Sys2Proof.Machine
end

section
/-! PROOFS. Stale self-release, and notices posted in turn (R74, R180). -/

namespace Sys2Proof.Machine

/-! ### Notices posted in turn -/

theorem PostsInTurn.of_sport {ns : List Notice} {s t u : State} (h : PostsInTurn ns s t) (hu : u.sport = t.sport) :
    PostsInTurn ns s u := by
  unfold PostsInTurn at h ⊢; rw [hu]; exact h

theorem PostsInTurn.from_sport {ns : List Notice} {s s' t : State} (h : PostsInTurn ns s t) (hs : s'.sport = s.sport) :
    PostsInTurn ns s' t := by
  unfold PostsInTurn at h ⊢; rw [hs]; exact h

theorem PostsInTurn.nil (s : State) : PostsInTurn [] s s := by
  refine ⟨?_, ?_⟩
  · rw [List.append_nil, List.take_of_length_le (le_max_right _ _)]
  · simp

theorem postsInTurn_post (s : State) (n : Notice) : PostsInTurn [n] s (s.post n) := by
  unfold State.post
  split
  · rename_i h
    refine ⟨?_, ?_⟩
    · rw [List.take_of_length_le (by simp; omega)]; rfl
    · have : ¬ max Config.noticeCap s.sport.notices.length < s.sport.notices.length + [n].length := by
        simp only [List.length_singleton]; omega
      simp only [this, decide_false, Bool.or_false]
      rfl
  · rename_i h
    refine ⟨?_, ?_⟩
    · rw [max_eq_right (by omega), List.take_left]
    · have : max Config.noticeCap s.sport.notices.length < s.sport.notices.length + [n].length := by
        simp only [List.length_singleton]; omega
      rw [decide_eq_true this, Bool.or_true]

theorem take_take_append {α : Type} (l m : List α) (n : Nat) : (l.take n ++ m).take n = (l ++ m).take n := by
  by_cases h : l.length ≤ n
  · rw [List.take_of_length_le h]
  · have h1 : (l.take n ++ m).take n = (l.take n).take n :=
      List.take_append_of_le_length (by rw [List.length_take]; omega)
    rw [h1, List.take_take, min_self, List.take_append_of_le_length (by omega)]

theorem PostsInTurn.trans {ns ms : List Notice} {s t u : State} (h : PostsInTurn ns s t) (k : PostsInTurn ms t u) :
    PostsInTurn (ns ++ ms) s u := by
  obtain ⟨hn, ho⟩ := h
  obtain ⟨kn, ko⟩ := k
  have hlen : t.sport.notices.length
      = min (max Config.noticeCap s.sport.notices.length) (s.sport.notices.length + ns.length) := by
    rw [hn, List.length_take, List.length_append]
  have hcap : max Config.noticeCap t.sport.notices.length = max Config.noticeCap s.sport.notices.length := by omega
  refine ⟨?_, ?_⟩
  · rw [kn, hcap, hn, take_take_append, List.append_assoc]
  · rw [ko, ho, hcap, Bool.or_assoc, ← Bool.decide_or]
    congr 2
    rw [List.length_append]
    exact propext (by omega)

/-! ### Contexts and the other parts -/

theorem setCtx_post (s : State) (i : Ref) (c : Option Ctx) (n : Notice) : (s.setCtx i c).post n = (s.post n).setCtx i c := by
  unfold State.post
  by_cases h : s.sport.notices.length < Config.noticeCap
  · have h' : (s.setCtx i c).sport.notices.length < Config.noticeCap := h
    rw [if_pos h, if_pos h']; rfl
  · have h' : ¬ (s.setCtx i c).sport.notices.length < Config.noticeCap := h
    rw [if_neg h, if_neg h']; rfl

theorem setCtx_queueFrame (s : State) (i : Ref) (c : Option Ctx) (f : Frame) :
    (s.setCtx i c).queueFrame f = (s.queueFrame f).setCtx i c := by
  unfold State.queueFrame
  by_cases h : s.accepts f = true
  · have h' : (s.setCtx i c).accepts f = true := h
    rw [if_pos h, if_pos h']; rfl
  · have h' : ¬ (s.setCtx i c).accepts f = true := h
    rw [if_neg h, if_neg h']

theorem setCtx_setCtx (s : State) (i : Ref) (c d : Option Ctx) : (s.setCtx i c).setCtx i d = s.setCtx i d := by
  simp [State.setCtx, Vector.set_set]

theorem modifyCtx_live {s : State} {i : Ref} {y : Ctx} (h : s.ctx i = some y) (f : Ctx → Ctx) :
    s.modifyCtx i f = s.setCtx i (some (f y)) := by rw [State.modifyCtx, h]

/-- RIF takes a call's frame where it sends and fewer than eight of them wait (R48). -/
theorem accepts_call {s : State} {f : Frame} (hf : frameCategory f = .call) :
    s.accepts f = true ↔ s.stc.state.sends = true ∧ s.rif.count .call < 8 := by
  simp [State.accepts, hf, Category.allowance, Config.callFrames]

theorem count_queueFrame {s : State} {f : Frame} (h : s.accepts f = true) (k : Category) :
    (s.queueFrame f).rif.count k = s.rif.count k + if frameCategory f = k then 1 else 0 := by
  rw [queueFrame_accepted h]
  simp [Rif.count, List.countP_append, List.countP_cons]

/-! ### Free contexts -/

/-- The free contexts, ascending (R101). -/
def State.freeRefs (s : State) : List Ref := refs.filter fun i => (s.ctx i).isNone

theorem freeRef_eq (s : State) : s.freeRef = s.freeRefs.head? := List.head?_filter.symm

theorem nodup_freeRefs (s : State) : s.freeRefs.Nodup := List.Nodup.filter _ (by decide)

theorem mem_freeRefs {s : State} {i : Ref} : i ∈ s.freeRefs ↔ s.ctx i = none := by
  simp [State.freeRefs, mem_refs]

/-- Four contexts are live or free (R100). -/
theorem liveCount_add_freeRefs (s : State) : s.liveCount + s.freeRefs.length = 4 := by
  have h := List.length_eq_countP_add_countP (fun i => (s.ctx i).isSome) (l := refs)
  have hnone : (fun i => decide ¬ (s.ctx i).isSome = true) = fun i => (s.ctx i).isNone := by
    funext i; cases s.ctx i <;> rfl
  rw [hnone] at h
  rw [State.liveCount, State.freeRefs, ← List.countP_eq_length_filter, ← h]
  rfl

theorem freeRefs_setCtx {s : State} {i : Ref} {rest : List Ref} (h : s.freeRefs = i :: rest) (y : Ctx) :
    (s.setCtx i (some y)).freeRefs = rest := by
  have hnotin : i ∉ rest := (List.nodup_cons.mp (h ▸ nodup_freeRefs s)).1
  have hfilter : (s.setCtx i (some y)).freeRefs = s.freeRefs.filter fun j => j ≠ i := by
    rw [State.freeRefs, State.freeRefs, List.filter_filter]
    refine List.filter_congr fun j _ => ?_
    by_cases hj : j = i <;> simp [hj]
  rw [hfilter, h, List.filter_cons]
  simp only [ne_eq, not_true_eq_false, decide_false, Bool.false_eq_true, if_false]
  exact List.filter_eq_self.mpr fun j hj => decide_eq_true fun hji => hnotin (hji ▸ hj)

/-! ### Stale self-release -/

/-- The frame that releases a stale call (R74). -/
def staleFrame (c : CallId) : Frame := .release c 0x15#8

theorem releaseStale_none {s : State} {c : CallId} (h : s.role.limit ≤ s.liveCount ∨ s.freeRefs = []) : s.releaseStale c = s := by
  unfold State.releaseStale
  split
  · rfl
  · rename_i hl
    rw [freeRef_eq, h.resolve_left (by omega)]
    rfl

/-- A stale call within the role limit takes the lowest free context, its CALL_ENDED posted and its RELEASE queued (R74). -/
theorem releaseStale_some {s : State} {c : CallId} {i : Ref} {rest : List Ref} (hl : s.liveCount < s.role.limit)
    (hf : s.freeRefs = i :: rest) (ha : s.accepts (staleFrame c) = true) :
    s.releaseStale c = ((s.post (.callEnded i c (some .stale))).queueFrame (staleFrame c)).setCtx i (some (staleCtx c)) := by
  have ha' : ∀ y, ((s.post (.callEnded i c (some .stale))).setCtx i y).accepts (staleFrame c) = true := fun y => by
    simpa [State.accepts] using ha
  unfold State.releaseStale
  rw [if_neg (by omega), freeRef_eq, hf]
  simp only [List.head?_cons, State.postEnd, State.ctx_setCtx, if_true, Bool.false_eq_true, if_false, setCtx_post, setCtx_setCtx]
  simp only [State.queueRelease, State.ctx_setCtx, if_true]
  rw [if_pos (by exact ha' _), setCtx_queueFrame, State.setAwaits, modifyCtx_live (by simp; rfl), setCtx_setCtx]
  rfl

/-- What stale self-release leaves: its contexts, its frames and its notices, and all else as it stood (R74). -/
structure StaleReleased (taken : List (Ref × CallId)) (s t : State) : Prop where
  contexts : SelfReleased taken s t
  live : ∀ i y, s.ctx i = some y → t.ctx i = some y
  queue : t.rif.queue = s.rif.queue ++ staleReleases taken
  posts : PostsInTurn (staleNotices taken) s t
  path : t.path = s.path
  recalls : t.rif.recalls = s.rif.recalls

theorem StaleReleased.nil (s : State) : StaleReleased [] s s :=
  ⟨⟨by simp, fun _ h _ => h⟩, fun _ _ h => h, by simp [staleReleases], PostsInTurn.nil s, rfl, rfl⟩

/-- One more stale call taken before others. -/
theorem StaleReleased.cons {taken : List (Ref × CallId)} {s t : State} {i : Ref} {c : CallId} (hi : s.ctx i = none)
    (ha : (s.post (.callEnded i c (some .stale))).accepts (staleFrame c) = true)
    (h : StaleReleased taken
      (((s.post (.callEnded i c (some .stale))).queueFrame (staleFrame c)).setCtx i (some (staleCtx c))) t) :
    StaleReleased ((i, c) :: taken) s t := by
  obtain ⟨⟨htaken, hfree⟩, hlive, hqueue, hposts, hpath, hrecalls⟩ := h
  refine ⟨⟨fun p hp => ?_, fun j hj hnot => ?_⟩, fun j y hj => ?_, ?_, ?_, ?_, ?_⟩
  · rcases List.mem_cons.mp hp with rfl | hp
    · exact hlive i _ (by simp)
    · exact htaken p hp
  · simp only [List.map_cons, List.mem_cons, not_or] at hnot
    exact hfree j (by simpa [hnot.1] using hj) hnot.2
  · have hji : j ≠ i := by rintro rfl; rw [hi] at hj; cases hj
    exact hlive j y (by simpa [hji] using hj)
  · rw [hqueue, State.setCtx_rif, queueFrame_queue, if_pos ha, State.post_rif, List.append_assoc]
    rfl
  · exact (postsInTurn_post s _).trans (hposts.from_sport (by simp))
  · rw [hpath]; simp
  · rw [hrecalls]; simp

/-- The stale calls in turn, with room in the queue for one frame of each free context. -/
theorem foldl_releaseStale (cs : List CallId) : ∀ s : State, s.stc.state.sends = true →
    s.rif.count .call + s.freeRefs.length ≤ 8 →
    StaleReleased (s.freeRefs.zip (cs.take (s.role.limit - s.liveCount))) s (cs.foldl State.releaseStale s) := by
  induction cs with
  | nil => intro s _ _; simpa using StaleReleased.nil s
  | cons c cs ih =>
    intro s hs hc
    rw [List.foldl_cons]
    by_cases hl : s.role.limit ≤ s.liveCount
    · rw [releaseStale_none (.inl hl)]
      have := ih s hs hc
      rwa [Nat.sub_eq_zero_of_le hl, List.take_zero] at this ⊢
    cases hf : s.freeRefs with
    | nil =>
      rw [releaseStale_none (.inr hf)]
      have := ih s hs hc
      rwa [hf, List.zip_nil_left] at this
    | cons i rest =>
      have hacc : s.accepts (staleFrame c) = true := by
        refine (accepts_call rfl).mpr ⟨hs, ?_⟩
        rw [hf, List.length_cons] at hc
        omega
      have hstep := releaseStale_some (not_le.mp hl) hf hacc
      have hacc' : (s.post (.callEnded i c (some .stale))).accepts (staleFrame c) = true := by simpa [State.accepts] using hacc
      have hlive := liveCount_add_freeRefs s
      have hbase : ((s.post (.callEnded i c (some .stale))).queueFrame (staleFrame c)).freeRefs = i :: rest := by
        rw [← hf]; simp [State.freeRefs]
      have hfree := freeRefs_setCtx hbase (staleCtx c)
      have hlive' := liveCount_add_freeRefs (s.releaseStale c)
      have hcount : (s.releaseStale c).rif.count .call = s.rif.count .call + 1 := by
        rw [hstep]
        exact (count_queueFrame hacc' .call).trans (by simp [staleFrame, frameCategory, Frame.kind])
      have hrole : (s.releaseStale c).role = s.role := by rw [hstep]; simp [State.role]
      rw [← hstep] at hfree
      rw [hfree] at hlive'
      rw [hf, List.length_cons] at hlive hc
      have htail := ih (s.releaseStale c) (by rw [hstep]; simpa using hs) (by rw [hcount, hfree]; omega)
      rw [hfree, hrole, show s.role.limit - (s.releaseStale c).liveCount = s.role.limit - s.liveCount - 1 by omega] at htail
      obtain ⟨n, hn⟩ : ∃ n, s.role.limit - s.liveCount = n + 1 := ⟨s.role.limit - s.liveCount - 1, by omega⟩
      rw [hn] at htail ⊢
      exact StaleReleased.cons (mem_freeRefs.mp (hf ▸ List.mem_cons_self)) hacc' (hstep ▸ htail)

/-- Stale self-release with room in the queue for one frame of each free context (R74). -/
theorem staleReleased_of_room {s : State} (hs : s.stc.state.sends = true) (hc : s.rif.count .call + s.freeRefs.length ≤ 8) :
    StaleReleased (s.staleTaken (s.smu.holds.map Hold.cid ++ s.smu.waits.map WaitEntry.cid)) s s.staleSelfRelease :=
  foldl_releaseStale _ s hs hc

/-- Which stale calls are taken depends on the live contexts' call ids and on the settings alone. -/
theorem staleTaken_congr {s t : State} (hc : ∀ i, (t.ctx i).map Ctx.cid = (s.ctx i).map Ctx.cid)
    (hconfig : t.sport.config = s.sport.config) (items : List CallId) : t.staleTaken items = s.staleTaken items := by
  have hsome : ∀ i, (t.ctx i).isSome = (s.ctx i).isSome := fun i => by simpa using congrArg Option.isSome (hc i)
  have hnone : ∀ i, (t.ctx i).isNone = (s.ctx i).isNone := fun i => by simpa using congrArg Option.isNone (hc i)
  have hfind : ∀ c, t.findCall c = s.findCall c := fun c => by
    refine congrArg (fun p => List.find? p refs) (funext fun i => ?_)
    have := hc i
    cases ht : t.ctx i <;> cases hs : s.ctx i <;> simp_all
  simp only [State.staleTaken, State.role, State.own, State.liveCount, hsome, hnone, hfind, hconfig]
  rfl

end Sys2Proof.Machine
end

section
/-! PROOFS. The end of learning: the buffer applied at a station without contexts, and the stale calls released (R67, R68, R74). -/

namespace Sys2Proof.Machine

/-! ### Operations at a station without contexts -/

section Free

variable {s : State} (h : ∀ i, s.ctx i = none)
include h

theorem eachCtx_of_free (f : State → Ref → Ctx → State) : s.eachCtx f = s := by
  rw [eachCtx_eq, visit_free (h 0), visit_free (h 1), visit_free (h 2), visit_free (h 3)]

theorem sendRelease_of_free (i : Ref) : s.sendRelease i = s := by rw [State.sendRelease, h i]

theorem foldl_sendRelease_of_free (l : List Ref) : l.foldl State.sendRelease s = s := by
  induction l with
  | nil => rfl
  | cons i l ih => rw [List.foldl_cons, sendRelease_of_free h, ih]

theorem reckonOwner_of_free : ∃ p, s.reckonOwner = { s with path := p } := by
  have hpost : ∀ p i b, State.postPath { s with path := p } i b = { s with path := p } := fun p i b => by
    have hi : ({ s with path := p } : State).ctx i = none := h i
    rw [State.postPath, hi]
  unfold State.reckonOwner
  dsimp only
  split
  · exact ⟨s.path, rfl⟩
  · split
    · split
      · split
        · exact ⟨_, hpost _ _ _⟩
        · exact ⟨_, rfl⟩
      · exact ⟨_, rfl⟩
    · exact ⟨_, rfl⟩

/-- A change report finds no context to act on: PATH alone changes (R12, R157). -/
theorem changeReport_of_free (r : Report) : ∃ p, s.changeReport r = { s with path := p } := by
  have hown : ∀ p, ∃ q, (({ s with path := p } : State).eachCtx (State.reportAt r)).reckonOwner = { s with path := q } := fun p => by
    have hp : ∀ i, ({ s with path := p } : State).ctx i = none := h
    obtain ⟨q, hq⟩ := reckonOwner_of_free hp
    exact ⟨q, by rw [eachCtx_of_free hp, hq]⟩
  unfold State.changeReport
  cases hf : r.freed with
  | none => exact hown s.path
  | some cb =>
    have hb : ∀ i, (s.freeBlock cb.2).ctx i = none := h
    dsimp only
    rw [foldl_sendRelease_of_free hb]
    exact hown _

theorem claimTaken_of_free (x : Byte) (c : CallId) (b w : Byte) :
    ∃ p, s.claimTaken x c b w = { s with smu := s.claimCopy x c b.toNat w.toNat, path := p } := by
  cases ht : claimTest s.smu x c b.toNat w.toNat with
  | none =>
    have h1 : ∀ i, (s.addHold c (b.toNat, w.toNat)).ctx i = none := h
    rw [claimTaken_success ht, State.claimOutcome, eachCtx_of_free h1, State.claimCopy, if_pos ht]
    exact changeReport_of_free h1 _
  | some r =>
    rw [claimTaken_failure ht, State.claimOutcome, eachCtx_of_free h, State.claimCopy, if_neg (by simp [ht])]
    exact changeReport_of_free h _

/-- The copy after a WAIT: appended and scanned where the test succeeds (R27). -/
def State.waitCopy (s : State) (x : Byte) (c : CallId) (w : Nat) : Smu :=
  if waitTest s.smu x c w = none then (s.appendWait c w).grantScan.smu else s.smu

theorem waitTaken_of_free (x : Byte) (c : CallId) (w : Byte) :
    ∃ p, s.waitTaken x c w = { s with smu := s.waitCopy x c w.toNat, path := p } := by
  unfold State.waitTaken
  cases ht : waitTest s.smu x c w.toNat with
  | none =>
    have h1 : ∀ i, (s.appendWait c w.toNat).grantScan.ctx i = none := h
    simp only [State.waitOutcome, eachCtx_of_free h1, State.waitCopy, ht, if_true]
    exact changeReport_of_free h1 _
  | some r =>
    simp only [State.waitOutcome, eachCtx_of_free h, State.waitCopy, ht, reduceCtorEq, if_false]
    exact changeReport_of_free h _

theorem freeCall_of_free (k : FrameKind) (x : Byte) (c : CallId) (cause : Option Byte) :
    ∃ p, s.freeCall k x c cause = { s.freedBase c with path := p } := by
  have h1 : ∀ i, (s.freedBase c).ctx i = none := fun i => (ctx_askRecall _ _ i).trans (h i)
  rw [freeCall_eq]
  exact changeReport_of_free h1 _

end Free

/-- The blocks but SMU, UDIR and PATH stand as they stood, and no call's frame was queued. -/
structure Quiet (s t : State) : Prop where
  now : t.now = s.now
  eventNo : t.eventNo = s.eventNo
  ctxs : t.ctxs = s.ctxs
  stc : t.stc = s.stc
  sport : t.sport = s.sport
  calls : t.rif.count .call = s.rif.count .call

theorem Quiet.refl (s : State) : Quiet s s := ⟨rfl, rfl, rfl, rfl, rfl, rfl⟩

theorem Quiet.ctx {s t : State} (h : Quiet s t) (i : Ref) : t.ctx i = s.ctx i := State.ctx_congr h.ctxs i

theorem quiet_freedBase (s : State) (c : CallId) (p : Path) : Quiet s { s.freedBase c with path := p } := by
  constructor <;> simp [State.freedBase, Rif.count]

theorem quiet_nextOverdue (s : State) : Quiet s s.nextOverdue ∧ s.nextOverdue.udir = s.udir := by
  rcases nextOverdue_eq s with h | ⟨c, h⟩
  · rw [h]; exact ⟨Quiet.refl s, rfl⟩
  · rw [h]
    refine ⟨⟨by simp, by simp, by simp, by simp, by simp, ?_⟩, by simp⟩
    rw [State.setAudit_rif]
    cases ha : s.accepts (.reclaim c) with
    | true => rw [count_queueFrame ha]; rfl
    | false => rw [queueFrame_full ha]

theorem Quiet.trans {s t u : State} (h : Quiet s t) (k : Quiet t u) : Quiet s u :=
  ⟨k.now.trans h.now, k.eventNo.trans h.eventNo, k.ctxs.trans h.ctxs, k.stc.trans h.stc, k.sport.trans h.sport,
    k.calls.trans h.calls⟩

theorem quiet_releaseTaken {s : State} (h : ∀ i, s.ctx i = none) (x : Byte) (c : CallId) (k : Byte) :
    Quiet s (s.releaseTaken x c k) ∧ (s.releaseTaken x c k).udir = s.udir := by
  obtain ⟨p, hp⟩ := freeCall_of_free h .release x c (some k)
  rw [State.releaseTaken, hp]
  exact ⟨quiet_freedBase s c p, by simp [State.freedBase]⟩

theorem quiet_reclaimTaken {s : State} (h : ∀ i, s.ctx i = none) (x : Byte) (c : CallId) :
    Quiet s (s.reclaimTaken x c) ∧ (s.reclaimTaken x c).udir = s.udir := by
  have hfirst : ∃ u : State, u = (if s.smu.has c then s.freeCall .reclaim x c none
      else s.changeReport (s.removalReport .reclaim x c none)) ∧ Quiet s u ∧ u.udir = s.udir := by
    refine ⟨_, rfl, ?_⟩
    split
    · obtain ⟨p, hp⟩ := freeCall_of_free h .reclaim x c none
      rw [hp]
      exact ⟨quiet_freedBase s c p, by simp [State.freedBase]⟩
    · obtain ⟨p, hp⟩ := changeReport_of_free h (s.removalReport .reclaim x c none)
      rw [hp]
      exact ⟨⟨rfl, rfl, rfl, rfl, rfl, rfl⟩, rfl⟩
  obtain ⟨u, hu, hq, hd⟩ := hfirst
  unfold State.reclaimTaken
  dsimp only
  rw [← hu]
  split
  · exact ⟨hq.trans (quiet_nextOverdue u).1, (quiet_nextOverdue u).2.trans hd⟩
  · exact ⟨hq, hd⟩

/-! ### A buffered frame -/

/-- A buffered frame is an event of its own, and at a station without contexts it is quiet (R68). -/
theorem quiet_applyBuffered {s : State} (h : ∀ i, s.ctx i = none) (x : Byte × Frame) :
    Quiet s.newEvent (s.applyBuffered x) := by
  have h1 : ∀ i, s.newEvent.ctx i = none := h
  obtain ⟨x, f⟩ := x
  cases f with
  | claim c b w =>
    obtain ⟨p, hp⟩ := claimTaken_of_free h1 x c b w
    show Quiet s.newEvent (s.newEvent.claimTaken x c b w)
    rw [hp]
    exact ⟨rfl, rfl, rfl, rfl, rfl, rfl⟩
  | wait c w =>
    obtain ⟨p, hp⟩ := waitTaken_of_free h1 x c w
    show Quiet s.newEvent (s.newEvent.waitTaken x c w)
    rw [hp]
    exact ⟨rfl, rfl, rfl, rfl, rfl, rfl⟩
  | release c k => exact (quiet_releaseTaken h1 x c k).1
  | reclaim c => exact (quiet_reclaimTaken h1 x c).1
  | join r u w => exact ⟨rfl, rfl, rfl, rfl, rfl, rfl⟩
  | offer u w =>
    show Quiet s.newEvent (s.newEvent.directoryOffer x u w)
    unfold State.directoryOffer
    split <;> exact ⟨rfl, rfl, rfl, rfl, rfl, rfl⟩
  | leave => exact ⟨rfl, rfl, rfl, rfl, rfl, rfl⟩
  | _ => exact Quiet.refl _

/-- The whole buffer, at a station without contexts. -/
theorem quiet_buffer (l : List (Byte × Frame)) : ∀ s : State, (∀ i, s.ctx i = none) →
    (l.foldl State.applyBuffered s).ctxs = s.ctxs ∧ (l.foldl State.applyBuffered s).stc = s.stc
      ∧ (l.foldl State.applyBuffered s).sport = s.sport
      ∧ (l.foldl State.applyBuffered s).rif.count .call = s.rif.count .call := by
  induction l with
  | nil => exact fun _ _ => ⟨rfl, rfl, rfl, rfl⟩
  | cons x l ih =>
    intro s h
    have hq := quiet_applyBuffered h x
    obtain ⟨h1, h2, h3, h4⟩ := ih (s.applyBuffered x) fun i => (hq.ctx i).trans (h i)
    exact ⟨h1.trans hq.ctxs, h2.trans hq.stc, h3.trans hq.sport, h4.trans hq.calls⟩

theorem calm_waitTaken (s : State) (x : Byte) (c : CallId) (w : Byte) : ∃ m, Calm { s with smu := m } (s.waitTaken x c w) := by
  unfold State.waitTaken
  dsimp only
  split
  · exact ⟨_, ((Calm.refl (s.appendWait c w.toNat).grantScan).waitOutcome _ _ _).changeReport _⟩
  · exact ⟨_, ((Calm.refl s).waitOutcome _ _ _).changeReport _⟩

/-- A buffered frame leaves the fixtures alone. -/
theorem sameFixtures_applyBuffered (s : State) (x : Byte × Frame) : SameFixtures s (s.applyBuffered x) := by
  have hcalm : ∀ {m : Smu} {t : State}, Calm { s.newEvent with smu := m } t → SameFixtures s t := fun h => h.sameFixtures
  have hrefl : SameFixtures s s.newEvent := (Calm.refl s.newEvent).sameFixtures
  obtain ⟨x, f⟩ := x
  cases f with
  | claim c b w => exact hcalm (calm_claimTaken s.newEvent x c b w)
  | wait c w => exact hcalm (calm_waitTaken s.newEvent x c w).choose_spec
  | release c k => exact hcalm (freesCopy_releaseTaken s.newEvent x c k).calm
  | reclaim c => exact hcalm (freesCopy_reclaimTaken s.newEvent x c).calm
  | offer u w =>
    show SameFixtures s (s.newEvent.directoryOffer x u w)
    unfold State.directoryOffer
    split <;> exact hrefl
  | _ => exact hrefl

theorem sameFixtures_buffer (l : List (Byte × Frame)) : ∀ s : State, SameFixtures s (l.foldl State.applyBuffered s) := by
  induction l with
  | nil => exact fun s => (Calm.refl s).sameFixtures
  | cons x l ih => exact fun s => (sameFixtures_applyBuffered s x).trans (ih _)

/-! ### JOINED -/

/-- The station as learning ends, before the stale calls are released (R67, R68). -/
def State.learned (s : State) (o : LearnOutcome) : State := ((s.stopLearning).setOutcome o).moveTo .joined .learned

theorem calm_becomeJoined (s : State) (o : LearnOutcome) : Calm (s.learned o) (s.becomeJoined o) := (Calm.refl _).staleSelfRelease

section Learned

variable (s : State) (o : LearnOutcome)

@[simp] theorem learned_smu : (s.learned o).smu = s.smu := by simp [State.learned, State.moveTo]
@[simp] theorem learned_ctxs : (s.learned o).ctxs = s.ctxs := by simp [State.learned, State.moveTo]
@[simp] theorem learned_rif : (s.learned o).rif = s.rif := by simp [State.learned, State.moveTo]
@[simp] theorem learned_udir : (s.learned o).udir = s.udir := by simp [State.learned, State.moveTo]
@[simp] theorem learned_config : (s.learned o).sport.config = s.sport.config := by simp [State.learned, State.moveTo]
@[simp] theorem ctx_learned (i : Ref) : (s.learned o).ctx i = s.ctx i := State.ctx_congr (by simp) i

theorem learned_stc :
    (s.learned o).stc = { s.stc with
      state := .joined, locked := true, buffer := [], learn := none, stagger := none, outcome := o } := by
  rw [State.learned, State.moveTo, State.post_stc]
  rfl

theorem sameFixtures_learned : SameFixtures s (s.learned o) := by
  refine ⟨?_, ?_, ?_, ?_, ?_, ?_, ?_, ?_, ?_, ?_, ?_, ?_, ?_, ?_, ?_⟩ <;> simp [State.learned, State.moveTo]

/-- A learner is JOINED with its outcome and an empty buffer, and holds the copy and the directory it has learnt (R67, R68). -/
theorem becomeJoined_spec {t : State} (ht : t = s.becomeJoined o) :
    t.stc.state = .joined ∧ t.stc.locked = true ∧ t.stc.buffer = [] ∧ t.stc.learn = none ∧ t.stc.stagger = none
      ∧ t.stc.outcome = o ∧ t.smu = s.smu ∧ t.udir.lines = s.udir.lines ∧ SameFixtures s t := by
  subst ht
  have hcalm := calm_becomeJoined s o
  obtain ⟨h1, h2, h3, h4, h5, h6, h7⟩ := hcalm.sameStation
  rw [learned_stc] at h1 h2 h3 h4 h5 h6
  rw [learned_udir] at h7
  exact ⟨h1, h2, h3, h4, h5, h6, hcalm.smu.trans (learned_smu s o), h7, (sameFixtures_learned s o).trans hcalm.sameFixtures⟩

/-- Its stale calls are released after the STATION notice (R74). -/
theorem becomeJoined_stale (hc : s.rif.count .call ≤ 4) {taken : List (Ref × CallId)}
    (ht : taken = s.staleTaken (s.smu.holds.map Hold.cid ++ s.smu.waits.map WaitEntry.cid)) :
    SelfReleased taken s (s.becomeJoined o) ∧ (s.becomeJoined o).rif.queue = s.rif.queue ++ staleReleases taken
      ∧ PostsInTurn (.station s.stc.state .joined .learned :: staleNotices taken) s (s.becomeJoined o) := by
  have hroom : (s.learned o).rif.count .call + (s.learned o).freeRefs.length ≤ 8 := by
    have := liveCount_add_freeRefs (s.learned o)
    rw [learned_rif]; omega
  have hr := staleReleased_of_room (s := s.learned o) (by rw [learned_stc]; rfl) hroom
  rw [staleTaken_congr (s := s) (fun i => by rw [ctx_learned]) (learned_config s o), learned_smu, ← ht] at hr
  obtain ⟨⟨h1, h2⟩, -, hqueue, hposts, -, -⟩ := hr
  refine ⟨⟨h1, fun i hi hnot => h2 i (by rw [ctx_learned]; exact hi) hnot⟩, by rw [← learned_rif s o]; exact hqueue, ?_⟩
  have hfirst : PostsInTurn [.station s.stc.state .joined .learned] s (s.learned o) := (postsInTurn_post _ _).from_sport rfl
  exact hfirst.trans hposts

end Learned

/-! ### The effect of a buffered frame -/

theorem scanFrom_full {mk : CallId → Block → Hold} {hs : List Hold} (h : freeCount hs = 0) (ws : List WaitEntry) :
    scanFrom mk hs ws = ⟨hs, ws, []⟩ := by
  cases ws with
  | nil => rfl
  | cons w ws => exact scanFrom_stop (placement_eq_none.mpr (.inl h)) ws

theorem waitCopy_refused {s : State} {x : Byte} {c : CallId} {w : Nat} (h : waitTest s.smu x c w ≠ none) :
    s.waitCopy x c w = s.smu := if_neg h

/-- With no channel free an added entry stands last in the list (R27). -/
theorem waitCopy_full {s : State} {x : Byte} {c : CallId} {w : Nat} (h : waitTest s.smu x c w = none)
    (hf : freeCount s.smu.holds = 0) : s.waitCopy x c w = (s.appendWait c w).smu := by
  have hf' : freeCount (s.appendWait c w).smu.holds = 0 := hf
  rw [State.waitCopy, if_pos h, State.grantScan, scanFrom_full hf']

/-- With a channel free an added entry is granted at once (R27, R30). -/
theorem waitCopy_granted {s : State} {x : Byte} {c : CallId} {w : Nat} (hl : SlotLaw s.smu) (h : waitTest s.smu x c w = none)
    (hf : freeCount s.smu.holds ≠ 0) :
    ∃ k, placement s.smu.holds w = some k ∧ s.waitCopy x c w = ⟨insertHold (s.newHold c k) s.smu.holds, []⟩ := by
  have hwf : ¬ WaitMalformed x c w := fun hm => by rw [waitTest_of_malformed hm] at h; cases h
  have hpos : w ≠ 0 := by rintro rfl; exact hwf (.inl (by omega))
  have hw : s.smu.waits = [] := hl.2.2.2.2.2.resolve_right hf
  obtain ⟨k, hk⟩ := Option.ne_none_iff_exists'.mp (fun hn => (placement_eq_none.mp hn).elim hf hpos)
  refine ⟨k, hk, ?_⟩
  have happend : (s.appendWait c w).smu = ⟨s.smu.holds, [⟨c, w, s.stamp, s.waitAudit⟩]⟩ := by
    simp [State.appendWait, hw]
  rw [State.waitCopy, if_pos h, State.grantScan, happend]
  simp only [scanFrom_grant (w := ⟨c, w, s.stamp, s.waitAudit⟩) hk, scanFrom_nil]
  rfl

/-- What a freed copy shows, audits apart, by the rules of the statement (R9 to R11, R30). -/
theorem FreesCopy.frees {s t : State} {x : Byte} {c : CallId} (h : FreesCopy s x c t) (hl : SlotLaw s.smu) :
    t.smu.has c = false ∧ (t.smu.waits = [] ∨ freeCount t.smu.holds = 0)
      ∧ (s.smu.has c = false → x ≠ s.own → t.smu = s.smu)
      ∧ (∀ h ∈ s.smu.holds, h.cid ≠ c →
        ∃ h' ∈ t.smu.holds, h'.cid = h.cid ∧ h'.base = h.base ∧ h'.width = h.width ∧ h'.age = h.age)
      ∧ ∃ granted, (s.smu.waits.filter fun w => w.cid ≠ c).map WaitEntry.cid = granted ++ t.smu.waits.map WaitEntry.cid
        ∧ ∀ g ∈ granted, ∃ h, t.smu.holdOf g = some h ∧ h.age = s.stamp := by
  obtain ⟨granted, hsplit, hheld⟩ := freedCopy_granted (c := c) hl
  refine ⟨by rw [h.items.has, freedCopy_has], ?_, h.unchanged, fun g hg hc => ?_, granted, ?_, fun g hg => ?_⟩
  · rw [h.items.freeCount]
    refine (freedCopy_done hl).imp (fun hw => ?_) id
    simpa [hw] using h.items.waits_cid
  · obtain ⟨⟨f, hf, hkeep⟩, -⟩ := h.items
    exact ⟨f g, by rw [hf]; exact List.mem_map_of_mem (mem_freedCopy_holds.mpr (.inl ⟨hg, hc⟩)), hkeep g⟩
  · rw [hsplit, h.items.waits_cid]
  · obtain ⟨k, hk, hage⟩ := hheld g hg
    have hsame := h.items.holdOf g
    rw [hk] at hsame
    obtain ⟨k', hk', heq⟩ := Option.map_eq_some_iff.mp hsame
    exact ⟨k', hk', by rw [← hage]; exact (Prod.mk.inj (Prod.mk.inj (Prod.mk.inj heq).2).2).2⟩

/-- Settles O14: without contexts each buffered frame is quiet, and changes the copy or the directory by its own rule. -/
theorem learnTimerExpiryAppliesTheBuffer : Obligations.LearnTimerExpiryAppliesTheBuffer := by
  unfold Obligations.LearnTimerExpiryAppliesTheBuffer
  refine ⟨fun s e he => ?_, fun s x f hfree hl => ?_⟩
  · intro applied taken
    have hfix : SameFixtures (s.at e) applied := sameFixtures_buffer _ _
    obtain ⟨h1, h2, h3, h4, h5, h6, h7, h8, h9⟩ := becomeJoined_spec applied .empty rfl
    refine ⟨applied.becomeJoined .empty, ?_, ?_, h1, h2, h3, h4, h5, h6, h7, h8, ?_, fun hfree hc => ?_⟩
    · simp only [exec, execLearnTimerExpiry, he, State.expire]; rfl
    · exact (hfix.trans h9).1
    · exact (hfix.trans h9).2.2.2.2.2.2.2.2.2.2.2.2.2.1
    · obtain ⟨hctxs, hstc, hsport, hcalls⟩ := quiet_buffer s.stc.buffer (s.at e) hfree
      have hctx : ∀ i, applied.ctx i = s.ctx i := fun i => State.ctx_congr hctxs i
      have htaken : taken = applied.staleTaken (applied.smu.holds.map Hold.cid ++ applied.smu.waits.map WaitEntry.cid) :=
        (staleTaken_congr (fun i => by rw [hctx]) (by rw [hsport]; rfl) _).symm
      obtain ⟨⟨k1, k2⟩, k3, k4⟩ := becomeJoined_stale applied .empty (by rw [hcalls]; exact hc) htaken
      rw [hstc] at k4
      exact ⟨⟨k1, fun i hi => k2 i (by rw [hctx, hi])⟩, k3, k4.from_sport hsport.symm⟩
  · intro t ages held mapOnly linesOnly frees
    have hq : Quiet s.newEvent t := quiet_applyBuffered hfree (x, f)
    have ht : t = s.applyBuffered (x, f) := rfl
    have hfree' : ∀ i, s.newEvent.ctx i = none := hfree
    clear_value t
    have hmap : ∀ m p, t = { s.newEvent with smu := m, path := p } → mapOnly ∧ t.smu = m := fun m p h => by
      subst h; exact ⟨rfl, rfl⟩
    have hlines : ∀ v, t = { s.newEvent with udir := { s.udir with lines := v } } → linesOnly ∧ t.udir.lines = v := fun v h => by
      subst h; exact ⟨⟨rfl, rfl, rfl⟩, rfl⟩
    refine ⟨hq.now, hq.eventNo, hq.ctxs, hq.stc, hq.sport, ?_⟩
    cases f with
    | claim c b w =>
      obtain ⟨p, hp⟩ := claimTaken_of_free hfree' x c b w
      obtain ⟨hm, hsmu⟩ := hmap _ p (ht.trans hp)
      refine ⟨hm, ?_, ?_⟩
      · rw [hsmu, State.claimCopy]; split <;> rfl
      · rw [hsmu, State.claimCopy]
        by_cases hn : claimTest s.smu x c b.toNat w.toNat = none
        · rw [if_pos hn, if_pos (show claimTest s.newEvent.smu x c b.toNat w.toNat = none from hn)]; rfl
        · rw [if_neg hn, if_neg (show ¬ claimTest s.newEvent.smu x c b.toNat w.toNat = none from hn)]; rfl
    | wait c w =>
      obtain ⟨p, hp⟩ := waitTaken_of_free hfree' x c w
      obtain ⟨hm, hsmu⟩ := hmap _ p (ht.trans hp)
      rw [hsmu]
      exact ⟨hm, waitCopy_refused (s := s.newEvent), waitCopy_full (s := s.newEvent), waitCopy_granted (s := s.newEvent) hl⟩
    | release c k =>
      subst ht
      exact ⟨(quiet_releaseTaken hfree' x c k).2, (freesCopy_releaseTaken s.newEvent x c k).frees hl⟩
    | reclaim c =>
      subst ht
      exact ⟨(quiet_reclaimTaken hfree' x c).2, (freesCopy_reclaimTaken s.newEvent x c).frees hl⟩
    | join r u w => exact hlines _ ht
    | offer u w =>
      by_cases hu : u.toNat ≤ 9999
      · exact (hlines _ (ht.trans (if_pos hu))).imp id (·.trans (if_pos hu).symm)
      · exact (hlines _ (ht.trans (if_neg hu))).imp id (·.trans (if_neg hu).symm)
    | leave => exact hlines _ ht
    | _ => exact ht

end Sys2Proof.Machine
end

section
/-! PROOFS. A snapshot installed, and the SNAPSHOT that ends learning (R20, R67, R158). -/

namespace Sys2Proof.Machine

/-! ### The installed copy -/

/-- The copy as a snapshot installs it (R20). -/
def State.installedCopy (s : State) (hs : List SnapHold) (ws : List SnapWait) : Smu := (s.installCopy hs ws).smu

theorem byte_toNat (b : Byte) : byte b.toNat = b := by simp [byte]

section InstalledCopy

variable (s : State) (hs : List SnapHold) (ws : List SnapWait)

theorem installedCopy_snapHolds : (s.installedCopy hs ws).snapHolds = hs := by
  simp [State.installedCopy, State.installCopy, Smu.snapHolds, State.newHold, Function.comp_def, byte_toNat]

theorem installedCopy_snapWaits : (s.installedCopy hs ws).snapWaits = ws := by
  simp [State.installedCopy, State.installCopy, Smu.snapWaits, Function.comp_def, byte_toNat]

theorem installedCopy_cids :
    (s.installedCopy hs ws).holds.map Hold.cid ++ (s.installedCopy hs ws).waits.map WaitEntry.cid
      = hs.map SnapHold.cid ++ ws.map SnapWait.cid := by
  simp [State.installedCopy, State.installCopy, State.newHold, Function.comp_def]

theorem installedCopy_hold {h : Hold} (hh : h ∈ (s.installedCopy hs ws).holds) : h.age = s.stamp ∧ h.audit = s.holdAudit := by
  obtain ⟨_, _, rfl⟩ := List.mem_map.mp hh
  exact ⟨rfl, rfl⟩

theorem installedCopy_wait {w : WaitEntry} (hw : w ∈ (s.installedCopy hs ws).waits) :
    w.age = s.stamp ∧ w.audit = s.waitAudit := by
  obtain ⟨_, _, rfl⟩ := List.mem_map.mp hw
  exact ⟨rfl, rfl⟩

/-- An installation changes the copy, and then acts calmly (R20, R40, R158). -/
theorem calm_install : Calm { s with smu := s.installedCopy hs ws } (s.install hs ws) :=
  Calm.foldl (Calm.refl _).recallReclaim.installPath (fun _ i ht => ht.sendRelease i) _

end InstalledCopy

/-! ### An installation at a station without contexts -/

theorem cutUnbacked_eq (s : State) (i : Ref) : ∃ p, s.cutUnbacked i = { s with path := p } := by
  unfold State.cutUnbacked
  cases s.path.record i with
  | none => exact ⟨s.path, rfl⟩
  | some r =>
    dsimp only
    by_cases hcut : (s.path.lit i && !s.backed i) = true
    · rw [if_pos hcut]; exact ⟨_, rfl⟩
    · rw [if_neg hcut]; exact ⟨s.path, rfl⟩

theorem eachRef_cutUnbacked_eq (s : State) : ∃ p, s.eachRef State.cutUnbacked = { s with path := p } := by
  obtain ⟨p, hp⟩ := cutUnbacked_eq s 0
  obtain ⟨q, hq⟩ := cutUnbacked_eq { s with path := p } 1
  obtain ⟨r, hr⟩ := cutUnbacked_eq { s with path := q } 2
  obtain ⟨u, hu⟩ := cutUnbacked_eq { s with path := r } 3
  exact ⟨u, by rw [State.eachRef, hp, hq, hr, hu]⟩

theorem recallReclaim_eq (s : State) : ∃ r, s.recallReclaim = { s with rif := { s.rif with recalls := r } } := by
  unfold State.recallReclaim State.askRecall
  repeat' split
  · exact ⟨_, rfl⟩
  · exact ⟨s.rif.recalls, rfl⟩
  · exact ⟨s.rif.recalls, rfl⟩

/-- At a station without contexts an installation changes the copy and PATH, and may ask for a recall (R20, R40). -/
theorem install_of_free {s : State} (h : ∀ i, s.ctx i = none) (hs : List SnapHold) (ws : List SnapWait) :
    ∃ r p, s.install hs ws =
      { s with smu := s.installedCopy hs ws, rif := { s.rif with recalls := r }, path := p } := by
  obtain ⟨r, hr⟩ := recallReclaim_eq (s.installCopy hs ws)
  obtain ⟨p, hp⟩ := eachRef_cutUnbacked_eq { s.installCopy hs ws with rif := { s.rif with recalls := r } }
  have hp' : ∀ i, ({ s.installCopy hs ws with rif := { s.rif with recalls := r }, path := p } : State).ctx i = none := h
  obtain ⟨q, hq⟩ := reckonOwner_of_free hp'
  have hq' : ∀ i, ({ s.installCopy hs ws with rif := { s.rif with recalls := r }, path := q } : State).ctx i = none := h
  refine ⟨r, q, ?_⟩
  unfold State.install
  dsimp only
  rw [hr]
  show List.foldl _ (State.installPath { s.installCopy hs ws with rif := { s.rif with recalls := r } }) _ = _
  rw [State.installPath, hp, hq, foldl_sendRelease_of_free hq']
  rfl

/-! ### A SNAPSHOT in LEARNING -/

/-- A suited frame of another station that reaches a learner (R54, R66). -/
theorem taking_of_learning {s : State} {x : Byte} {f : Frame} (hstate : s.stc.state = .learning)
    (hp : s.rif.polarity ≠ .unknown) (hc : s.carrying = none) (hx : x ≠ s.own) (hv : validAddr x = true)
    (hf : f.suits = true) (learn act : State → State) : s.taking x f learn act = learn s.newEvent := by
  have hr : s.onRiser = true := by simp [State.onRiser, hstate, hp]
  simp [State.taking, State.deliver, hr, hc, hx, hv, hf, hstate]

/-- Settles O15: the installation is calm but for the copy, and the end of learning follows it. -/
theorem snapshotEndsLearning : Obligations.SnapshotEndsLearning := by
  unfold Obligations.SnapshotEndsLearning
  intro s x hs ws hstate hp hc hx hv hf
  have hexec : exec (.snapshotTaken x hs ws) s = .next (s.newEvent.learnSnapshot hs ws) :=
    congrArg _ (taking_of_learning hstate hp hc hx hv hf _ _)
  refine ⟨fun hvalid => ?_, fun hvalid => ?_⟩
  · have hlearn : s.newEvent.learnSnapshot hs ws = (s.newEvent.install hs ws).becomeJoined .snapshot := if_pos hvalid
    have hcalm := calm_install s.newEvent hs ws
    obtain ⟨h1, -, h2, h3, -, h4, h5, h6, h7⟩ := becomeJoined_spec (s.newEvent.install hs ws) .snapshot rfl
    rw [hcalm.smu] at h5
    rw [hlearn] at hexec
    refine ⟨_, hexec, h1, h2, h3, h4, ?_, ?_, ?_, ?_, h6.trans hcalm.lines, SameFixtures.trans hcalm.sameFixtures h7,
      fun hfree hcount => ?_⟩
    · rw [h5]; exact installedCopy_snapHolds _ hs ws
    · rw [h5]; exact installedCopy_snapWaits _ hs ws
    · rw [h5]; exact fun h hh => installedCopy_hold s.newEvent hs ws hh
    · rw [h5]; exact fun w hw => installedCopy_wait s.newEvent hs ws hw
    · have hfree' : ∀ i, s.newEvent.ctx i = none := hfree
      obtain ⟨r, p, hinst⟩ := install_of_free hfree' hs ws
      intro taken
      have htaken : taken = (s.newEvent.install hs ws).staleTaken ((s.newEvent.install hs ws).smu.holds.map Hold.cid
          ++ (s.newEvent.install hs ws).smu.waits.map WaitEntry.cid) := by
        rw [hcalm.smu]
        refine (congrArg s.staleTaken (installedCopy_cids s.newEvent hs ws).symm).trans ?_
        rw [hinst]
        rfl
      obtain ⟨⟨k1, k2⟩, k3, k4⟩ := becomeJoined_stale (s.newEvent.install hs ws) .snapshot (by rw [hinst]; exact hcount) htaken
      rw [hinst] at k1 k2 k3 k4 ⊢
      have hj : s.newEvent.stc.state = .learning := hstate
      simp only [hj] at k4
      exact ⟨⟨k1, k2⟩, k3, k4.from_sport rfl⟩
  · exact hexec.trans (congrArg _ (if_neg (by rw [hvalid]; exact Bool.false_ne_true)))

end Sys2Proof.Machine
end

section
/-! PROOFS. PATH and CENG at one context: what an operation gives there and leaves elsewhere, each said once (R121, R140, R148,
R149, R154). -/

namespace Sys2Proof.Machine

/-! ### The re-reckoning -/

section ReckonOwner

variable (s : State)

theorem postPath_eq (i : Ref) (b : Bool) : s.postPath i b = s ∨ ∃ n, s.postPath i b = s.post n := by
  unfold State.postPath; split
  · exact .inr ⟨_, rfl⟩
  · exact .inl rfl

/-- The re-reckoning changes PATH and posts one notice at most (R154, R161). -/
theorem reckonOwner_eq :
    s.reckonOwner = { s with path := s.reckonOwner.path }
      ∨ ∃ n, s.reckonOwner = ({ s with path := s.reckonOwner.path } : State).post n := by
  have hpost : ∀ p i b, State.postPath { s with path := p } i b = { s with path := (State.postPath { s with path := p } i b).path }
      ∨ ∃ n, State.postPath { s with path := p } i b
        = ({ s with path := (State.postPath { s with path := p } i b).path } : State).post n := fun p i b => by
    rw [State.postPath_path]; exact postPath_eq _ i b
  unfold State.reckonOwner
  dsimp only
  split
  · exact .inl rfl
  · split
    · split
      · split
        · exact hpost _ _ _
        · exact .inl rfl
      · exact .inl rfl
    · exact .inl rfl

@[simp] theorem reckonOwner_now : s.reckonOwner.now = s.now := by
  rcases reckonOwner_eq s with h | ⟨n, h⟩ <;> exact (congrArg State.now h).trans (by simp)
@[simp] theorem reckonOwner_rif : s.reckonOwner.rif = s.rif := by
  rcases reckonOwner_eq s with h | ⟨n, h⟩ <;> exact (congrArg State.rif h).trans (by simp)
@[simp] theorem reckonOwner_smu : s.reckonOwner.smu = s.smu := by
  rcases reckonOwner_eq s with h | ⟨n, h⟩ <;> exact (congrArg State.smu h).trans (by simp)
@[simp] theorem reckonOwner_stc : s.reckonOwner.stc = s.stc := by
  rcases reckonOwner_eq s with h | ⟨n, h⟩ <;> exact (congrArg State.stc h).trans (by simp)
@[simp] theorem reckonOwner_ctxs : s.reckonOwner.ctxs = s.ctxs := by
  rcases reckonOwner_eq s with h | ⟨n, h⟩ <;> exact (congrArg State.ctxs h).trans (by simp)
@[simp] theorem reckonOwner_oku : s.reckonOwner.oku = s.oku := by
  rcases reckonOwner_eq s with h | ⟨n, h⟩ <;> exact (congrArg State.oku h).trans (by simp)
@[simp] theorem reckonOwner_config : s.reckonOwner.sport.config = s.sport.config := by
  rcases reckonOwner_eq s with h | ⟨n, h⟩ <;> exact (congrArg (fun t : State => t.sport.config) h).trans (by simp)
@[simp] theorem ctx_reckonOwner (i : Ref) : s.reckonOwner.ctx i = s.ctx i := State.ctx_congr (by simp) i

end ReckonOwner

theorem reckonOwner_of_best {s : State} (h : s.path.bestOwner = s.path.owner) : s.reckonOwner = s := if_pos h

/-! ### Passes in which few contexts act -/

/-- A pass in which no live context acts. -/
theorem eachCtx_idle {f : State → Ref → Ctx → State} {s : State} (h : ∀ i y, s.ctx i = some y → f s i y = s) :
    s.eachCtx f = s := by
  have hv : ∀ i, State.visit f s i = s := fun i => by
    cases hc : s.ctx i with
    | none => exact visit_free hc
    | some y => exact (visit_live hc).trans (h i y hc)
  rw [eachCtx_eq, hv, hv, hv, hv]

/-- A pass in which one context alone acts. -/
theorem eachCtx_only {f : State → Ref → Ctx → State} {s : State} {i : Ref} {y : Ctx} (hi : s.ctx i = some y)
    (hidle : ∀ j z t, j ≠ i → s.ctx j = some z → f t j z = t) (hkeep : ∀ j, j ≠ i → (f s i y).ctx j = s.ctx j) :
    s.eachCtx f = f s i y := by
  have hbefore : ∀ j, j ≠ i → State.visit f s j = s := fun j hj => by
    cases hc : s.ctx j with
    | none => exact visit_free hc
    | some z => exact (visit_live hc).trans (hidle j z s hj hc)
  have hafter : ∀ j, j ≠ i → State.visit f (f s i y) j = f s i y := fun j hj => by
    cases hc : s.ctx j with
    | none => exact visit_free ((hkeep j hj).trans hc)
    | some z => exact (visit_live ((hkeep j hj).trans hc)).trans (hidle j z _ hj hc)
  have hact : State.visit f s i = f s i y := visit_live hi
  rw [eachCtx_eq]
  match i with
  | 0 => rw [hact, hafter 1 (by decide), hafter 2 (by decide), hafter 3 (by decide)]
  | 1 => rw [hbefore 0 (by decide), hact, hafter 2 (by decide), hafter 3 (by decide)]
  | 2 => rw [hbefore 0 (by decide), hbefore 1 (by decide), hact, hafter 3 (by decide)]
  | 3 => rw [hbefore 0 (by decide), hbefore 1 (by decide), hbefore 2 (by decide), hact]

/-! ### Enables that the copy backs -/

/-- Each enable that is ON lies in the record of its context, and the copy holds that record's block for the context's call (R147,
R148). -/
def State.EnablesBacked (s : State) : Prop :=
  ∀ n e, s.path.enable n = some e → ∃ r x h, s.path.record e.ref = some r ∧ r.base ≤ n ∧ n < r.base + r.width
    ∧ s.ctx e.ref = some x ∧ s.smu.holdOf x.cid = some h ∧ (h.base, h.width) = r.block

/-- The transmitter law backs the enables (R147, R148). -/
theorem PathLaw.enablesBacked {s : State} (h : PathLaw s) : s.EnablesBacked := by
  intro n e he
  obtain ⟨hrec, hen, -⟩ := h
  obtain ⟨r, hr, h1, h2⟩ := hen n e he
  obtain ⟨⟨x, k, hx, -, hk, hb⟩, -⟩ := hrec e.ref r hr
  exact ⟨r, x, k, hr, h1, h2, hx, hk, hb⟩

theorem State.EnablesBacked.congr {s t : State} (h : s.EnablesBacked) (hp : t.path = s.path) (hc : ∀ i, t.ctx i = s.ctx i)
    (hm : t.smu = s.smu) : t.EnablesBacked := by
  intro n e he
  rw [hp] at he ⊢
  rw [hc, hm]
  exact h n e he

theorem Hold.covers_iff {h : Hold} {n : Nat} : h.covers n = true ↔ h.base ≤ n ∧ n < h.base + h.width := by
  simp [Hold.covers]

/-- Where the copy shows a channel free, its enable is OFF. -/
theorem State.EnablesBacked.enable_of_free {s : State} (h : s.EnablesBacked) {n : Nat} (hn : channelFree s.smu.holds n = true) :
    s.path.enable n = none := by
  cases he : s.path.enable n with
  | none => rfl
  | some e =>
    obtain ⟨r, x, k, -, h1, h2, -, hk, hb⟩ := h n e he
    have hcover := channelFree_iff.mp hn k (holdOf_some hk).1
    have hk1 : k.base = r.base := (Prod.mk.inj hb).1
    have hk2 : k.width = r.width := (Prod.mk.inj hb).2
    rw [← Bool.not_eq_true, Hold.covers_iff] at hcover
    omega

/-- No channel of the copy is held twice (R1). -/
def Smu.HeldOnce (m : Smu) : Prop :=
  ∀ a ∈ m.holds, ∀ b ∈ m.holds, ∀ n, a.base ≤ n → n < a.base + a.width → b.base ≤ n → n < b.base + b.width → a = b

theorem heldOnce_of_pairwise {m : Smu} (h : m.holds.Pairwise fun a b => a.base + a.width ≤ b.base) : m.HeldOnce := by
  intro a ha b hb n h1 h2 h3 h4
  by_contra hne
  have hsymm : Std.Symm fun a b : Hold => a.base + a.width ≤ b.base ∨ b.base + b.width ≤ a.base := ⟨fun _ _ h => h.symm⟩
  have := (h.imp fun h => Or.inl h : m.holds.Pairwise fun a b => a.base + a.width ≤ b.base ∨ b.base + b.width ≤ a.base).forall
    ha hb hne
  omega

theorem SlotLaw.heldOnce {m : Smu} (h : SlotLaw m) : m.HeldOnce := heldOnce_of_pairwise h.2.1

/-! ### The settle command -/

/-- The settle command meets its conditions (R148). -/
theorem settleMet_iff {s : State} {i : Ref} {c : CallId} {b : Block} :
    s.settleMet i c b = true ↔ s.member = true ∧ (∃ h, s.smu.holdOf c = some h ∧ (h.base, h.width) = b)
      ∧ ∀ n, b.1 ≤ n → n < b.1 + b.2 → ∀ e, s.path.enable n = some e → e.ref = i := by
  have hchan : ∀ n, n ∈ blockChannels b ↔ b.1 ≤ n ∧ n < b.1 + b.2 := fun n => by
    simp only [blockChannels, List.mem_map, List.mem_range]
    exact ⟨by rintro ⟨k, hk, rfl⟩; omega, fun h => ⟨n - b.1, by omega, by omega⟩⟩
  simp only [State.settleMet, Bool.and_eq_true, List.all_eq_true, hchan, and_assoc]
  refine and_congr Iff.rfl (and_congr ?_ ?_)
  · cases s.smu.holdOf c <;> simp
  · constructor
    · intro h n h1 h2 e he
      simpa [he] using h n ⟨h1, h2⟩
    · intro h n hn
      cases he : s.path.enable n with
      | none => rfl
      | some e => simpa using h n hn.1 hn.2 e he

/-- Where the copy backs the enables, holds no channel twice, and each call has one context, a call's hold may be settled on (R148). -/
theorem settleMet_of_backed {s : State} {i : Ref} {y : Ctx} {h : Hold} (hm : s.member = true) (hb : s.EnablesBacked)
    (honce : s.smu.HeldOnce)
    (hone : ∀ j z, s.ctx j = some z → j ≠ i → z.cid ≠ y.cid) (hh : s.smu.holdOf y.cid = some h) :
    s.settleMet i y.cid (h.base, h.width) = true := by
  refine settleMet_iff.mpr ⟨hm, ⟨h, hh, rfl⟩, fun n h1 h2 e he => ?_⟩
  obtain ⟨r, x, k, -, h3, h4, hx, hk, hkb⟩ := hb n e he
  have hk1 : k.base = r.base := (Prod.mk.inj hkb).1
  have hk2 : k.width = r.width := (Prod.mk.inj hkb).2
  by_contra hne
  have heq : k = h := honce k (holdOf_some hk).1 h (holdOf_some hh).1 n (by omega) (by omega) h1 h2
  exact hone e.ref x hx hne ((holdOf_some hk).2.symm.trans (heq ▸ (holdOf_some hh).2))

/-- A context as it enters SETTLING (R118, R138). -/
def Ctx.settled (y : Ctx) (b : Block) (trimmed : Bool) : Ctx :=
  { y.stopTimers with state := .settling, path := some b, trimmed := trimmed }

/-- The state in which PATH gets the settle command: the context in SETTLING, and said so (R118, R126). -/
def State.atSettle (s : State) (i : Ref) (y : Ctx) (b : Block) (trimmed : Bool) : State :=
  (s.post (.callState i y.cid (.settling b.1 b.2 trimmed))).setCtx i (some (y.settled b trimmed))

/-- Where the settle command is met, a context without a record enters SETTLING and PATH makes its record (R118, R149). -/
theorem enterSettling_met {s : State} {i : Ref} {y : Ctx} {b : Block} {trimmed : Bool} (hc : s.ctx i = some y)
    (hr : s.path.record i = none) (hm : s.settleMet i y.cid b = true) :
    s.enterSettling i b trimmed = (s.atSettle i y b trimmed).startSettle i y.side b trimmed := by
  have hm' : (s.atSettle i y b trimmed).settleMet i y.cid b = true := by
    rw [settleMet_iff] at hm ⊢
    simpa [State.atSettle, State.member] using hm
  have hr' : (s.atSettle i y b trimmed).path.record i = none := by simpa [State.atSettle] using hr
  have hstep : (s.setCtx i (some { y.stopTimers with state := .settling, path := some b, trimmed := trimmed })).callState i
      (.settling b.1 b.2 trimmed) = s.atSettle i y b trimmed := by
    rw [State.callState, State.ctx_setCtx, if_pos rfl, State.atSettle, ← setCtx_post]
    rfl
  simp only [State.enterSettling, hc, hstep, hr', hm', if_true]

theorem newPathRec_fields (s : State) (side : Side) (b : Block) (trimmed : Bool) :
    (s.newPathRec side b trimmed).block = b ∧ (s.newPathRec side b trimmed).sendHalf = side.sendHalf
      ∧ (s.newPathRec side b trimmed).order = s.stamp
      ∧ (s.newPathRec side b trimmed).stage ≠ .mute ∧ (s.newPathRec side b trimmed).stage ≠ .opened := by
  unfold State.newPathRec
  dsimp only
  split <;> simp [PathRec.block, Path.completeSettle]

@[simp] theorem ctx_startSettle (s : State) (i j : Ref) (side : Side) (b : Block) (trimmed : Bool) :
    (s.startSettle i side b trimmed).ctx j = s.ctx j := by rw [State.startSettle, ctx_reckonOwner]; rfl
@[simp] theorem startSettle_rif (s : State) (i : Ref) (side : Side) (b : Block) (trimmed : Bool) :
    (s.startSettle i side b trimmed).rif = s.rif := by rw [State.startSettle, reckonOwner_rif]
@[simp] theorem startSettle_smu (s : State) (i : Ref) (side : Side) (b : Block) (trimmed : Bool) :
    (s.startSettle i side b trimmed).smu = s.smu := by rw [State.startSettle, reckonOwner_smu]
@[simp] theorem startSettle_stc (s : State) (i : Ref) (side : Side) (b : Block) (trimmed : Bool) :
    (s.startSettle i side b trimmed).stc = s.stc := by rw [State.startSettle, reckonOwner_stc]
theorem record_startSettle (s : State) (i j : Ref) (side : Side) (b : Block) (trimmed : Bool) :
    (s.startSettle i side b trimmed).path.record j =
      if j = i then some (s.newPathRec side b trimmed) else s.path.record j := by
  rw [State.startSettle, State.record_reckonOwner]
  simp

theorem settlesOn_enterSettling {s : State} {i : Ref} {y : Ctx} {b : Block} {trimmed : Bool} (hc : s.ctx i = some y)
    (hr : s.path.record i = none) (hm : s.settleMet i y.cid b = true) : SettlesOn i y b trimmed (s.enterSettling i b trimmed) := by
  obtain ⟨h1, h2, -⟩ := newPathRec_fields (s.atSettle i y b trimmed) y.side b trimmed
  rw [enterSettling_met hc hr hm]
  refine ⟨?_, _, (record_startSettle _ _ _ _ _ _).trans (if_pos rfl), h1, h2⟩
  rw [ctx_startSettle, State.atSettle, State.ctx_setCtx, if_pos rfl]
  rfl

theorem enterSettling_met_rif {s : State} {i : Ref} {y : Ctx} {b : Block} {trimmed : Bool} (hc : s.ctx i = some y)
    (hr : s.path.record i = none) (hm : s.settleMet i y.cid b = true) : (s.enterSettling i b trimmed).rif = s.rif := by
  rw [enterSettling_met hc hr hm, startSettle_rif]
  simp [State.atSettle]

theorem settleOn_eq {s : State} {i : Ref} {y : Ctx} (hc : s.ctx i = some y) (b : Block) :
    s.settleOn i b = s.enterSettling i b (decide (b.2 < y.wanted)) := by rw [State.settleOn, hc]

/-- A context that has a path record is SETTLING, in TALK or CLEARING (R147). -/
theorem PathRec.Fits.state {r : PathRec} {x : Ctx} {now : Nat} (h : r.Fits x now) :
    x.state = .settling ∨ x.state = .talk ∨ x.state = .clearing := by
  unfold PathRec.Fits at h
  cases hs : r.stage <;> simp only [hs] at h
  · exact .inl h.2.1
  · exact .inl h.2.1
  · exact .inr (.inl h.2.1)
  · exact .inr (.inr h.2.1)

/-- Outside SETTLING, TALK and CLEARING no context has a record (R147). -/
theorem PathLaw.record_none {s : State} (h : PathLaw s) {i : Ref} {y : Ctx} (hy : s.ctx i = some y)
    (hs : y.state ≠ .settling ∧ y.state ≠ .talk ∧ y.state ≠ .clearing) : s.path.record i = none := by
  cases hr : s.path.record i with
  | none => rfl
  | some r =>
    obtain ⟨⟨x, -, hx, hfit, -⟩, -⟩ := h.1 i r hr
    obtain rfl : x = y := Option.some.inj (hx.symm.trans hy)
    rcases hfit.state with h | h | h
    · exact absurd h hs.1
    · exact absurd h hs.2.1
    · exact absurd h hs.2.2

end Sys2Proof.Machine
end

section
/-! PROOFS. The port owner when a record joins, and the own CLAIM (R115, R118, R149, R154). -/

namespace Sys2Proof.Machine

/-! ### The order of stamps -/

theorem Stamp.older_iff {a b : Stamp} : a.older b = true ↔ a.ms < b.ms ∨ (a.ms = b.ms ∧ a.event < b.event) := by
  simp [Stamp.older]

theorem Stamp.not_older_self (a : Stamp) : a.older a = false := by
  rw [← Bool.not_eq_true, Stamp.older_iff]; omega

theorem Stamp.not_older_of_older {a b : Stamp} (h : a.older b = true) : b.older a = false := by
  rw [Stamp.older_iff] at h
  rw [← Bool.not_eq_true, Stamp.older_iff]
  omega

theorem Stamp.older_of_le_of_older {v w x : Stamp} (hvw : w.older v = false) (hwx : w.older x = true) : v.older x = true := by
  rw [← Bool.not_eq_true, Stamp.older_iff] at hvw
  rw [Stamp.older_iff] at hwx ⊢
  omega

/-! ### The earliest candidate -/

/-- A candidate that stands no chance against w: none, or of a later order. -/
def LosesTo (w : Stamp) (a : Option (Stamp × Ref)) : Prop := ∀ v, a = some v → w.older v.1 = true

/-- Two candidates between which w cannot tell: the same, or both lose to it. -/
def SameAgainst (w : Stamp) (a a' : Option (Stamp × Ref)) : Prop := a' = a ∨ (LosesTo w a ∧ LosesTo w a')

theorem SameAgainst.refl (w : Stamp) (a : Option (Stamp × Ref)) : SameAgainst w a a := .inl rfl

theorem LosesTo.earlier {w : Stamp} {a b : Option (Stamp × Ref)} (ha : LosesTo w a) (hb : LosesTo w b) :
    LosesTo w (earlier a b) := fun v hv => (earlier_mem hv).elim (ha v) (hb v)

/-- Against a candidate that does not lose to w, one that does is not the earliest. -/
theorem earlier_of_losesTo_left {w : Stamp} {a : Option (Stamp × Ref)} {v : Stamp × Ref} (ha : LosesTo w a)
    (hv : w.older v.1 = false) : earlier a (some v) = some v := by
  cases a with
  | none => rfl
  | some x => simp [earlier, Stamp.older_of_le_of_older hv (ha x rfl)]

theorem earlier_of_losesTo_right {w : Stamp} {b : Option (Stamp × Ref)} {v : Stamp × Ref} (hb : LosesTo w b)
    (hv : w.older v.1 = false) : earlier (some v) b = some v := by
  cases b with
  | none => rfl
  | some x => simp [earlier, Stamp.not_older_of_older (Stamp.older_of_le_of_older hv (hb x rfl))]

theorem losesTo_or_not (w : Stamp) (a : Option (Stamp × Ref)) : LosesTo w a ∨ ∃ v, a = some v ∧ w.older v.1 = false := by
  cases a with
  | none => exact .inl nofun
  | some v =>
    cases hv : w.older v.1 with
    | true => exact .inl fun u hu => Option.some.inj hu ▸ hv
    | false => exact .inr ⟨v, rfl, hv⟩

theorem SameAgainst.earlier {w : Stamp} {a a' b b' : Option (Stamp × Ref)} (ha : SameAgainst w a a') (hb : SameAgainst w b b') :
    SameAgainst w (earlier a b) (earlier a' b') := by
  rcases ha with rfl | ⟨ha, ha'⟩
  · rcases hb with rfl | ⟨hb, hb'⟩
    · exact .refl _ _
    · rcases losesTo_or_not w a' with hl | ⟨v, rfl, hv⟩
      · exact .inr ⟨hl.earlier hb, hl.earlier hb'⟩
      · rw [earlier_of_losesTo_right hb hv, earlier_of_losesTo_right hb' hv]; exact .refl _ _
  · rcases hb with rfl | ⟨hb, hb'⟩
    · rcases losesTo_or_not w b' with hl | ⟨v, rfl, hv⟩
      · exact .inr ⟨ha.earlier hl, ha'.earlier hl⟩
      · rw [earlier_of_losesTo_left ha hv, earlier_of_losesTo_left ha' hv]; exact .refl _ _
    · exact .inr ⟨ha.earlier hb, ha'.earlier hb'⟩

/-! ### The best owner when a record joins -/

theorem Path.lit_congr {p q : Path} {i : Ref} (hr : q.record i = p.record i)
    (he : ∀ n, (∃ e, q.enable n = some e ∧ e.ref = i) ↔ ∃ e, p.enable n = some e ∧ e.ref = i) : q.lit i = p.lit i := by
  cases h : p.record i with
  | none => rw [Path.lit_none h, Path.lit_none (hr.trans h)]
  | some r =>
    rw [Bool.eq_iff_iff, Path.lit_iff h, Path.lit_iff (hr.trans h)]
    constructor
    · rintro ⟨n, e, h1, h2, h3, h4⟩
      obtain ⟨e', h5, h6⟩ := (he n).mp ⟨e, h3, h4⟩
      exact ⟨n, e', h1, h2, h5, h6⟩
    · rintro ⟨n, e, h1, h2, h3, h4⟩
      obtain ⟨e', h5, h6⟩ := (he n).mpr ⟨e, h3, h4⟩
      exact ⟨n, e', h1, h2, h5, h6⟩

theorem Path.claimOrder_congr {p q : Path} {i : Ref} (hr : q.record i = p.record i) (hl : q.lit i = p.lit i) :
    q.claimOrder i = p.claimOrder i := by
  unfold Path.claimOrder; rw [hr, hl]

/-- The candidate of a context for the port (R154). -/
def Path.candidate (p : Path) (i : Ref) : Option (Stamp × Ref) := (p.claimOrder i).map fun o => (o, i)

theorem Path.bestOwner_eq (p : Path) :
    p.bestOwner = (earlier (earlier (earlier (p.candidate 0) (p.candidate 1)) (p.candidate 2)) (p.candidate 3)).map Prod.snd := rfl

/-- A record of later order does not take the port from its best owner (R154). -/
theorem Path.bestOwner_of_later {p q : Path} {i o : Ref} {w x : Stamp} (hsame : ∀ j, j ≠ i → q.claimOrder j = p.claimOrder j)
    (hnone : p.claimOrder i = none) (hi : q.claimOrder i = some x) (ho : p.bestOwner = some o) (hw : p.claimOrder o = some w)
    (hold : w.older x = true) : q.bestOwner = some o := by
  have hcand : ∀ j, SameAgainst w (p.candidate j) (q.candidate j) := fun j => by
    by_cases hj : j = i
    · subst hj
      refine .inr ⟨fun v hv => ?_, fun v hv => ?_⟩
      · simp [Path.candidate, hnone] at hv
      · simp only [Path.candidate, hi, Option.map_some, Option.some.injEq] at hv
        subst hv
        exact hold
    · exact .inl (by rw [Path.candidate, Path.candidate, hsame j hj])
  rw [Path.bestOwner_eq] at ho ⊢
  obtain ⟨v, hv, rfl⟩ := Option.map_eq_some_iff.mp ho
  have hvw : v.1 = w := by
    have hmem : ∃ j, p.candidate j = some v := by
      rcases earlier_mem hv with h | h
      · rcases earlier_mem h with h | h
        · rcases earlier_mem h with h | h
          · exact ⟨_, h⟩
          · exact ⟨_, h⟩
        · exact ⟨_, h⟩
      · exact ⟨_, h⟩
    obtain ⟨j, hj⟩ := hmem
    obtain ⟨u, hu, rfl⟩ := Option.map_eq_some_iff.mp hj
    exact Option.some.inj (hu.symm.trans hw)
  rcases (((hcand 0).earlier (hcand 1)).earlier (hcand 2)).earlier (hcand 3) with h | ⟨h, -⟩
  · rw [h, hv]; rfl
  · have := h v hv
    rw [hvw, Stamp.not_older_self] at this
    cases this

/-- A record that joins a port without candidates takes it (R154). -/
theorem Path.bestOwner_of_only {q : Path} {i : Ref} {x : Stamp} (hnone : ∀ j, j ≠ i → q.claimOrder j = none)
    (hi : q.claimOrder i = some x) : q.bestOwner = some i := by
  cases hb : q.bestOwner with
  | none => rw [Path.bestOwner_none.mp hb i] at hi; cases hi
  | some o =>
    obtain ⟨r, hr, hs, hl⟩ := Path.bestOwner_some hb
    by_contra hne
    have := hnone o fun h => hne (congrArg some h)
    rw [Path.claimOrder_some.mpr ⟨r, hr, hs, hl, rfl⟩] at this
    cases this

end Sys2Proof.Machine
end

section
/-! PROOFS. A settle command on a block that is off, and the own CLAIM (R114, R115, R118, R149, R154). -/

namespace Sys2Proof.Machine

/-! ### A settle command on a block that is off -/

/-- PATH with a record made and its block's enables ON in SILENCE, before the owner is re-reckoned (R149). -/
def State.settledPath (s : State) (i : Ref) (side : Side) (b : Block) (trimmed : Bool) : Path :=
  (s.path.setRec i (some (s.newPathRec side b trimmed))).setBlock b (some ⟨i, side.sendHalf, .silence⟩)

theorem startSettle_eq (s : State) (i : Ref) (side : Side) (b : Block) (trimmed : Bool) :
    s.startSettle i side b trimmed = State.reckonOwner { s with path := s.settledPath i side b trimmed } := rfl

section SettledPath

variable {s : State} {i : Ref} {side : Side} {b : Block} {trimmed : Bool}

theorem record_settledPath (j : Ref) : (s.settledPath i side b trimmed).record j =
    if j = i then some (s.newPathRec side b trimmed) else s.path.record j := by
  simp [State.settledPath]

theorem enable_settledPath (n : Nat) : (s.settledPath i side b trimmed).enable n =
    if n < 24 ∧ b.1 ≤ n ∧ n < b.1 + b.2 then some ⟨i, side.sendHalf, .silence⟩ else s.path.enable n := by
  simp [State.settledPath, Path.enable_setBlock]

variable (hw : 0 < b.2) (hfit : b.1 + b.2 ≤ 24)
include hw hfit

theorem lit_settledPath : (s.settledPath i side b trimmed).lit i = true := by
  obtain ⟨h1, -⟩ := newPathRec_fields s side b trimmed
  have hbase : (s.newPathRec side b trimmed).base = b.1 := congrArg Prod.fst h1
  have hwidth : (s.newPathRec side b trimmed).width = b.2 := congrArg Prod.snd h1
  refine (Path.lit_iff (by rw [record_settledPath, if_pos rfl])).mpr ⟨b.1, ⟨i, side.sendHalf, .silence⟩, by omega, by omega, ?_, rfl⟩
  rw [enable_settledPath, if_pos ⟨by omega, by omega, by omega⟩]

theorem claimOrder_settledPath : (s.settledPath i side b trimmed).claimOrder i = some s.stamp := by
  obtain ⟨-, -, h3, h4, -⟩ := newPathRec_fields s side b trimmed
  exact Path.claimOrder_some.mpr ⟨_, by rw [record_settledPath, if_pos rfl], h4, lit_settledPath hw hfit, h3⟩

variable (hoff : ∀ n, b.1 ≤ n → n < b.1 + b.2 → s.path.enable n = none)
include hoff

omit hw hfit in
/-- A record on a block that was off changes no other record's candidacy (R154). -/
theorem claimOrder_settledPath_of_ne {j : Ref} (hj : j ≠ i) :
    (s.settledPath i side b trimmed).claimOrder j = s.path.claimOrder j := by
  have hr : (s.settledPath i side b trimmed).record j = s.path.record j := by rw [record_settledPath, if_neg hj]
  refine Path.claimOrder_congr hr (Path.lit_congr hr fun n => ?_)
  rw [enable_settledPath]
  split
  · rename_i h
    simp [hoff n h.2.1 h.2.2, Ne.symm hj]
  · exact Iff.rfl

variable (hbest : s.path.owner = s.path.bestOwner) (hrec : s.path.record i = none)
include hbest hrec

/-- An owner of earlier order keeps the port (R154). -/
theorem startSettle_of_owner {o : Ref} {q : PathRec} (ho : s.path.owner = some o) (hq : s.path.record o = some q)
    (hold : q.order.older s.stamp = true) :
    s.startSettle i side b trimmed = { s with path := s.settledPath i side b trimmed } := by
  have hb : s.path.bestOwner = some o := hbest ▸ ho
  obtain ⟨r, hr, hs, hl⟩ := Path.bestOwner_some hb
  obtain rfl : r = q := Option.some.inj (hr.symm.trans hq)
  have hnone : s.path.claimOrder i = none := by simp [Path.claimOrder, hrec]
  refine reckonOwner_of_best ?_
  exact (Path.bestOwner_of_later (fun j hj => claimOrder_settledPath_of_ne hoff hj) hnone (claimOrder_settledPath hw hfit) hb
    (Path.claimOrder_some.mpr ⟨r, hr, hs, hl, rfl⟩) hold).trans ho.symm

omit hrec in
/-- A port that nobody owns goes to the new record, in stream (R154). -/
theorem startSettle_of_noOwner (ho : s.path.owner = none) :
    (s.startSettle i side b trimmed).path = ((s.settledPath i side b trimmed).setContent i .stream).withOwner (some i) := by
  have hnone : ∀ j, j ≠ i → (s.settledPath i side b trimmed).claimOrder j = none := fun j hj => by
    rw [claimOrder_settledPath_of_ne hoff hj]
    exact Path.bestOwner_none.mp (hbest ▸ ho) j
  have hb := Path.bestOwner_of_only hnone (claimOrder_settledPath hw hfit)
  have ho' : (s.settledPath i side b trimmed).owner = none := ho
  rw [startSettle_eq, State.reckonOwner_path]
  simp only [hb, ho', reduceCtorEq, if_false, Path.changeOwner]

end SettledPath

/-- What a settle command on a block that was off leaves at PATH: the port goes to the new record where it had no owner (R149, R154). -/
structure SettledPort (i : Ref) (side : Side) (b : Block) (p q : Path) : Prop where
  record : ∃ r, q.record i = some r ∧ r.block = b ∧ r.sendHalf = side.sendHalf
  records : ∀ j, j ≠ i → q.record j = p.record j
  taken : p.owner = none → q.owner = some i ∧ q.rate = b.2 ∧ q.gate = false
  kept : p.owner ≠ none → q.owner = p.owner ∧ q.rate = p.rate ∧ q.gate = p.gate
  on : ∀ n, b.1 ≤ n → n < b.1 + b.2 →
    q.enable n = some ⟨i, side.sendHalf, if p.owner = none then .stream else .silence⟩
  off : ∀ n, n < b.1 ∨ b.1 + b.2 ≤ n → q.enable n = p.enable n
  best : q.bestOwner = q.owner

theorem settledPort_startSettle {s : State} {i : Ref} {side : Side} {b : Block} {trimmed : Bool} (hw : 0 < b.2)
    (hfit : b.1 + b.2 ≤ 24) (hoff : ∀ n, b.1 ≤ n → n < b.1 + b.2 → s.path.enable n = none)
    (hbest : s.path.owner = s.path.bestOwner) (hrec : s.path.record i = none)
    (hold : ∀ o q, s.path.owner = some o → s.path.record o = some q → q.order.older s.stamp = true) :
    SettledPort i side b s.path (s.startSettle i side b trimmed).path := by
  obtain ⟨h1, h2, -, h4, h5⟩ := newPathRec_fields s side b trimmed
  have hbase : (s.newPathRec side b trimmed).base = b.1 := congrArg Prod.fst h1
  have hwidth : (s.newPathRec side b trimmed).width = b.2 := congrArg Prod.snd h1
  have hri : (s.settledPath i side b trimmed).record i = some (s.newPathRec side b trimmed) := by
    rw [record_settledPath, if_pos rfl]
  cases ho : s.path.owner with
  | none =>
    have hp := startSettle_of_noOwner (i := i) (side := side) (trimmed := trimmed) hw hfit hoff hbest ho
    have hen : ∀ n, (s.startSettle i side b trimmed).path.enable n
        = if n < 24 ∧ b.1 ≤ n ∧ n < b.1 + b.2 then some ⟨i, side.sendHalf, .stream⟩ else s.path.enable n := fun n => by
      rw [hp, Path.enable_withOwner, Path.enable_setContent hri, lit_settledPath hw hfit, hbase, hwidth, h2, enable_settledPath]
      simp only [true_and]
      split <;> rfl
    have hrr : ∀ j, (s.startSettle i side b trimmed).path.record j = (s.settledPath i side b trimmed).record j := fun j => by
      rw [hp]; simp
    obtain ⟨k1, k2, k3⟩ := Path.withOwner_some
      (p := (s.settledPath i side b trimmed).setContent i .stream) (i := i) (by rw [Path.record_setContent]; exact hri)
    refine ⟨⟨_, (hrr i).trans hri, h1, h2⟩, fun j hj => by rw [hrr, record_settledPath, if_neg hj], fun _ => ?_,
      fun h => absurd ho h, fun n hn hn' => ?_, fun n hn => ?_, ?_⟩
    · rw [hp, k1, k2, k3, hwidth]
      exact ⟨rfl, rfl, by simp [h5]⟩
    · rw [hen, if_pos ⟨by omega, hn, hn'⟩, if_pos ho]
    · rw [hen, if_neg (by omega)]
    · refine Eq.trans ?_ (State.reckonOwner_owner { s with path := s.settledPath i side b trimmed }).symm
      refine Path.bestOwner_congr fun j => Path.claimOrder_congr (hrr j) (Path.lit_congr (hrr j) fun n => ?_)
      rw [hen, enable_settledPath]
      split <;> simp
  | some o =>
    obtain ⟨q, hq, -⟩ := Path.bestOwner_some (hbest ▸ ho)
    have hp := startSettle_of_owner (i := i) (side := side) (trimmed := trimmed) hw hfit hoff hbest hrec ho hq (hold o q ho hq)
    have hpath : (s.startSettle i side b trimmed).path = s.settledPath i side b trimmed := congrArg State.path hp
    refine ⟨⟨s.newPathRec side b trimmed, by rw [hpath, hri], h1, h2⟩,
      fun j hj => by rw [hpath, record_settledPath, if_neg hj], fun h => absurd h (by simp [ho]), fun _ => ?_, fun n hn hn' => ?_, fun n hn => ?_, ?_⟩
    · rw [hpath]; exact ⟨rfl, rfl, rfl⟩
    · rw [hpath, enable_settledPath, if_pos ⟨by omega, hn, hn'⟩, if_neg (by simp [ho])]
    · rw [hpath, enable_settledPath, if_neg (by omega)]
    · have := State.reckonOwner_owner { s with path := s.settledPath i side b trimmed }
      rw [← startSettle_eq, hpath] at this
      rw [hpath, this]

end Sys2Proof.Machine
end

section
/-! PROOFS. The own CLAIM at its context (R114, R115, R118). -/

namespace Sys2Proof.Machine

/-! ### The claim outcome at its own context -/

section OwnClaim

variable {a : State} {i : Ref} {y : Ctx} (hi : a.ctx i = some y) (hside : y.side = .origin) (hstate : y.state = .claiming)
  (hone : ∀ j z, a.ctx j = some z → j ≠ i → z.cid ≠ y.cid)
include hi hside hstate hone

/-- The own CLAIM's success settles its context, and touches no other (R7). -/
theorem claimOutcome_success (b : Block) : a.claimOutcome a.own y.cid none b = a.settleOn i b := by
  refine (eachCtx_only hi (fun j z t hj hz => if_pos (hone j z hz hj)) fun j hj => ?_).trans ?_
  · simp only [ne_eq, not_true_eq_false, if_false, hside, hstate, and_self, if_true]
    exact ((Spares.refl (ks := fun _ => True) j a).settleOn trivial hj b).ctx
  · simp only [ne_eq, not_true_eq_false, if_false, hside, hstate, and_self, if_true]

/-- The own CLAIM's failure counts at its context, and touches no other (R7, R115). -/
theorem claimOutcome_failure (r : ClaimReason) (b : Block) : a.claimOutcome a.own y.cid (some r) b = a.claimFailed i r := by
  refine (eachCtx_only hi (fun j z t hj hz => if_pos (hone j z hz hj)) fun j hj => ?_).trans ?_
  · simp only [ne_eq, not_true_eq_false, if_false, hside, hstate, and_self, if_true]
    exact ((Spares.refl (ks := fun _ => True) j a).claimFailed trivial trivial trivial hj r).ctx
  · simp only [ne_eq, not_true_eq_false, if_false, hside, hstate, and_self, if_true]

end OwnClaim

/-- A report that frees nothing and on which no context acts ends with the re-reckoning of the owner (R12, R154). -/
theorem changeReport_idle {r : Report} {s : State} (hf : r.freed = none)
    (h : ∀ i y, s.ctx i = some y → State.reportAt r s i y = s) : s.changeReport r = s.reckonOwner := by
  rw [changeReport_of_freed_none hf, eachCtx_idle h]

theorem reportAt_claimReport_nil (x own : Byte) (c : CallId) (s : State) (i : Ref) (y : Ctx) :
    State.reportAt (claimReport x own c []) s i y = s := by
  simp [State.reportAt, claimReport]

/-- A context already SETTLING takes no new hold (R14). -/
theorem reportAt_claimReport_settling {x own : Byte} {c : CallId} {b : Block} {s : State} {i : Ref} {y : Ctx}
    (h : y.state = .settling ∨ y.cid ≠ c) : State.reportAt (claimReport x own c [⟨c, b, false⟩]) s i y = s := by
  by_cases hc : y.cid = c
  · have hs : y.state = .settling := h.resolve_right (not_not_intro hc)
    simp [State.reportAt, claimReport, hc, State.newHoldAt, hs]
  · exact reportAt_of_other hc (by simp [claimReport, Ne.symm hc]) s i

/-! ### Success -/

theorem holdOf_insertHold {h : Hold} {hs : List Hold} (hnew : ∀ x ∈ hs, x.cid ≠ h.cid) (ws : List WaitEntry) :
    Smu.holdOf ⟨insertHold h hs, ws⟩ h.cid = some h := by
  cases hk : Smu.holdOf ⟨insertHold h hs, ws⟩ h.cid with
  | none =>
    have := List.find?_eq_none.mp hk h (mem_insertHold.mpr (.inl rfl))
    simp at this
  | some k =>
    obtain ⟨hmem, hcid⟩ := holdOf_some hk
    rcases mem_insertHold.mp hmem with rfl | hmem
    · rfl
    · exact absurd hcid (hnew k hmem)

section Success

variable {s : State} {x : Byte} {c : CallId} {b w : Byte}

/-- What a successful claim test says of the copy (R6). -/
theorem claimTest_none (h : claimTest s.smu x c b.toNat w.toNat = none) :
    s.smu.has c = false ∧ blockFree s.smu.holds b.toNat w.toNat = true ∧ 0 < w.toNat ∧ b.toNat + w.toNat ≤ 24 := by
  by_cases hm : ClaimMalformed x c b.toNat w.toNat
  · rw [claimTest_of_malformed hm] at h; cases h
  · rw [claimTest_of_wellFormed hm] at h
    have hshape := hm
    simp only [ClaimMalformed, not_or, not_not] at hshape
    obtain ⟨h1, -, h2, -⟩ := hshape
    cases hh : s.smu.has c
    · cases hf : blockFree s.smu.holds b.toNat w.toNat
      · simp [hh, hf] at h
      · exact ⟨rfl, rfl, by omega, by omega⟩
    · simp [hh] at h

/-- The own CLAIM that succeeds: the hold made, and the context settled on it (R8, R118). -/
theorem claimTaken_own_success {i : Ref} {y : Ctx} (hi : s.ctx i = some y) (hside : y.side = .origin)
    (hstate : y.state = .claiming) (hone : ∀ j z, s.ctx j = some z → j ≠ i → z.cid ≠ y.cid) (hm : s.member = true)
    (hp : PathLaw s) (ht : claimTest s.smu s.own y.cid b.toNat w.toNat = none)
    (hold : ∀ o q, s.path.owner = some o → s.path.record o = some q → q.order.older s.stamp = true) :
    (s.claimTaken s.own y.cid b w).ctx i = some (y.settled (b.toNat, w.toNat) (decide (w.toNat < y.wanted)))
      ∧ SettledPort i .origin (b.toNat, w.toNat) s.path (s.claimTaken s.own y.cid b w).path := by
  obtain ⟨hhas, hfree, hw, hfit⟩ := claimTest_none ht
  have hoff : ∀ n, b.toNat ≤ n → n < b.toNat + w.toNat → s.path.enable n = none := fun n h1 h2 =>
    hp.enablesBacked.enable_of_free (blockFree_iff.mp hfree n h1 h2)
  have hrec : s.path.record i = none := hp.record_none hi (by simp [hstate])
  let added := s.addHold y.cid (b.toNat, w.toNat)
  have hheld : added.smu.holdOf y.cid = some (s.newHold y.cid (b.toNat, w.toNat)) :=
    holdOf_insertHold (h := s.newHold y.cid (b.toNat, w.toNat)) (Smu.has_eq_false_iff.mp hhas).1 s.smu.waits
  have hmet : added.settleMet i y.cid (b.toNat, w.toNat) = true := by
    refine settleMet_iff.mpr ⟨hm, ⟨_, hheld, rfl⟩, fun n h1 h2 e he => ?_⟩
    have : s.path.enable n = some e := he
    rw [hoff n h1 h2] at this
    cases this
  let settled := (added.atSettle i y (b.toNat, w.toNat) (decide (w.toNat < y.wanted)))
  have hsettled : added.settleOn i (b.toNat, w.toNat) = settled.startSettle i y.side (b.toNat, w.toNat) (decide (w.toNat < y.wanted)) := by
    rw [settleOn_eq (s := added) hi, enterSettling_met (s := added) hi hrec hmet]
  have hpath : settled.path = s.path := by simp [settled, State.atSettle, added]
  have hport : SettledPort i .origin (b.toNat, w.toNat) s.path (added.settleOn i (b.toNat, w.toNat)).path := by
    rw [hsettled, hside, ← hpath]
    refine settledPort_startSettle hw hfit (by rw [hpath]; exact hoff) (by rw [hpath]; exact hp.2.2.1) (by rw [hpath]; exact hrec)
      fun o q ho hq => ?_
    rw [hpath] at ho hq
    have hstamp : settled.stamp = s.stamp := by simp [State.stamp, settled, State.atSettle, added]
    rw [hstamp]
    exact hold o q ho hq
  have hctx : ∀ j, (added.settleOn i (b.toNat, w.toNat)).ctx j
      = if j = i then some (y.settled (b.toNat, w.toNat) (decide (w.toNat < y.wanted))) else s.ctx j := fun j => by
    rw [hsettled, ctx_startSettle]
    simp only [settled, State.atSettle, State.ctx_setCtx, ctx_post]
    rfl
  have htaken : s.claimTaken s.own y.cid b w = added.settleOn i (b.toNat, w.toNat) := by
    rw [claimTaken_success ht]
    have hout : added.claimOutcome s.own y.cid none (b.toNat, w.toNat) = added.settleOn i (b.toNat, w.toNat) :=
      claimOutcome_success (a := added) hi hside hstate hone _
    rw [show (s.addHold y.cid (b.toNat, w.toNat)).claimOutcome s.own y.cid none (b.toNat, w.toNat) = _ from hout,
      changeReport_idle rfl fun j z hz => ?_, reckonOwner_of_best hport.best]
    refine reportAt_claimReport_settling ?_
    rw [hctx] at hz
    split at hz
    · obtain rfl := Option.some.inj hz; exact .inl rfl
    · exact .inr (hone j z hz (by assumption))
  rw [htaken]
  exact ⟨by rw [hctx, if_pos rfl], hport⟩

end Success

end Sys2Proof.Machine
end

section
/-! PROOFS. The own CLAIM that fails, and the next choice from the copy (R114, R115). -/

namespace Sys2Proof.Machine

/-! ### Notices -/

theorem posted_post (s : State) (n : Notice) : Posted n (s.post n) := by
  unfold State.post
  split
  · exact .inl (by simp [Sport.recompute])
  · rename_i h
    exact .inr ⟨not_lt.mp h, rfl⟩

theorem Posted.of_sport {n : Notice} {s t : State} (h : Posted n s) (ht : t.sport = s.sport) : Posted n t := by
  unfold Posted; rwa [ht]

theorem SettlesOn.of_same {i : Ref} {y : Ctx} {b : Block} {trimmed : Bool} {s t : State} (h : SettlesOn i y b trimmed s)
    (hc : t.ctx i = s.ctx i) (hr : t.path.record i = s.path.record i) : SettlesOn i y b trimmed t := by
  unfold SettlesOn; rwa [hc, hr]

/-- A change of contexts that keeps each live one's call keeps the enables backed. -/
theorem State.EnablesBacked.of_cids {s t : State} (h : s.EnablesBacked) (hp : t.path = s.path) (hm : t.smu = s.smu)
    (hc : ∀ j x, s.ctx j = some x → ∃ x', t.ctx j = some x' ∧ x'.cid = x.cid) : t.EnablesBacked := by
  intro n e he
  rw [hp] at he
  obtain ⟨r, x, k, h1, h2, h3, hx, h4, h5⟩ := h n e he
  obtain ⟨x', hx', hcid⟩ := hc e.ref x hx
  exact ⟨r, x', k, by rw [hp]; exact h1, h2, h3, hx', by rw [hm, hcid]; exact h4, h5⟩

/-! ### The next choice -/

/-- A context as it enters WAITING (R116). -/
def Ctx.waitUntil (y : Ctx) (expiry : Nat) : Ctx := { y.stopTimers with state := .waiting, wait := some expiry }

theorem position_none_iff {m : Smu} {c : CallId} : m.position c = none ↔ ∀ w ∈ m.waits, w.cid ≠ c := by
  simp [Smu.position]

section Choose

variable {a : State} {i : Ref} {y : Ctx} (hi : a.ctx i = some y)
include hi

theorem queueWait_accepted (ha : a.accepts (.wait y.cid (byte y.wanted)) = true) :
    a.queueWait i = a.queueFrame (.wait y.cid (byte y.wanted)) := by
  simp only [State.queueWait, hi, ha, if_true]

theorem choose_hold {h : Hold} (hh : a.smu.holdOf y.cid = some h) : a.choose i = a.settleOn i (h.base, h.width) := by
  simp only [State.choose, Config.claimAttempts, State.chooseFrame, hi, hh]

theorem choose_position {p : Nat} (hh : a.smu.holdOf y.cid = none) (hp : a.smu.position y.cid = some p) :
    a.choose i = a.enterWaiting i p := by
  simp only [State.choose, Config.claimAttempts, State.chooseFrame, hi, hh, hp]

theorem choose_placed (hh : a.smu.has y.cid = false) {b : Block} (hb : placement a.smu.holds y.wanted = some b)
    (ha : a.accepts (.claim y.cid (byte b.1) (byte b.2)) = true) :
    a.choose i = a.queueFrame (.claim y.cid (byte b.1) (byte b.2)) := by
  obtain ⟨h1, h2⟩ := Smu.has_eq_false_iff.mp hh
  have hhold : a.smu.holdOf y.cid = none := by simpa [Smu.holdOf] using h1
  simp only [State.choose, Config.claimAttempts, State.chooseFrame, hi, hhold, position_none_iff.mpr h2, hb, ha, if_true]

theorem choose_unplaced (hh : a.smu.has y.cid = false) (hb : placement a.smu.holds y.wanted = none) :
    a.choose i = a.queueWait i := by
  obtain ⟨h1, h2⟩ := Smu.has_eq_false_iff.mp hh
  have hhold : a.smu.holdOf y.cid = none := by simpa [Smu.holdOf] using h1
  simp only [State.choose, Config.claimAttempts, State.chooseFrame, hi, hhold, position_none_iff.mpr h2, hb]

theorem claimFailed_below (r : ClaimReason) (h : y.attempts + 1 < 4) :
    a.claimFailed i r = (a.setCtx i (some (y.failClaim r))).choose i := by
  simp only [State.claimFailed, hi]
  exact if_pos h

theorem claimFailed_fourth (r : ClaimReason) (h : 4 ≤ y.attempts + 1) :
    a.claimFailed i r = (a.setCtx i (some (y.failClaim r))).queueWait i := by
  simp only [State.claimFailed, hi]
  exact if_neg (by simpa [Ctx.failClaim, Config.claimAttempts] using h)

/-- A context enters WAITING, and says so (R116, R126). -/
theorem enterWaiting_eq (p : Nat) :
    a.enterWaiting i p = (a.post (.callState i y.cid (.waiting p))).setCtx i
      (some (y.waitUntil (a.now + 1000 * a.sport.config.waitLimit))) := by
  rw [State.enterWaiting, modifyCtx_live hi, State.callState, State.ctx_setCtx, if_pos rfl]
  exact setCtx_post _ _ _ _

end Choose

/-! ### Failure -/

/-- The own CLAIM that fails: the failure at its context, and the owner re-reckoned (R7, R115, R154). -/
theorem claimTaken_own_failure {s : State} {b w : Byte} {i : Ref} {y : Ctx} (hi : s.ctx i = some y) (hside : y.side = .origin)
    (hstate : y.state = .claiming) (hone : ∀ j z, s.ctx j = some z → j ≠ i → z.cid ≠ y.cid) {r : ClaimReason}
    (ht : claimTest s.smu s.own y.cid b.toNat w.toNat = some r) :
    s.claimTaken s.own y.cid b w = (s.claimFailed i r).reckonOwner := by
  rw [claimTaken_failure ht, claimOutcome_failure hi hside hstate hone]
  exact changeReport_idle rfl fun j z _ => reportAt_claimReport_nil _ _ _ _ _ _

/-- A frame queued for a context whose failure was counted. -/
theorem queued_after_failure {s t : State} {i : Ref} {y' : Ctx} {f : Frame} (ha : s.accepts f = true)
    (ht : t = (((s.setCtx i (some y')).queueFrame f).reckonOwner).leaveCheck) :
    t.ctx i = some y' ∧ OtherContextsKept i s t ∧ t.smu = s.smu ∧ t.rif.queue = s.rif.queue ++ [Entry.fresh f] := by
  have hlive : (((s.setCtx i (some y')).queueFrame f).reckonOwner).ctx i = some y' := by simp
  have ha' : (s.setCtx i (some y')).accepts f = true := ha
  rw [leaveCheck_of_live hlive] at ht
  subst ht
  refine ⟨hlive, fun j hj => by simp [hj], by simp, ?_⟩
  rw [reckonOwner_rif, queueFrame_accepted ha']
  rfl

/-- Settles O19: the own CLAIM acts at its context alone, and PATH and the copy show the rest. -/
theorem ownClaimStartsSettling : Obligations.OwnClaimStartsSettling := by
  unfold Obligations.OwnClaimStartsSettling
  rintro s c b w i x he hi hside rfl hstate hone
  have hexec : exec (.claimTaken s.own x.cid b w) s
      = .next (((s.onEcho ⟨.claim, .call x.cid⟩).claimTaken s.own x.cid b w).leaveCheck) := congrArg _ (taking_of_echoes he _ _)
  refine ⟨fun ht hp hold => ?_, fun k ht => ?_⟩
  · obtain ⟨hctx, hport⟩ := claimTaken_own_success (s := s.onEcho ⟨.claim, .call x.cid⟩) hi hside hstate hone he.1 hp ht hold
    have htaken : (s.onEcho ⟨.claim, .call x.cid⟩).own = s.own := rfl
    rw [htaken] at hctx hport
    rw [leaveCheck_of_live hctx] at hexec
    obtain ⟨⟨r, hr, hblock, hhalf⟩, hrecs, htake, hkeep, hon, hoff, -⟩ := hport
    exact ⟨_, r, hexec, hctx, hr, congrArg Prod.fst hblock, congrArg Prod.snd hblock, hhalf, hrecs, htake, hkeep, hon, hoff⟩
  · intro base y queues moves
    have htaken : base.claimTaken s.own x.cid b w = (base.claimFailed i k).reckonOwner :=
      claimTaken_own_failure (s := base) hi hside hstate hone ht
    rw [show s.onEcho ⟨.claim, .call x.cid⟩ = base from rfl, htaken] at hexec
    have hy : (base.setCtx i (some y)).ctx i = some y := by simp
    have hbelow : y.attempts < 4 → base.claimFailed i k = (base.setCtx i (some y)).choose i := claimFailed_below (a := base) hi k
    have hfourth : 4 ≤ y.attempts → base.claimFailed i k = (base.setCtx i (some y)).queueWait i :=
      claimFailed_fourth (a := base) hi k
    refine ⟨fun hn hhas p hpl hacc => ?_, fun hcase hacc => ?_, fun hn hp hl => ⟨fun h hh => ?_, fun p hh hpos => ?_⟩⟩
    · rw [hbelow hn, choose_placed hy hhas hpl hacc] at hexec
      exact ⟨_, hexec, queued_after_failure hacc rfl⟩
    · have hwait : base.claimFailed i k = (base.setCtx i (some y)).queueFrame (.wait y.cid (byte y.wanted)) := by
        rw [← queueWait_accepted hy hacc]
        rcases Nat.lt_or_ge y.attempts 4 with hn | hn
        · obtain ⟨hhas, hpl⟩ := hcase.resolve_left (by omega)
          rw [hbelow hn, choose_unplaced hy hhas hpl]
        · exact hfourth hn
      rw [hwait] at hexec
      exact ⟨_, hexec, queued_after_failure hacc rfl⟩
    · have hbacked : (base.setCtx i (some y)).EnablesBacked := by
        refine hp.enablesBacked.of_cids rfl rfl fun j z hz => ?_
        by_cases hj : j = i
        · subst hj
          exact ⟨y, hy, (congrArg Ctx.cid (Option.some.inj (hi.symm.trans hz)) : x.cid = z.cid)⟩
        · exact ⟨z, by rw [State.ctx_setCtx, if_neg hj]; exact hz, rfl⟩
      have hrec : (base.setCtx i (some y)).path.record i = none := hp.record_none hi (by simp [hstate])
      have hmet : (base.setCtx i (some y)).settleMet i y.cid (h.base, h.width) = true := by
        refine settleMet_of_backed he.1 hbacked hl.heldOnce (fun j z hz hj => ?_) hh
        rw [State.ctx_setCtx, if_neg hj] at hz
        exact hone j z hz hj
      rw [hbelow hn, choose_hold hy hh, settleOn_eq hy] at hexec
      have hsettles := settlesOn_enterSettling (trimmed := decide (h.width < y.wanted)) hy hrec hmet
      have hlive := (ctx_reckonOwner _ i).trans hsettles.1
      rw [leaveCheck_of_live hlive] at hexec
      refine ⟨_, ⟨hexec, fun j hj => ?_, ?_, ?_⟩, hsettles.of_same (ctx_reckonOwner _ i) (State.record_reckonOwner _ i)⟩
      · rw [ctx_reckonOwner, enterSettling_met hy hrec hmet, ctx_startSettle]
        simp [State.atSettle, hj]
        rfl
      · rw [reckonOwner_smu, enterSettling_met hy hrec hmet, startSettle_smu]
        simp [State.atSettle]
        rfl
      · rw [reckonOwner_rif, enterSettling_met_rif hy hrec hmet]
        rfl
    · rw [hbelow hn, choose_position hy hh hpos, enterWaiting_eq hy, State.setCtx_now, State.setCtx_sport] at hexec
      have hctx : ∀ j, (((base.setCtx i (some y)).post (.callState i y.cid (.waiting p))).setCtx i
          (some (y.waitUntil (base.now + 1000 * base.sport.config.waitLimit)))).ctx j
            = if j = i then some (y.waitUntil (base.now + 1000 * base.sport.config.waitLimit)) else s.ctx j := fun j => by
        rw [State.ctx_setCtx, ctx_post, State.ctx_setCtx]
        split <;> rfl
      have hbest : base.path.bestOwner = base.path.owner := hp.2.2.1.symm
      rw [reckonOwner_of_best (by simpa using hbest), leaveCheck_of_live ((hctx i).trans (if_pos rfl))] at hexec
      refine ⟨_, ⟨hexec, fun j hj => (hctx j).trans (if_neg hj), ?_, ?_⟩, (posted_post _ _).of_sport rfl,
        (hctx i).trans (if_pos rfl)⟩
      · exact (State.post_smu _ _).trans rfl
      · exact congrArg Rif.queue (State.post_rif _ _)

end Sys2Proof.Machine
end

section
/-! PROOFS. A context that ends or enters CLEARING, seen at that context: its steps one by one, and what each leaves (R96, R119, R121,
R123, R140). -/

namespace Sys2Proof.Machine

/-! ### Recalls asked and frames queued -/

/-- From a to t recalls were asked at most, and frames queued of kinds in `ks` alone. -/
structure Adds (ks : FrameKind → Prop) (a t : State) : Prop where
  recalls : a.rif.recalls <+: t.rif.recalls
  queue : ∃ fs : List Frame, t.rif.queue = a.rif.queue ++ fs.map Entry.fresh ∧ ∀ f ∈ fs, ks f.kind

section Adds

variable {ks : FrameKind → Prop} {a s t : State}

theorem Spares.adds {j : Ref} (h : Spares ks j a t) : Adds ks a t := ⟨h.recalls, h.queue⟩

theorem Adds.refl (ks : FrameKind → Prop) (a : State) : Adds ks a a := (Spares.refl 0 a).adds

theorem Adds.trans (h : Adds ks a s) (k : Adds ks s t) : Adds ks a t := by
  obtain ⟨fs, hq, hfs⟩ := h.queue
  obtain ⟨gs, hr, hgs⟩ := k.queue
  refine ⟨h.recalls.trans k.recalls, fs ++ gs, ?_, fun f hf => (List.mem_append.mp hf).elim (hfs f) (hgs f)⟩
  rw [hr, hq, List.map_append, List.append_assoc]

theorem Adds.of_rif (h : t.rif = s.rif) : Adds ks s t := ⟨by rw [h], [], by simp [h], by simp⟩

theorem Adds.askRecall (s : State) (id : FrameId) : Adds ks s (s.askRecall id) := ((Spares.refl 0 s).askRecall id).adds

/-- There is another context to spare. -/
theorem exists_ne_ref (i : Ref) : ∃ j : Ref, j ≠ i := by revert i; decide

/-- An operation at one context that spares every other adds recalls and frames alone. -/
theorem Adds.of_spares {i : Ref} (h : ∀ j, j ≠ i → Spares ks j a t) : Adds ks a t := by
  obtain ⟨j, hj⟩ := exists_ne_ref i
  exact (h j hj).adds

/-- An entry of another kind is queued after as before. -/
theorem Adds.queued {id : FrameId} (h : Adds ks a t) (hk : ¬ ks id.kind) : t.queued id = a.queued id := by
  obtain ⟨fs, hq, hfs⟩ := h.queue
  have hnone : (fs.map Entry.fresh).any (fun e => decide (e.frame.ident = id)) = false := by
    rw [List.any_eq_false]
    intro e he
    obtain ⟨f, hf, rfl⟩ := List.mem_map.mp he
    refine fun heq => hk ?_
    have : f.ident = id := of_decide_eq_true heq
    rw [← this]
    exact hfs f hf
  rw [State.queued, State.queued, hq, List.any_append, hnone, Bool.or_false]

theorem Adds.queued_of {id : FrameId} (h : Adds ks a t) (hq : a.queued id = true) : t.queued id = true := by
  obtain ⟨fs, hfs, -⟩ := h.queue
  rw [State.queued, hfs, List.any_append, Bool.or_eq_true]
  exact .inl hq

theorem Adds.mem {e : Entry} (h : Adds ks a t) (he : e ∈ a.rif.queue) : e ∈ t.rif.queue := by
  obtain ⟨fs, hq, -⟩ := h.queue
  rw [hq]
  exact List.mem_append_left _ he

/-- An open recall stays open while recalls are added. -/
theorem Adds.recallOpen {id : FrameId} (h : Adds ks a t) (hr : a.recallOpen id) : t.recallOpen id := by
  obtain ⟨r, hmem, hid⟩ := hr
  exact ⟨r, h.recalls.subset hmem, hid⟩

end Adds

theorem Recall.opens_iff {r : Recall} {id : FrameId} : r.opens id = true ↔ r.id = id ∧ r.isOpen = true := by
  simp [Recall.opens]

/-- A recall asked of a queued frame is open (R56). -/
theorem recallOpen_askRecall {s : State} {id : FrameId} (h : s.queued id = true) : (s.askRecall id).recallOpen id := by
  unfold State.recallOpen
  rw [askRecall_recalls]
  split
  · exact ⟨⟨id, .asked⟩, List.mem_append_right _ (List.mem_singleton.mpr rfl), rfl, rfl⟩
  · rename_i hn
    push Not at hn
    obtain ⟨r, hr, ho⟩ := hn h
    exact ⟨r, hr, Recall.opens_iff.mp (by simpa using ho)⟩

@[simp] theorem queued_askRecall (s : State) (id id' : FrameId) : (s.askRecall id).queued id' = s.queued id' := by
  unfold State.queued; rw [State.askRecall_queue]

/-- The three recalls of a call's frames are open where the frames are queued (R120, R121). -/
theorem recallOpen_recallCall {s : State} {c : CallId} {k : FrameKind} (hk : k ∈ [FrameKind.ring, .claim, .wait])
    (h : s.queued ⟨k, .call c⟩ = true) : (s.recallCall c).recallOpen ⟨k, .call c⟩ := by
  have hadd : ∀ t : State, ∀ id, Adds (fun _ => True) t (t.askRecall id) := fun t id => Adds.askRecall t id
  rcases List.mem_cons.mp hk with rfl | hk
  · exact (hadd _ _).recallOpen ((hadd _ _).recallOpen (recallOpen_askRecall h))
  · rcases List.mem_cons.mp hk with rfl | hk
    · exact (hadd _ _).recallOpen (recallOpen_askRecall (by simpa using h))
    · rw [List.mem_singleton.mp hk] at h ⊢
      exact recallOpen_askRecall (by simpa using h)

section RecallCall

variable (s : State) (c : CallId)

@[simp] theorem recallCall_now : (s.recallCall c).now = s.now := by simp [State.recallCall]
@[simp] theorem recallCall_smu : (s.recallCall c).smu = s.smu := by simp [State.recallCall]
@[simp] theorem recallCall_stc : (s.recallCall c).stc = s.stc := by simp [State.recallCall]
@[simp] theorem recallCall_ctxs : (s.recallCall c).ctxs = s.ctxs := by simp [State.recallCall]
@[simp] theorem recallCall_path : (s.recallCall c).path = s.path := by simp [State.recallCall]
@[simp] theorem recallCall_oku : (s.recallCall c).oku = s.oku := by simp [State.recallCall]
@[simp] theorem recallCall_sport : (s.recallCall c).sport = s.sport := by simp [State.recallCall]
@[simp] theorem recallCall_queue : (s.recallCall c).rif.queue = s.rif.queue := by simp [State.recallCall]
@[simp] theorem ctx_recallCall (i : Ref) : (s.recallCall c).ctx i = s.ctx i := State.ctx_congr (by simp) i

end RecallCall

/-! ### Duties dropped -/

/-- A context leaves its seek record: UDIR alone changes, but for a recall asked (R96). -/
theorem leaveSeek_eq (s : State) (i : Ref) :
    ∃ d id, s.leaveSeek i = { s with udir := d } ∨ s.leaveSeek i = ({ s with udir := d } : State).askRecall id := by
  unfold State.leaveSeek
  cases s.udir.seeks.find? fun r => r.refs.contains i with
  | none => exact ⟨s.udir, ⟨.seek, .bare⟩, .inl rfl⟩
  | some r =>
    dsimp only
    split
    · split
      · exact ⟨_, _, .inr rfl⟩
      · exact ⟨_, ⟨.seek, .bare⟩, .inl rfl⟩
    · exact ⟨_, ⟨.seek, .bare⟩, .inl rfl⟩

section DropDuties

variable (s : State) (i : Ref)

@[simp] theorem leaveSeek_now : (s.leaveSeek i).now = s.now := by obtain ⟨d, id, h | h⟩ := leaveSeek_eq s i <;> simp [h]
@[simp] theorem leaveSeek_smu : (s.leaveSeek i).smu = s.smu := by obtain ⟨d, id, h | h⟩ := leaveSeek_eq s i <;> simp [h]
@[simp] theorem leaveSeek_stc : (s.leaveSeek i).stc = s.stc := by obtain ⟨d, id, h | h⟩ := leaveSeek_eq s i <;> simp [h]
@[simp] theorem leaveSeek_ctxs : (s.leaveSeek i).ctxs = s.ctxs := by obtain ⟨d, id, h | h⟩ := leaveSeek_eq s i <;> simp [h]
@[simp] theorem leaveSeek_path : (s.leaveSeek i).path = s.path := by obtain ⟨d, id, h | h⟩ := leaveSeek_eq s i <;> simp [h]
@[simp] theorem leaveSeek_sport : (s.leaveSeek i).sport = s.sport := by obtain ⟨d, id, h | h⟩ := leaveSeek_eq s i <;> simp [h]
@[simp] theorem leaveSeek_queue : (s.leaveSeek i).rif.queue = s.rif.queue := by
  obtain ⟨d, id, h | h⟩ := leaveSeek_eq s i <;> simp [h]

@[simp] theorem dropDuties_now : (s.dropDuties i).now = s.now := by simp [State.dropDuties]
@[simp] theorem dropDuties_smu : (s.dropDuties i).smu = s.smu := by simp [State.dropDuties]
@[simp] theorem dropDuties_stc : (s.dropDuties i).stc = s.stc := by simp [State.dropDuties]
@[simp] theorem dropDuties_ctxs : (s.dropDuties i).ctxs = s.ctxs := by simp [State.dropDuties]
@[simp] theorem dropDuties_path : (s.dropDuties i).path = s.path := by simp [State.dropDuties]
@[simp] theorem dropDuties_sport : (s.dropDuties i).sport = s.sport := by simp [State.dropDuties]
@[simp] theorem dropDuties_queue : (s.dropDuties i).rif.queue = s.rif.queue := by simp [State.dropDuties]
@[simp] theorem ctx_dropDuties (j : Ref) : (s.dropDuties i).ctx j = s.ctx j := State.ctx_congr (by simp) j

/-- A context that drops its duties alerts no more (R169). -/
theorem alerting_dropDuties : (s.dropDuties i).oku.alerting[i] = false := by
  show (((s.leaveSeek i).setAlerting i false).setDoor i none).oku.alerting[i] = false
  exact (alerting_setAlerting _ _ _ _).trans (if_pos rfl)

end DropDuties

/-! ### CALL_ENDED -/

/-- CALL_ENDED is posted once: a notice at most, and the context's mark of it (R123, R143). -/
theorem postEnd_eq {s : State} {i : Ref} {y : Ctx} (h : s.ctx i = some y) :
    s.postEnd i = if y.endPosted then s
      else (s.post (.callEnded i y.cid y.cause)).setCtx i (some { y with endPosted := true }) := by
  simp only [State.postEnd, h]

theorem postEnd_of_free {s : State} {i : Ref} (h : s.ctx i = none) : s.postEnd i = s := by simp only [State.postEnd, h]

section PostEnd

variable (s : State) (i : Ref)

theorem postEnd_cases : s.postEnd i = s ∨ ∃ n c, s.postEnd i = (s.post n).setCtx i c := by
  cases h : s.ctx i with
  | none => exact .inl (postEnd_of_free h)
  | some y =>
    rw [postEnd_eq h]
    split
    · exact .inl rfl
    · exact .inr ⟨_, _, rfl⟩

@[simp] theorem postEnd_now : (s.postEnd i).now = s.now := by obtain h | ⟨n, c, h⟩ := postEnd_cases s i <;> simp [h]
@[simp] theorem postEnd_smu : (s.postEnd i).smu = s.smu := by obtain h | ⟨n, c, h⟩ := postEnd_cases s i <;> simp [h]
@[simp] theorem postEnd_stc : (s.postEnd i).stc = s.stc := by obtain h | ⟨n, c, h⟩ := postEnd_cases s i <;> simp [h]
@[simp] theorem postEnd_rif : (s.postEnd i).rif = s.rif := by obtain h | ⟨n, c, h⟩ := postEnd_cases s i <;> simp [h]
@[simp] theorem postEnd_path : (s.postEnd i).path = s.path := by obtain h | ⟨n, c, h⟩ := postEnd_cases s i <;> simp [h]
@[simp] theorem postEnd_oku : (s.postEnd i).oku = s.oku := by obtain h | ⟨n, c, h⟩ := postEnd_cases s i <;> simp [h]

theorem ctx_postEnd : (s.postEnd i).ctx i = (s.ctx i).map fun y => { y with endPosted := true } := by
  cases h : s.ctx i with
  | none => rw [postEnd_of_free h, h]; rfl
  | some y =>
    rw [postEnd_eq h]
    by_cases hp : y.endPosted = true
    · rw [if_pos hp, h, Option.map_some, ← hp]
    · rw [if_neg hp]; simp

@[simp] theorem freeCtx_now : (s.freeCtx i).now = s.now := by simp [State.freeCtx]
@[simp] theorem freeCtx_smu : (s.freeCtx i).smu = s.smu := by simp [State.freeCtx]
@[simp] theorem freeCtx_stc : (s.freeCtx i).stc = s.stc := by simp [State.freeCtx]
@[simp] theorem freeCtx_rif : (s.freeCtx i).rif = s.rif := by simp [State.freeCtx]
@[simp] theorem freeCtx_path : (s.freeCtx i).path = s.path := by simp [State.freeCtx]
@[simp] theorem freeCtx_oku : (s.freeCtx i).oku = s.oku := by simp [State.freeCtx]
@[simp] theorem ctx_freeCtx : (s.freeCtx i).ctx i = none := by simp [State.freeCtx]

end PostEnd

/-! ### Ending and clearing -/

/-- A context as it enters a final CLEARING, CALL_ENDED posted (R119, R121, R140). -/
def Ctx.cleared (y : Ctx) (k : Cause) : Ctx :=
  { (y.stopTimers).firstCause k with
    state := .clearing, reversible := false, forward := if y.forward = .seeking then .none else y.forward, endPosted := true }

section Clearing

variable (s : State) (i : Ref) (k : Cause)

@[simp] theorem enterClearing_now (f : Bool) : (s.enterClearing i k f).now = s.now := by unfold State.enterClearing; split <;> simp
@[simp] theorem enterClearing_smu (f : Bool) : (s.enterClearing i k f).smu = s.smu := by unfold State.enterClearing; split <;> simp
@[simp] theorem enterClearing_stc (f : Bool) : (s.enterClearing i k f).stc = s.stc := by unfold State.enterClearing; split <;> simp
@[simp] theorem enterClearing_path (f : Bool) : (s.enterClearing i k f).path = s.path := by
  unfold State.enterClearing; split <;> simp
@[simp] theorem enterClearing_queue (f : Bool) : (s.enterClearing i k f).rif.queue = s.rif.queue := by
  unfold State.enterClearing; split <;> simp
@[simp] theorem queued_enterClearing (f : Bool) (id : FrameId) : (s.enterClearing i k f).queued id = s.queued id := by
  unfold State.queued; rw [enterClearing_queue]

theorem alerting_enterClearing : (s.enterClearing i k true).oku.alerting[i] = false := by
  simp only [State.enterClearing, if_true, postEnd_oku, alerting_dropDuties]

variable {s i}

theorem ctx_enterClearing {y : Ctx} (h : s.ctx i = some y) : (s.enterClearing i k true).ctx i = some (y.cleared k) := by
  have hm : ∀ f, ((s.modifyCtx i f).dropDuties i).ctx i = some (f y) := fun f => by simp [State.ctx_modifyCtx, h]
  simp only [State.enterClearing, if_true, ctx_postEnd, hm, Option.map_some, Bool.not_true]
  rfl

/-- What a final clearing leaves fits the statements' words for it (R121). -/
theorem clearing_cleared (y : Ctx) (w : Awaits) : Clearing y (y.cause.getD k) false { y.cleared k with awaits := w } :=
  ⟨rfl, rfl, rfl, rfl, rfl, rfl, rfl, rfl, rfl, rfl⟩

variable (s i)

@[simp] theorem endNow_smu : (s.endNow i k).smu = s.smu := by simp [State.endNow]
@[simp] theorem endNow_stc : (s.endNow i k).stc = s.stc := by simp [State.endNow]
@[simp] theorem endNow_path : (s.endNow i k).path = s.path := by simp [State.endNow]
@[simp] theorem endNow_queue : (s.endNow i k).rif.queue = s.rif.queue := by simp [State.endNow]
@[simp] theorem ctx_endNow : (s.endNow i k).ctx i = none := by simp [State.endNow]

theorem alerting_endNow : (s.endNow i k).oku.alerting[i] = false := by
  simp only [State.endNow, freeCtx_oku, alerting_dropDuties]

end Clearing

/-! ### The notices of an ending -/

theorem EndSaid.mono {i : Ref} {y : Ctx} {k : Cause} {s t u : State} (h : EndSaid i y k s t)
    (hu : t.sport.notices <+: u.sport.notices) : EndSaid i y k s u := fun h1 h2 => hu.subset (h h1 h2)

theorem EndSaid.from_sport {i : Ref} {y : Ctx} {k : Cause} {s s' t : State} (h : EndSaid i y k s t) (hs : s'.sport = s.sport) :
    EndSaid i y k s' t := by unfold EndSaid; rwa [hs]

theorem mem_post {s : State} (n : Notice) (h : s.sport.notices.length < Config.noticeCap) : n ∈ (s.post n).sport.notices := by
  rw [post_notices, if_pos h]; simp

/-- CALL_ENDED stands among the notices where there was room for it (R123). -/
theorem mem_postEnd {s : State} {i : Ref} {y : Ctx} (h : s.ctx i = some y) (hp : y.endPosted = false)
    (hn : s.sport.notices.length < Config.noticeCap) : .callEnded i y.cid y.cause ∈ (s.postEnd i).sport.notices := by
  rw [postEnd_eq h, hp]
  simpa using mem_post _ hn

theorem endSaid_enterClearing {s : State} {i : Ref} {y : Ctx} (h : s.ctx i = some y) (k : Cause) :
    EndSaid i y k s (s.enterClearing i k true) := by
  intro hp hn
  simp only [State.enterClearing, if_true]
  exact mem_postEnd (i := i) (y := { (y.stopTimers).firstCause k with
      state := .clearing, reversible := false, forward := if y.forward = .seeking then .none else y.forward })
    (by simp [State.ctx_modifyCtx, h]) hp (by simpa using hn)

theorem endSaid_endNow {s : State} {i : Ref} {y : Ctx} (h : s.ctx i = some y) (k : Cause) : EndSaid i y k s (s.endNow i k) := by
  intro hp hn
  simp only [State.endNow, State.freeCtx, State.setCtx_sport]
  exact mem_postEnd (i := i) (y := (y.stopTimers).firstCause k) (by simp [State.ctx_modifyCtx, h]) hp (by simpa using hn)

/-! ### The RELEASE -/

/-- The RELEASE of a context, with its cause (R121). -/
def Ctx.releaseFrame (y : Ctx) : Frame := .release y.cid (causeByte y.cause)

theorem queueRelease_accepted {s : State} {i : Ref} {y : Ctx} (h : s.ctx i = some y) (ha : s.accepts y.releaseFrame = true) :
    s.queueRelease i = (s.queueFrame y.releaseFrame).setCtx i (some { y with awaits := .release }) := by
  simp only [State.queueRelease, h]
  refine (if_pos ha).trans ?_
  rw [State.setAwaits, modifyCtx_live ((ctx_queueFrame _ _ i).trans h)]
  rfl

/-- An announced call, or one at the answering side, queues its RELEASE where there is room (R121 step 5, R140). -/
theorem sendRelease_accepted {s : State} {i : Ref} {y : Ctx} (h : s.ctx i = some y) (hy : y.announced = true ∨ y.side = .answer)
    (ha : s.accepts y.releaseFrame = true) :
    s.sendRelease i = (s.queueFrame y.releaseFrame).setCtx i (some { y with awaits := .release }) := by
  rw [← queueRelease_accepted h ha]
  simp only [State.sendRelease, h]
  exact if_pos hy

theorem accepts_release {s : State} (y : Ctx) (hs : s.stc.state.sends = true) (hc : s.rif.count .call < 8) :
    s.accepts y.releaseFrame = true := (accepts_call rfl).mpr ⟨hs, hc⟩

end Sys2Proof.Machine
end

section
/-! PROOFS. Dark contexts, enables that stay backed, and a final clearing on a dark path (R121, R140, R147, R154, R156). -/

namespace Sys2Proof.Machine

/-! ### Dark contexts -/

/-- No enable is ON for context i. -/
def Path.Dark (p : Path) (i : Ref) : Prop := ∀ n e, p.enable n = some e → e.ref ≠ i

theorem Path.Dark.lit {p : Path} {i : Ref} (h : p.Dark i) : p.lit i = false := by
  cases hr : p.record i with
  | none => exact Path.lit_none hr
  | some r =>
    rw [← Bool.not_eq_true, Path.lit_iff hr]
    rintro ⟨n, e, -, -, he, hi⟩
    exact h n e he hi

/-- A new content leaves the enables with their contexts: what is ON after was ON for the same context before. -/
theorem Path.dark_setContent {p : Path} {j : Ref} (h : p.Dark j) (i : Ref) (c : Content) : (p.setContent i c).Dark j := by
  intro n e he
  cases hr : p.record i with
  | none => rw [Path.setContent_none hr] at he; exact h n e he
  | some r =>
    rw [Path.enable_setContent hr] at he
    split at he
    · rename_i hl
      obtain ⟨m, e', -, -, he', hi⟩ := (Path.lit_iff hr).mp hl.1
      obtain rfl := Option.some.inj he
      rintro rfl
      exact h m e' he' hi
    · exact h n e he

theorem Path.dark_changeOwner {p : Path} {j : Ref} (h : p.Dark j) (o : Option Ref) : (p.changeOwner o).Dark j := by
  have hw : ∀ q : Path, q.Dark j → ∀ o, (q.withOwner o).Dark j := fun q hq o n e he =>
    hq n e (by rwa [Path.enable_withOwner] at he)
  have hstep : ∀ (q : Path) (c : Content) (o : Option Ref), q.Dark j →
      (match o with | some i => q.setContent i c | none => q : Path).Dark j := fun q c o hq => by
    cases o with
    | none => exact hq
    | some i => exact Path.dark_setContent hq i c
  unfold Path.changeOwner
  exact hw _ (hstep _ _ _ (hstep _ _ _ h)) _

theorem dark_reckonOwner {s : State} {j : Ref} (h : s.path.Dark j) : s.reckonOwner.path.Dark j := by
  rw [State.reckonOwner_path]
  split
  · exact h
  · exact Path.dark_changeOwner h _

theorem Path.enable_remove {p : Path} {i : Ref} {r : PathRec} (h : p.record i = some r) (n : Nat) :
    (p.remove i).enable n =
      if p.lit i = true ∧ n < 24 ∧ r.base ≤ n ∧ n < r.base + r.width then none else p.enable n := by
  unfold Path.remove
  rw [h]
  by_cases hl : p.lit i = true
  · simp [hl, Path.enable_setBlock, PathRec.block]
  · simp [hl]

theorem Path.remove_none {p : Path} {i : Ref} (h : p.record i = none) : p.remove i = p := by unfold Path.remove; rw [h]

theorem Path.enable_of_remove {p : Path} {i : Ref} {n : Nat} {e : Enable} (h : (p.remove i).enable n = some e) :
    p.enable n = some e := by
  cases hr : p.record i with
  | none => rwa [Path.remove_none hr] at h
  | some r =>
    rw [Path.enable_remove hr] at h
    split at h
    · cases h
    · exact h

theorem dark_cutPath {s : State} {j : Ref} (h : s.path.Dark j) (i : Ref) : (s.cutPath i).path.Dark j :=
  fun n e he => h n e (Path.enable_of_remove he)

/-! ### Enables that stay backed -/

namespace State.EnablesBacked

variable {s t : State} {i : Ref}

/-- A context without a record is dark. -/
theorem dark_of_record (h : s.EnablesBacked) (hr : s.path.record i = none) : s.path.Dark i := by
  rintro n e he rfl
  obtain ⟨r, -, -, hrec, -⟩ := h n e he
  rw [hr] at hrec
  cases hrec

theorem lit_of_enable (h : s.EnablesBacked) {n : Nat} {e : Enable} (he : s.path.enable n = some e) :
    s.path.lit e.ref = true := by
  obtain ⟨r, -, -, hrec, h1, h2, -⟩ := h n e he
  exact (Path.lit_iff hrec).mpr ⟨n, e, h1, h2, he, rfl⟩

/-- What becomes of a dark context leaves the enables backed. -/
theorem of_dark (h : s.EnablesBacked) (hp : t.path = s.path) (hm : t.smu = s.smu) (hd : s.path.Dark i)
    (hc : ∀ j, j ≠ i → t.ctx j = s.ctx j) : t.EnablesBacked := by
  intro n e he
  rw [hp] at he ⊢
  rw [hm, hc e.ref (hd n e he)]
  exact h n e he

theorem setContent (h : s.EnablesBacked) (i : Ref) (c : Content) :
    ({ s with path := s.path.setContent i c } : State).EnablesBacked := by
  intro n e he
  cases hr : s.path.record i with
  | none => exact h.congr (t := { s with path := s.path.setContent i c }) (Path.setContent_none hr c) (fun _ => rfl) rfl n e he
  | some r =>
    have he' := he
    rw [Path.enable_setContent hr] at he'
    split at he'
    · rename_i hl
      obtain ⟨m, e', h1, h2, hon, hi⟩ := (Path.lit_iff hr).mp hl.1
      obtain ⟨r', x, k, hr', -, -, hx, hk, hb⟩ := h m e' hon
      obtain rfl := Option.some.inj he'
      rw [hi] at hr' hx
      obtain rfl := Option.some.inj (hr.symm.trans hr')
      exact ⟨r, x, k, by simpa using hr, hl.2.2.1, hl.2.2.2, hx, hk, hb⟩
    · obtain ⟨r', x, k, hr', h1⟩ := h n e he'
      exact ⟨r', x, k, by simpa using hr', h1⟩

theorem changeOwner (h : s.EnablesBacked) (o : Option Ref) :
    ({ s with path := s.path.changeOwner o } : State).EnablesBacked := by
  have hw : ∀ (q : Path) (o : Option Ref), ({ s with path := q } : State).EnablesBacked →
      ({ s with path := q.withOwner o } : State).EnablesBacked := fun q o hq n e he => by
    obtain ⟨r, x, k, hr, h1⟩ := hq n e ((Path.enable_withOwner q o n).symm.trans he)
    exact ⟨r, x, k, (Path.record_withOwner q o _).trans hr, h1⟩
  have hstep : ∀ (q : Path) (c : Content) (o : Option Ref), ({ s with path := q } : State).EnablesBacked →
      ({ s with path := match o with | some i => q.setContent i c | none => q } : State).EnablesBacked := fun q c o hq => by
    cases o with
    | none => exact hq
    | some i => exact setContent (s := { s with path := q }) hq i c
  unfold Path.changeOwner
  exact hw _ _ (hstep _ _ _ (hstep _ _ _ h))

theorem reckonOwner (h : s.EnablesBacked) : s.reckonOwner.EnablesBacked := by
  have hpath : ({ s with path := s.reckonOwner.path } : State).EnablesBacked := by
    rw [State.reckonOwner_path]
    split
    · exact h
    · exact h.changeOwner _
  exact hpath.congr rfl (fun j => ctx_reckonOwner s j) (reckonOwner_smu s)

theorem cutPath (h : s.EnablesBacked) (i : Ref) : (s.cutPath i).EnablesBacked ∧ (s.cutPath i).path.Dark i := by
  have hdark : (s.cutPath i).path.Dark i := by
    rintro n e he rfl
    have hon := Path.enable_of_remove he
    obtain ⟨r, x, k, hr, h1, h2, -⟩ := h n e hon
    have hn : n < 24 := by
      by_contra hn
      simp [Path.enable, hn] at hon
    have hoff : (s.cutPath e.ref).path.enable n = none :=
      (Path.enable_remove hr n).trans (if_pos ⟨h.lit_of_enable hon, hn, h1, h2⟩)
    rw [he] at hoff
    cases hoff
  refine ⟨fun n e he => ?_, hdark⟩
  obtain ⟨r, x, k, hr, h1⟩ := h n e (Path.enable_of_remove he)
  refine ⟨r, x, k, ?_, h1⟩
  show (s.path.remove i).record e.ref = some r
  rw [Path.record_remove, if_neg (hdark n e he)]
  exact hr

/-- A settle command on the block that the copy holds for the call (R148, R149). -/
theorem startSettle (h : s.EnablesBacked) {y : Ctx} {k : Hold} {b : Block} (hc : s.ctx i = some y)
    (hr : s.path.record i = none) (hk : s.smu.holdOf y.cid = some k) (hb : (k.base, k.width) = b) (side : Side)
    (trimmed : Bool) : (s.startSettle i side b trimmed).EnablesBacked := by
  obtain ⟨h1, -⟩ := newPathRec_fields s side b trimmed
  have hbase : (s.newPathRec side b trimmed).base = b.1 := congrArg Prod.fst h1
  have hwidth : (s.newPathRec side b trimmed).width = b.2 := congrArg Prod.snd h1
  refine reckonOwner (s := { s with path := s.settledPath i side b trimmed }) fun n e he => ?_
  rw [enable_settledPath] at he
  split at he
  · rename_i hn
    obtain rfl := Option.some.inj he
    exact ⟨s.newPathRec side b trimmed, y, k, (record_settledPath i).trans (if_pos rfl), by omega, by omega, hc, hk,
      hb.trans h1.symm⟩
  · obtain ⟨r, x, k', hr', h2⟩ := h n e he
    refine ⟨r, x, k', (record_settledPath e.ref).trans ((if_neg ?_).trans hr'), h2⟩
    rintro hi
    rw [hi, hr] at hr'
    cases hr'

end State.EnablesBacked

/-! ### Room among the notices -/

theorem notices_post_le (s : State) (n : Notice) : (s.post n).sport.notices.length ≤ s.sport.notices.length + 1 := by
  rw [post_notices]; split <;> simp

theorem notices_reckonOwner_le (s : State) : s.reckonOwner.sport.notices.length ≤ s.sport.notices.length + 1 := by
  rcases reckonOwner_eq s with h | ⟨n, h⟩
  · rw [h]; exact Nat.le_succ _
  · rw [h]; exact notices_post_le _ n

theorem notices_postEnd_le (s : State) (i : Ref) : (s.postEnd i).sport.notices.length ≤ s.sport.notices.length + 1 := by
  obtain h | ⟨n, c, h⟩ := postEnd_cases s i
  · rw [h]; exact Nat.le_succ _
  · rw [h]; exact notices_post_le s n

theorem notices_enterClearing_le (s : State) (i : Ref) (k : Cause) :
    (s.enterClearing i k true).sport.notices.length ≤ s.sport.notices.length + 1 := by
  simp only [State.enterClearing, if_true]
  exact (notices_postEnd_le _ i).trans (by simp)

/-! ### A final clearing on a dark path -/

/-- The teardown of a dark path removes its record at once (R156). -/
theorem teardown_dark {s : State} {i : Ref} (h : s.path.Dark i) :
    (s.teardown i = s ∧ s.path.record i = none) ∨ s.teardown i = (s.cutPath i).reckonOwner := by
  unfold State.teardown
  cases hr : s.path.record i with
  | none => exact .inl ⟨rfl, rfl⟩
  | some r =>
    have hd : s.pathDark i = true := by rw [State.pathDark, h.lit]; rfl
    exact .inr (if_pos hd)

/-- What a clearing on a dark path leaves before its RELEASE: the context cleared, and at most m notices posted. -/
structure ClearedDark (m : Nat) (i : Ref) (y : Ctx) (k : Cause) (a t : State) : Prop where
  ctx : t.ctx i = some (y.cleared k)
  others : ∀ j, j ≠ i → t.ctx j = a.ctx j
  queue : t.rif.queue = a.rif.queue
  smu : t.smu = a.smu
  stc : t.stc = a.stc
  backed : t.EnablesBacked
  dark : ∀ j, a.path.Dark j → t.path.Dark j
  notices : t.sport.notices.length ≤ a.sport.notices.length + m
  said : EndSaid i y k a t

section ClearedDark

variable {m : Nat} {a t : State} {i : Ref} {y : Ctx} {k : Cause}

theorem clearedDark_enterClearing (hy : a.ctx i = some y) (hb : a.EnablesBacked) (hd : a.path.Dark i) (k : Cause) :
    ClearedDark 1 i y k a (a.enterClearing i k true) where
  ctx := ctx_enterClearing k hy
  others := fun j hj => ((Spares.refl (ks := fun _ => False) j a).enterClearing hj k true).ctx
  queue := enterClearing_queue a i k true
  smu := enterClearing_smu a i k true
  stc := enterClearing_stc a i k true
  backed := hb.of_dark (enterClearing_path a i k true) (enterClearing_smu a i k true) hd fun j hj =>
    ((Spares.refl (ks := fun _ => False) j a).enterClearing hj k true).ctx
  dark := fun j hj => by rw [enterClearing_path]; exact hj
  notices := notices_enterClearing_le a i k
  said := endSaid_enterClearing hy k

theorem ClearedDark.recallCall (h : ClearedDark m i y k a t) (c : CallId) : ClearedDark m i y k a (t.recallCall c) where
  ctx := (ctx_recallCall t c i).trans h.ctx
  others := fun j hj => (ctx_recallCall t c j).trans (h.others j hj)
  queue := (recallCall_queue t c).trans h.queue
  smu := (recallCall_smu t c).trans h.smu
  stc := (recallCall_stc t c).trans h.stc
  backed := h.backed.congr (recallCall_path t c) (ctx_recallCall t c) (recallCall_smu t c)
  dark := fun j hj => by rw [recallCall_path]; exact h.dark j hj
  notices := by rw [recallCall_sport]; exact h.notices
  said := h.said.mono (by rw [recallCall_sport])

/-- The record goes with its cut, and the port may pass on (R154, R158). -/
theorem ClearedDark.cutPath_reckonOwner (h : ClearedDark m i y k a t) :
    ClearedDark (m + 1) i y k a (t.cutPath i).reckonOwner where
  ctx := (ctx_reckonOwner _ i).trans h.ctx
  others := fun j hj => (ctx_reckonOwner _ j).trans (h.others j hj)
  queue := (congrArg Rif.queue (reckonOwner_rif (t.cutPath i))).trans h.queue
  smu := (reckonOwner_smu _).trans h.smu
  stc := (reckonOwner_stc _).trans h.stc
  backed := (h.backed.cutPath i).1.reckonOwner
  dark := fun j hj => dark_reckonOwner (dark_cutPath (h.dark j hj) i)
  notices := (notices_reckonOwner_le _).trans (Nat.succ_le_succ h.notices)
  said := h.said.mono ((Calm.refl t).cutPath i).reckonOwner.posted

theorem ClearedDark.teardown (h : ClearedDark m i y k a t) (hd : a.path.Dark i) :
    ClearedDark (m + 1) i y k a (t.teardown i) ∧ (t.teardown i).path.record i = none := by
  rcases teardown_dark (h.dark i hd) with ⟨ht, hr⟩ | ht
  · rw [ht]
    exact ⟨{ h with notices := h.notices.trans (Nat.le_succ _) }, hr⟩
  · rw [ht]
    refine ⟨h.cutPath_reckonOwner, ?_⟩
    rw [State.record_reckonOwner]
    exact (Path.record_remove t.path i i).trans (if_pos rfl)

/-- A clearing on a dark path, its RELEASE queued (R121, R140). -/
structure ReleasedDark (i : Ref) (y : Ctx) (k : Cause) (a t : State) : Prop where
  ctx : t.ctx i = some { y.cleared k with awaits := .release }
  others : ∀ j, j ≠ i → t.ctx j = a.ctx j
  record : t.path.record i = none
  queue : t.rif.queue = a.rif.queue ++ [Entry.fresh (y.cleared k).releaseFrame]
  smu : t.smu = a.smu
  stc : t.stc = a.stc
  backed : t.EnablesBacked
  dark : ∀ j, a.path.Dark j → t.path.Dark j
  notices : t.sport.notices.length ≤ a.sport.notices.length + 2
  said : EndSaid i y k a t

theorem ClearedDark.sendRelease (h : ClearedDark m i y k a t) (hm : m ≤ 2) (hd : a.path.Dark i) (hr : t.path.record i = none)
    (hy : y.announced = true ∨ y.side = .answer) (ha : a.accepts (y.cleared k).releaseFrame = true) :
    ReleasedDark i y k a (t.sendRelease i) := by
  have ha' : t.accepts (y.cleared k).releaseFrame = true := by
    rw [accepts_call rfl] at ha ⊢
    rw [h.stc, Rif.count, h.queue]
    exact ha
  rw [sendRelease_accepted h.ctx hy ha', queueFrame_accepted ha']
  have hothers : ∀ j, j ≠ i → (({ t with rif := { t.rif with
      queue := t.rif.queue ++ [⟨(y.cleared k).releaseFrame, 0, .waiting⟩] } } : State).setCtx i
      (some { y.cleared k with awaits := .release })).ctx j = t.ctx j := fun j hj => by
    rw [State.ctx_setCtx, if_neg hj]; rfl
  exact {
    ctx := by rw [State.ctx_setCtx, if_pos rfl]
    others := fun j hj => (hothers j hj).trans (h.others j hj)
    record := hr
    queue := congrArg (· ++ [Entry.fresh (y.cleared k).releaseFrame]) h.queue
    smu := h.smu
    stc := h.stc
    backed := h.backed.of_dark rfl rfl (h.dark i hd) hothers
    dark := h.dark
    notices := h.notices.trans (Nat.add_le_add_left hm _)
    said := h.said }

end ClearedDark

/-- A final clearing on a dark path: the context releases its call at once (R121, R140). -/
theorem releasedDark_clearCall {a : State} {i : Ref} {y : Ctx} (hy : a.ctx i = some y) (hb : a.EnablesBacked)
    (hd : a.path.Dark i) (hann : y.announced = true ∨ y.side = .answer)
    (hstate : y.state = .settling ∨ y.state = .talk
      ∨ (y.side = .origin ∧ y.state = .waiting ∧ a.path.record i = none))
    (k : Cause) (ha : a.accepts (y.cleared k).releaseFrame = true) : ReleasedDark i y k a (a.clearCall i k) := by
  have henter := clearedDark_enterClearing hy hb hd k
  have hdark : ∀ {t : State}, ClearedDark 1 i y k a t → t.teardownThenRelease i = (t.teardown i).sendRelease i := fun ht => by
    rw [State.teardownThenRelease]
    exact if_pos (by rw [State.pathDark, (ht.dark i hd).lit]; rfl)
  have htear : ∀ {t : State}, ClearedDark 1 i y k a t → ReleasedDark i y k a (t.teardownThenRelease i) := fun ht => by
    obtain ⟨h1, h2⟩ := ht.teardown hd
    rw [hdark ht]
    exact h1.sendRelease (le_refl 2) hd h2 hann ha
  simp only [State.clearCall, hy]
  cases hside : y.side with
  | origin =>
    simp only [State.clearOrigin, hy]
    rcases hstate with h | h | ⟨-, h, hr⟩
    · rw [if_pos (.inl h)]; exact htear (henter.recallCall _)
    · rw [if_pos (.inr h)]; exact htear (henter.recallCall _)
    · rw [if_neg (by simp [h])]
      refine (henter.recallCall _).sendRelease (by omega) hd ?_ hann ha
      rw [recallCall_path, enterClearing_path]
      exact hr
  | answer =>
    simp only [State.clearAnswer, hy]
    rcases hstate with h | h | ⟨h, -⟩
    · simp only [h]; exact htear henter
    · simp only [h]; exact htear henter
    · rw [hside] at h; cases h

end Sys2Proof.Machine
end

section
/-! PROOFS. PATH at an installation: which records the new copy backs, and what is left of the others (R20, R158). -/

namespace Sys2Proof.Machine

/-- Each record's block, at least one channel, is ON for its context, and nothing else is ON (R147). -/
structure Path.AllLit (p : Path) : Prop where
  lit : ∀ i r, p.record i = some r → 0 < r.width ∧ ∀ n, r.base ≤ n → n < r.base + r.width → ∃ e, p.enable n = some e ∧ e.ref = i
  within : ∀ n e, p.enable n = some e → ∃ r, p.record e.ref = some r ∧ r.base ≤ n ∧ n < r.base + r.width

theorem Hold.Aligned.width_pos {h : Hold} (ha : h.Aligned) : 0 < h.width := by
  have := validWidth_iff.mp ha.1
  omega

theorem PathLaw.allLit {s : State} (h : PathLaw s) (hl : SlotLaw s.smu) : s.path.AllLit := by
  obtain ⟨hrec, hen, -⟩ := h
  refine ⟨fun i r hr => ?_, hen⟩
  obtain ⟨⟨x, k, -, -, hk, hb⟩, hlight⟩ := hrec i r hr
  have hw : k.width = r.width := congrArg Prod.snd hb
  exact ⟨hw ▸ (hl.1 k (holdOf_some hk).1).width_pos, fun n h1 h2 => ⟨_, hlight n h1 h2, rfl⟩⟩

/-- What an installation leaves of context i's record (R158). -/
def State.cutRecord (s : State) (i : Ref) : Option PathRec :=
  (s.path.record i).bind fun r => if s.backed i then some r else if r.stage = .mute then none else some r.stopped

/-- The records below k taken against the copy: what was ON and stays is backed there, and the rest of PATH stands. -/
structure CutBelow (k : Nat) (c u : State) : Prop where
  same : u = { c with path := u.path }
  above : ∀ i : Ref, k ≤ i.val → u.path.record i = c.path.record i
  below : ∀ i : Ref, i.val < k → u.path.record i = c.cutRecord i
  on : ∀ n e, u.path.enable n = some e → c.path.enable n = some e ∧ (e.ref.val < k → c.backed e.ref = true)
  kept : ∀ (i : Ref) r, (k ≤ i.val ∨ c.backed i = true) → c.path.record i = some r →
    ∀ n, r.base ≤ n → n < r.base + r.width → u.path.enable n = c.path.enable n

theorem CutBelow.start (c : State) : CutBelow 0 c c :=
  ⟨rfl, fun _ _ => rfl, fun _ hi => absurd hi (Nat.not_lt_zero _), fun _ _ he => ⟨he, fun h => absurd h (Nat.not_lt_zero _)⟩,
    fun _ _ _ _ _ _ _ => rfl⟩

section CutStep

variable {k : Nat} {c u : State} {i : Ref} (hc : c.path.AllLit) (h : CutBelow k c u) (hi : i.val = k)
include h hi

theorem CutBelow.backed : u.backed i = c.backed i := by
  have hr : u.path.record i = c.path.record i := h.above i (le_of_eq hi.symm)
  have hctx : u.ctx i = c.ctx i := by rw [h.same]; rfl
  have hsmu : u.smu = c.smu := by rw [h.same]
  simp only [State.backed, hr, hctx, hsmu]

include hc

/-- A step that leaves the record and its enables. -/
theorem CutBelow.keep (hcut : c.cutRecord i = c.path.record i) (hon : c.path.record i ≠ none → c.backed i = true) :
    CutBelow (k + 1) c u := by
  refine ⟨h.same, fun j hj => h.above j (by omega), fun j hj => ?_, fun n e he => ⟨(h.on n e he).1, fun hlt => ?_⟩,
    fun j r hj => h.kept j r (hj.imp (by omega) id)⟩
  · by_cases hji : j = i
    · subst hji
      rw [h.above j (le_of_eq hi.symm), hcut]
    · exact h.below j (by have := Fin.val_ne_of_ne hji; omega)
  · by_cases hei : e.ref = i
    · obtain ⟨r, hr, -⟩ := hc.within n e (h.on n e he).1
      rw [hei] at hr ⊢
      exact hon (by rw [hr]; simp)
    · exact (h.on n e he).2 (by have := Fin.val_ne_of_ne hei; omega)

theorem CutBelow.step : CutBelow (k + 1) c (u.cutUnbacked i) := by
  have hrec : u.path.record i = c.path.record i := h.above i (le_of_eq hi.symm)
  unfold State.cutUnbacked
  cases hr : c.path.record i with
  | none =>
    rw [hrec.trans hr]
    exact h.keep hc hi (by simp [State.cutRecord, hr]) (fun hne => absurd hr hne)
  | some r =>
    obtain ⟨hw, hlit⟩ := hc.lit i r hr
    have hl : u.path.lit i = true := by
      obtain ⟨e, he, hei⟩ := hlit r.base (le_refl _) (by omega)
      have hkept := h.kept i r (.inl (le_of_eq hi.symm)) hr r.base (le_refl _) (by omega)
      exact (Path.lit_iff (hrec.trans hr)).mpr ⟨r.base, e, le_refl _, by omega, hkept.trans he, hei⟩
    rw [hrec.trans hr]
    dsimp only
    cases hb : c.backed i with
    | true =>
      rw [if_neg (by simp [h.backed hi, hb])]
      exact h.keep hc hi (by simp [State.cutRecord, hr, hb]) (fun _ => hb)
    | false =>
      rw [if_pos (by simp [h.backed hi, hb, hl])]
      have hother : ∀ {n e}, c.path.enable n = some e → e.ref ≠ i → ¬ (r.base ≤ n ∧ n < r.base + r.width) :=
        fun {n e} he hne hn => by
          obtain ⟨e', he', hi'⟩ := hlit n hn.1 hn.2
          exact hne (Option.some.inj (he.symm.trans he') ▸ hi')
      have hen : ∀ n, ((u.path.setBlock r.block none).setRec i (if r.stage = .mute then none else some r.stopped)).enable n
          = if n < 24 ∧ r.base ≤ n ∧ n < r.base + r.width then none else u.path.enable n := fun n => by
        rw [Path.enable_setRec, Path.enable_setBlock]; rfl
      refine ⟨?_, fun j hj => ?_, fun j hj => ?_, fun n e he => ?_, fun j q hj hq n h1 h2 => ?_⟩
      · rw [h.same]
      · have hji : j ≠ i := by rintro rfl; omega
        simp only [Path.record_setRec, if_neg hji, Path.record_setBlock]
        exact h.above j (by omega)
      · by_cases hji : j = i
        · subst hji
          simp [State.cutRecord, hr, hb]
        · simp only [Path.record_setRec, if_neg hji, Path.record_setBlock]
          exact h.below j (by have := Fin.val_ne_of_ne hji; omega)
      · have he' := (hen n).symm.trans he
        split at he'
        · cases he'
        · rename_i hn
          obtain ⟨hon, hback⟩ := h.on n e he'
          refine ⟨hon, fun hlt => hback ?_⟩
          have hei : e.ref ≠ i := by
            intro hei
            obtain ⟨r', hr', h1, h2⟩ := hc.within n e hon
            rw [hei, hr] at hr'
            obtain rfl := Option.some.inj hr'
            have hn24 : n < 24 := by
              by_contra hn24
              simp [Path.enable, hn24] at hon
            exact hn ⟨hn24, h1, h2⟩
          have := Fin.val_ne_of_ne hei
          omega
      · have hji : j ≠ i := by
          rintro rfl
          rcases hj with hj | hj
          · omega
          · rw [hb] at hj; cases hj
        obtain ⟨e, he, hej⟩ := (hc.lit j q hq).2 n h1 h2
        refine (hen n).trans ((if_neg fun hn => hother he (hej ▸ hji) hn.2).trans (h.kept j q (hj.imp (by omega) id) hq n h1 h2))

end CutStep

/-- All records taken against the copy (R158). -/
theorem cutBelow_eachRef {c : State} (hc : c.path.AllLit) : CutBelow 4 c (c.eachRef State.cutUnbacked) :=
  ((((CutBelow.start c).step hc rfl).step hc rfl).step hc rfl).step hc rfl

/-- PATH after an installation: the enables that the copy backs, the other contexts dark, and the records as the installation leaves
them (R158). -/
structure PathInstalled (c u : State) : Prop where
  records : ∀ i, u.path.record i = c.cutRecord i
  backed : u.EnablesBacked
  dark : ∀ i, c.backed i = false → u.path.Dark i

theorem pathInstalled_installPath {c : State} (hc : c.path.AllLit) : PathInstalled c c.installPath := by
  have h := cutBelow_eachRef hc
  have hctx : ∀ i, (c.eachRef State.cutUnbacked).ctx i = c.ctx i := fun i => by rw [h.same]; rfl
  have hsmu : (c.eachRef State.cutUnbacked).smu = c.smu := by rw [h.same]
  have hbacked : (c.eachRef State.cutUnbacked).EnablesBacked := by
    intro n e he
    obtain ⟨hon, hb⟩ := h.on n e he
    have hb := hb e.ref.isLt
    obtain ⟨r, hr, h1, h2⟩ := hc.within n e hon
    have hrec : (c.eachRef State.cutUnbacked).path.record e.ref = some r := by
      rw [h.below e.ref e.ref.isLt, State.cutRecord, hr, Option.bind_some, if_pos hb]
    cases hx : c.ctx e.ref with
    | none => simp [State.backed, hx] at hb
    | some x =>
      cases hk : c.smu.holdOf x.cid with
      | none => simp [State.backed, hx, hr, hk] at hb
      | some k =>
        simp only [State.backed, hx, hr, hk, decide_eq_true_eq] at hb
        exact ⟨r, x, k, hrec, h1, h2, (hctx _).trans hx, by rw [hsmu]; exact hk, hb⟩
  refine ⟨fun i => ?_, hbacked.reckonOwner, fun i hi => dark_reckonOwner fun n e he hei => ?_⟩
  · rw [State.installPath, State.record_reckonOwner]
    exact h.below i i.isLt
  · have := (h.on n e he).2 e.ref.isLt
    rw [hei, hi] at this
    cases this

end Sys2Proof.Machine
end

section
/-! PROOFS. The RELEASEs of muting paths, and one context against an installed copy (R73, R158). -/

namespace Sys2Proof.Machine

/-! ### RELEASEs sent one after the other -/

/-- From s to t the contexts of a list have queued their RELEASEs, and nothing else changed. -/
structure ReleasesSent (l : List Ref) (s t : State) : Prop where
  rest : t = { s with ctxs := t.ctxs, rif := { s.rif with queue := t.rif.queue } }
  ctx : ∀ i, t.ctx i = if i ∈ l then (s.ctx i).map (fun y => { y with awaits := .release }) else s.ctx i
  queue : ∃ fs : List Frame, t.rif.queue = s.rif.queue ++ fs.map Entry.fresh ∧ fs.length = l.length
    ∧ (∀ f ∈ fs, f.kind = .release) ∧ ∀ i ∈ l, ∀ y, s.ctx i = some y → y.releaseFrame ∈ fs

theorem releasesSent_nil (s : State) : ReleasesSent [] s s :=
  ⟨rfl, by simp, [], by simp⟩

/-- With room for each, every context of the list sends its RELEASE (R157, R158). -/
theorem releasesSent_foldl (l : List Ref) : ∀ s : State, l.Nodup → s.stc.state.sends = true → s.rif.count .call + l.length ≤ 8 →
    (∀ i ∈ l, ∃ y, s.ctx i = some y ∧ (y.announced = true ∨ y.side = .answer)) →
    ReleasesSent l s (l.foldl State.sendRelease s) := by
  induction l with
  | nil => exact fun s _ _ _ _ => releasesSent_nil s
  | cons i l ih =>
    intro s hnd hs hc hall
    obtain ⟨hi, hl⟩ := List.nodup_cons.mp hnd
    obtain ⟨y, hy, hann⟩ := hall i List.mem_cons_self
    rw [List.length_cons] at hc
    have hacc := accepts_release y hs (by omega)
    have hstep := sendRelease_accepted hy hann hacc
    have hctx : ∀ j, (s.sendRelease i).ctx j = if j = i then some { y with awaits := .release } else s.ctx j := fun j => by
      rw [hstep, State.ctx_setCtx, ctx_queueFrame]
    have hcount : (s.sendRelease i).rif.count .call = s.rif.count .call + 1 := by
      rw [hstep]
      exact (count_queueFrame hacc .call).trans (by simp [Ctx.releaseFrame, frameCategory, Frame.kind])
    have hsrest : s.sendRelease i
        = { s with ctxs := (s.sendRelease i).ctxs, rif := { s.rif with queue := (s.sendRelease i).rif.queue } } := by
      rw [hstep, queueFrame_accepted hacc]; rfl
    have hqueue : (s.sendRelease i).rif.queue = s.rif.queue ++ [Entry.fresh y.releaseFrame] := by
      rw [hstep, queueFrame_accepted hacc]; rfl
    obtain ⟨hrest, hctxs, fs, hq, hlen, hkind, hmem⟩ := ih (s.sendRelease i) hl (by rw [hsrest]; exact hs) (by omega) fun j hj => by
      have hji : j ≠ i := fun h => hi (h ▸ hj)
      rw [hctx, if_neg hji]
      exact hall j (List.mem_cons_of_mem _ hj)
    rw [List.foldl_cons]
    refine ⟨hrest.trans (by rw [hsrest]), fun j => ?_, y.releaseFrame :: fs, ?_, by simp [hlen], ?_, ?_⟩
    · rw [hctxs, hctx]
      by_cases hji : j = i
      · subst hji; simp [hi, hy]
      · simp [hji]
    · rw [hq, hqueue, List.append_assoc]; rfl
    · intro f hf
      rcases List.mem_cons.mp hf with rfl | hf
      · rfl
      · exact hkind f hf
    · intro j hj z hz
      rcases List.mem_cons.mp hj with rfl | hj
      · obtain rfl := Option.some.inj (hy.symm.trans hz)
        exact List.mem_cons_self
      · have hji : j ≠ i := fun h => hi (h ▸ hj)
        exact List.mem_cons_of_mem _ (hmem j hj z (by rw [hctx, if_neg hji]; exact hz))

/-! ### One step of a pass over the contexts -/

/-- What a step at context i leaves of the enables, of the other contexts, and of the room in the queue and among the notices. -/
structure StepAt (r : Nat) (i : Ref) (t t' : State) : Prop where
  backed : t'.EnablesBacked
  dark : ∀ j, j ≠ i → t.path.Dark j → t'.path.Dark j
  cid : (t'.ctx i).map Ctx.cid = (t.ctx i).map Ctx.cid
  calls : t'.rif.count .call ≤ t.rif.count .call + r
  notices : t'.sport.notices.length ≤ t.sport.notices.length + 2

theorem StepAt.refl {i : Ref} {t : State} (h : t.EnablesBacked) : StepAt 0 i t t :=
  ⟨h, fun _ _ h => h, rfl, le_refl _, by omega⟩

theorem StepAt.mono {r r' : Nat} {i : Ref} {t t' : State} (h : StepAt r i t t') (hr : r ≤ r') : StepAt r' i t t' :=
  { h with calls := h.calls.trans (by omega) }

/-- Recalls asked before a step count for nothing. -/
theorem StepAt.after_askRecall {r : Nat} {i : Ref} {t t' : State} {id : FrameId} (h : StepAt r i (t.askRecall id) t') :
    StepAt r i t t' := by
  obtain ⟨h1, h2, h3, h4, h5⟩ := h
  refine ⟨h1, fun j hj hd => h2 j hj (by simpa using hd), by simpa using h3, ?_, by simpa using h5⟩
  rwa [Rif.count, Rif.count, State.askRecall_queue] at h4

/-- A context that enters SETTLING on its call's hold (R118, R149). -/
theorem stepAt_enterSettling {t : State} {i : Ref} {y : Ctx} {k : Hold} {b : Block} {trimmed : Bool} (hb : t.EnablesBacked)
    (hc : t.ctx i = some y) (hr : t.path.record i = none) (hk : t.smu.holdOf y.cid = some k) (hkb : (k.base, k.width) = b)
    (hm : t.settleMet i y.cid b = true) : StepAt 0 i t (t.enterSettling i b trimmed) := by
  have hbacked : (t.atSettle i y b trimmed).EnablesBacked :=
    hb.of_dark (by simp [State.atSettle]) (by simp [State.atSettle]) (hb.dark_of_record hr) fun j hj => by
      simp [State.atSettle, hj]
  have hci : (t.atSettle i y b trimmed).ctx i = some (y.settled b trimmed) := by simp [State.atSettle]
  rw [enterSettling_met hc hr hm]
  refine ⟨hbacked.startSettle hci (by simpa [State.atSettle] using hr) (y := y.settled b trimmed)
    (by simp only [State.atSettle, State.setCtx_smu, State.post_smu]; exact hk) hkb y.side trimmed, fun j hj hd => ?_, ?_, ?_, ?_⟩
  · refine dark_reckonOwner (s := { t.atSettle i y b trimmed with path := (t.atSettle i y b trimmed).settledPath i y.side b trimmed })
      fun n e he => ?_
    rw [enable_settledPath] at he
    split at he
    · obtain rfl := Option.some.inj he
      exact Ne.symm hj
    · exact hd n e (by simpa [State.atSettle] using he)
  · rw [ctx_startSettle, hci, hc]; rfl
  · simp [State.atSettle]
  · refine (notices_reckonOwner_le _).trans (Nat.succ_le_succ ?_)
    exact notices_post_le t _

theorem stepAt_enterWaiting {t : State} {i : Ref} {y : Ctx} (hb : t.EnablesBacked) (hd : t.path.Dark i) (hc : t.ctx i = some y)
    (p : Nat) : StepAt 0 i t (t.enterWaiting i p) := by
  rw [enterWaiting_eq hc]
  refine ⟨hb.of_dark (by simp) (by simp) hd fun j hj => by simp [hj], fun j _ hj => by simpa using hj, ?_, by simp, ?_⟩
  · rw [State.ctx_setCtx, if_pos rfl, hc]; rfl
  · exact (notices_post_le t _).trans (by omega)

theorem ReleasedDark.stepAt {t t' : State} {i : Ref} {y : Ctx} {k : Cause} (h : ReleasedDark i y k t t') (hc : t.ctx i = some y) :
    StepAt 1 i t t' := by
  refine ⟨h.backed, fun j _ => h.dark j, by rw [h.ctx, hc]; rfl, ?_, h.notices⟩
  rw [Rif.count, h.queue, List.countP_append, List.countP_singleton, Rif.count]
  simp [frameCategory, Ctx.releaseFrame, Frame.kind, Entry.fresh]

/-- A change of one context that keeps its call. -/
theorem stepAt_modifyCtx {t : State} {i : Ref} {y : Ctx} (hb : t.EnablesBacked) (hc : t.ctx i = some y) {f : Ctx → Ctx}
    (hf : (f y).cid = y.cid) : StepAt 0 i t (t.modifyCtx i f) := by
  rw [modifyCtx_live hc]
  refine ⟨hb.of_cids rfl rfl fun j z hz => ?_, fun j _ hj => hj, by simp [hc, hf], le_refl _, by simp⟩
  by_cases hj : j = i
  · subst hj
    obtain rfl := Option.some.inj (hc.symm.trans hz)
    exact ⟨f y, by simp, hf⟩
  · exact ⟨z, by simp [hj, hz], rfl⟩

end Sys2Proof.Machine
end

section
/-! PROOFS. Each row of R73: a context settled against the installed copy, and what its step leaves (R73). -/

namespace Sys2Proof.Machine

/-- The block that the copy holds for a call. -/
def Smu.blockOf (m : Smu) (c : CallId) : Option Block := (m.holdOf c).map fun h => (h.base, h.width)

theorem Smu.blockOf_some {m : Smu} {c : CallId} {b : Block} (h : m.blockOf c = some b) :
    ∃ k, m.holdOf c = some k ∧ (k.base, k.width) = b := Option.map_eq_some_iff.mp h

theorem Smu.blockOf_none {m : Smu} {c : CallId} (h : m.blockOf c = none) : m.holdOf c = none := by
  simpa [Smu.blockOf] using h

/-- Whether the copy lists a call as waiting is whether it has a position there (R24). -/
theorem position_isSome (m : Smu) (c : CallId) : (m.position c).isSome = (m.waitOf c).isSome := by
  rw [Bool.eq_iff_iff, waitOf_isSome_iff, ← not_iff_not, Bool.not_eq_true, Option.isSome_eq_false_iff, Option.isNone_iff_eq_none,
    position_none_iff]
  push Not
  rfl

/-- A context of s, of which the installation took the path before its step in t. -/
structure RowReady (s t : State) (i : Ref) (y : Ctx) : Prop where
  backed : t.EnablesBacked
  once : t.smu.HeldOnce
  one : ∀ j z, t.ctx j = some z → j ≠ i → z.cid ≠ y.cid
  member : t.member = true
  sends : t.stc.state.sends = true
  now : t.now = s.now
  config : t.sport.config = s.sport.config
  adds : Adds (fun k => k = .release) s t
  room : y.state ≠ .clearing → t.rif.count .call < 8
  notices : s.sport.notices = [] → t.sport.notices.length < Config.noticeCap
  announced : y.announced = true ∨ y.side = .answer
  waits : y.state = .waiting → y.side = .origin
  live : y.state ≠ .clearing → t.ctx i = some y
  bare : y.state ≠ .settling → y.state ≠ .talk → y.state ≠ .clearing → t.path.record i = none ∧ s.path.record i = none
  same : y.state = .settling ∨ y.state = .talk → (t.smu.blockOf y.cid).isSome = true → t.smu.blockOf y.cid = y.path →
    t.path.record i = s.path.record i
  dark : y.state = .settling ∨ y.state = .talk → t.smu.blockOf y.cid = none ∨ t.smu.blockOf y.cid ≠ y.path → t.path.Dark i
  cut : y.state = .clearing → (∃ r, s.path.record i = some r ∧ r.stage = .mute ∧ t.smu.blockOf y.cid ≠ some r.block) →
    t.ctx i = some { y with awaits := .release } ∧ t.path.record i = none ∧ Entry.fresh y.releaseFrame ∈ t.rif.queue
  uncut : y.state = .clearing → (¬ ∃ r, s.path.record i = some r ∧ r.stage = .mute ∧ t.smu.blockOf y.cid ≠ some r.block) →
    t.ctx i = some y ∧ t.path.record i = s.path.record i

/-- A context whose call the installed copy lost: it releases its call at once, its path off (R73). -/
def LostByInstall (i : Ref) (y : Ctx) (s t : State) : Prop :=
  (t.path.record i = none ∧ Entry.fresh (.release y.cid (causeByte (some (y.cause.getD .lostPath)))) ∈ t.rif.queue)
    ∧ (s.sport.notices = [] → EndSaid i y .lostPath s t)
    ∧ ∃ z, t.ctx i = some z ∧ Clearing y (y.cause.getD .lostPath) false z ∧ z.awaits = .release

/-- The step of a pass counts one RELEASE at most, and none for a context in CLEARING. -/
def Ctx.cost (y : Ctx) : Nat := if y.state = .clearing then 0 else 1

/-- A context settled against the copy, and what its step leaves of the rest. -/
def RowDone (s t t' : State) (i : Ref) (y : Ctx) : Prop := SettledByInstall i y s t' ∧ StepAt y.cost i t t'

section Rows

variable {s t : State} {i : Ref} {y : Ctx} (h : RowReady s t i y)
include h

theorem RowReady.dark_of_bare (h1 : y.state ≠ .settling) (h2 : y.state ≠ .talk) (h3 : y.state ≠ .clearing) : t.path.Dark i :=
  h.backed.dark_of_record (h.bare h1 h2 h3).1

theorem RowReady.settleMet {b : Block} (hb : t.smu.blockOf y.cid = some b) :
    t.settleMet i y.cid b = true := by
  obtain ⟨k, hk, rfl⟩ := Smu.blockOf_some hb
  exact settleMet_of_backed h.member h.backed h.once h.one hk

/-- The lost context. -/
theorem RowReady.lost (hc : y.state ≠ .clearing) (hd : t.path.Dark i)
    (hstate : y.state = .settling ∨ y.state = .talk ∨ (y.side = .origin ∧ y.state = .waiting ∧ t.path.record i = none)) :
    LostByInstall i y s (t.clearCall i .lostPath) ∧ StepAt y.cost i t (t.clearCall i .lostPath) := by
  have hrel := releasedDark_clearCall (h.live hc) h.backed hd h.announced hstate .lostPath (accepts_release _ h.sends (h.room hc))
  refine ⟨⟨⟨hrel.record, ?_⟩, fun hn he _ => ?_, _, hrel.ctx, clearing_cleared _ y .release, rfl⟩, ?_⟩
  · rw [hrel.queue]
    exact List.mem_append_right _ List.mem_cons_self
  · exact hrel.said he (h.notices hn)
  · exact (hrel.stepAt (h.live hc)).mono (by simp [Ctx.cost, hc])

theorem RowReady.keep (hc : y.state ≠ .clearing) (hr : t.path.record i = s.path.record i) :
    (t.ctx i = some y ∧ t.path.record i = s.path.record i) ∧ StepAt y.cost i t t :=
  ⟨⟨h.live hc, hr⟩, (StepAt.refl h.backed).mono (Nat.zero_le _)⟩

end Rows

/-- A context in SETTLING or TALK: its hold on the path it has, or its call lost (R73). -/
theorem RowReady.row_path {s t : State} {i : Ref} {y : Ctx} (h : RowReady s t i y) (hs : y.state = .settling ∨ y.state = .talk) :
    RowDone s t (t.settleCtx i y) i y := by
  have hc : y.state ≠ .clearing := by rcases hs with hs | hs <;> simp [hs]
  have hstep : t.settleCtx i y
      = if (t.smu.blockOf y.cid).isSome && t.smu.blockOf y.cid = y.path then t else t.clearCall i .lostPath := by
    rcases hs with hs | hs <;> simp only [State.settleCtx, hs] <;> rfl
  have hrow : ∀ t', (((t'.smu.blockOf y.cid).isSome = true ∧ t'.smu.blockOf y.cid = y.path →
        t'.ctx i = some y ∧ t'.path.record i = s.path.record i)
      ∧ (t'.smu.blockOf y.cid = none ∨ t'.smu.blockOf y.cid ≠ y.path → LostByInstall i y s t')) → SettledByInstall i y s t' := by
    intro t' ht
    unfold SettledByInstall
    rcases hs with hs | hs <;> simp only [hs] <;> exact ht
  by_cases hsame : (t.smu.blockOf y.cid).isSome = true ∧ t.smu.blockOf y.cid = y.path
  · obtain ⟨h1, h2⟩ := h.keep hc (h.same hs hsame.1 hsame.2)
    rw [RowDone, hstep, if_pos (by simpa using hsame)]
    refine ⟨hrow t ⟨fun _ => h1, fun hlost => ?_⟩, h2⟩
    rcases hlost with hl | hl
    · rw [hl] at hsame; exact absurd hsame.1 (by simp)
    · exact absurd hsame.2 hl
  · have hlost : t.smu.blockOf y.cid = none ∨ t.smu.blockOf y.cid ≠ y.path := by
      by_cases hn : t.smu.blockOf y.cid = none
      · exact .inl hn
      · exact .inr fun heq => hsame ⟨Option.isSome_iff_ne_none.mpr hn, heq⟩
    obtain ⟨h1, h2⟩ := h.lost hc (h.dark hs hlost) (hs.imp id .inl)
    have hsmu : (t.clearCall i .lostPath).smu = t.smu := ((Calm.refl t).clearCall i _).smu
    rw [RowDone, hstep, if_neg (by simpa using hsame)]
    exact ⟨hrow _ ⟨fun hk => absurd (hsmu ▸ hk) hsame, fun _ => h1⟩, h2⟩

/-- A context whose call the copy grants a block: it settles on it, its recalls asked before (R73). -/
theorem RowReady.settles {s t q : State} {i : Ref} {y : Ctx} (h : RowReady s t i y) (hc : y.state ≠ .clearing)
    (hr : t.path.record i = none) {b : Block} (hb : t.smu.blockOf y.cid = some b)
    (hq : q = t ∨ q = (t.askRecall ⟨.claim, .call y.cid⟩).askRecall ⟨.wait, .call y.cid⟩) :
    SettlesOn i y b (decide (b.2 < y.wanted)) (q.settleOn i b) ∧ StepAt y.cost i t (q.settleOn i b)
      ∧ (q.settleOn i b).rif = q.rif := by
  obtain ⟨k, hk, hkb⟩ := Smu.blockOf_some hb
  have hctx : ∀ j, q.ctx j = t.ctx j := fun j => by rcases hq with rfl | rfl <;> simp
  have hpath : q.path = t.path := by rcases hq with rfl | rfl <;> simp
  have hsmu : q.smu = t.smu := by rcases hq with rfl | rfl <;> simp
  have hstc : q.stc = t.stc := by rcases hq with rfl | rfl <;> simp
  have hmet : q.settleMet i y.cid b = true := by
    have := settleMet_iff.mp (h.settleMet hb)
    rw [settleMet_iff, hsmu, hpath, State.member, hstc]
    exact this
  have hqr : q.path.record i = none := by rw [hpath]; exact hr
  have hqc : q.ctx i = some y := (hctx i).trans (h.live hc)
  rw [settleOn_eq hqc]
  have hstep := stepAt_enterSettling (trimmed := decide (b.2 < y.wanted)) (h.backed.congr hpath hctx hsmu) hqc hqr
    (by rw [hsmu]; exact hk) hkb hmet
  refine ⟨settlesOn_enterSettling hqc hqr hmet, StepAt.mono ?_ (Nat.zero_le _), enterSettling_met_rif hqc hqr hmet⟩
  rcases hq with rfl | rfl
  · exact hstep
  · exact hstep.after_askRecall.after_askRecall

/-- The recalls of a CLAIMING context's CLAIM and WAIT are open behind their asking. -/
theorem RowReady.recalled {s t t' : State} {i : Ref} {y : Ctx} (h : RowReady s t i y)
    (ht : t'.rif = ((t.askRecall ⟨.claim, .call y.cid⟩).askRecall ⟨.wait, .call y.cid⟩).rif) :
    ∀ f ∈ [FrameKind.claim, .wait], s.queued ⟨f, .call y.cid⟩ = true → t'.recallOpen ⟨f, .call y.cid⟩ := by
  intro f hf hqueued
  have hopen : ((t.askRecall ⟨.claim, .call y.cid⟩).askRecall ⟨.wait, .call y.cid⟩).recallOpen ⟨f, .call y.cid⟩ := by
    rcases List.mem_cons.mp hf with rfl | hf
    · have hqt : t.queued ⟨.claim, .call y.cid⟩ = true := (h.adds.queued (by simp)).trans hqueued
      exact (Adds.askRecall (ks := fun _ => True) _ _).recallOpen (recallOpen_askRecall hqt)
    · rw [List.mem_singleton.mp hf] at hqueued ⊢
      have hqt : t.queued ⟨.wait, .call y.cid⟩ = true := (h.adds.queued (by simp)).trans hqueued
      exact recallOpen_askRecall (by simpa using hqt)
  unfold State.recallOpen at hopen ⊢
  rwa [ht]

theorem RowReady.row_claiming {s t : State} {i : Ref} {y : Ctx} (h : RowReady s t i y) (hs : y.state = .claiming) :
    RowDone s t (t.settleCtx i y) i y := by
  have hc : y.state ≠ .clearing := by simp [hs]
  obtain ⟨hr, hrs⟩ := h.bare (by simp [hs]) (by simp [hs]) hc
  have hrow : ∀ t' : State, t'.smu = t.smu →
      (∀ b, t.smu.blockOf y.cid = some b →
        (∀ f ∈ [FrameKind.claim, .wait], s.queued ⟨f, .call y.cid⟩ = true → t'.recallOpen ⟨f, .call y.cid⟩)
          ∧ SettlesOn i y b (decide (b.2 < y.wanted)) t') →
      (t.smu.blockOf y.cid = none → (t.smu.waitOf y.cid).isSome = true →
        (∀ f ∈ [FrameKind.claim, .wait], s.queued ⟨f, .call y.cid⟩ = true → t'.recallOpen ⟨f, .call y.cid⟩)
          ∧ t'.ctx i = some (y.waitUntil (s.now + 1000 * s.sport.config.waitLimit))) →
      (t.smu.blockOf y.cid = none → (t.smu.waitOf y.cid).isSome = false →
        t'.ctx i = some y ∧ t'.path.record i = s.path.record i) → SettledByInstall i y s t' := by
    intro t' hm h1 h2 h3
    unfold SettledByInstall
    simp only [hs, hm]
    exact ⟨h1, h2, h3⟩
  have hsmu : ∀ t', t' = t.settleCtx i y → t'.smu = t.smu := fun t' ht => ht ▸ ((Calm.refl t).settleCtx i y).smu
  cases hb : t.smu.blockOf y.cid with
  | some b =>
    have hstep : t.settleCtx i y = ((t.askRecall ⟨.claim, .call y.cid⟩).askRecall ⟨.wait, .call y.cid⟩).settleOn i b := by
      simp only [State.settleCtx, hs, show (t.smu.holdOf y.cid).map (fun h => (h.base, h.width)) = some b from hb]
    obtain ⟨h1, h2, h3⟩ := h.settles hc hr hb (.inr rfl)
    refine ⟨hrow _ (hsmu _ rfl) (fun b' hb' => ?_) (fun hn => ?_) (fun hn => ?_), hstep ▸ h2⟩
    · obtain rfl := Option.some.inj (hb.symm.trans hb')
      rw [hstep]
      exact ⟨h.recalled h3, h1⟩
    · rw [hb] at hn; cases hn
    · rw [hb] at hn; cases hn
  | none =>
    cases hp : t.smu.position y.cid with
    | some p =>
      have hstep : t.settleCtx i y = ((t.askRecall ⟨.claim, .call y.cid⟩).askRecall ⟨.wait, .call y.cid⟩).enterWaiting i p := by
        simp only [State.settleCtx, hs, show (t.smu.holdOf y.cid).map (fun h => (h.base, h.width)) = none from hb, hp]
      have hqc : ((t.askRecall ⟨.claim, .call y.cid⟩).askRecall ⟨.wait, .call y.cid⟩).ctx i = some y := by simpa using h.live hc
      have hwait : (t.smu.waitOf y.cid).isSome = true := by rw [← position_isSome, hp]; rfl
      have hq := stepAt_enterWaiting (h.backed.congr (t := (t.askRecall ⟨.claim, .call y.cid⟩).askRecall ⟨.wait, .call y.cid⟩)
        (by simp) (fun j => by simp) (by simp)) (by simpa using h.backed.dark_of_record hr) hqc p
      refine ⟨hrow _ (hsmu _ rfl) (fun b' hb' => ?_) (fun _ _ => ?_) (fun _ hw => ?_),
        hstep ▸ hq.after_askRecall.after_askRecall.mono (Nat.zero_le _)⟩
      · rw [hb] at hb'; cases hb'
      · rw [hstep, enterWaiting_eq hqc]
        refine ⟨h.recalled (by simp), ?_⟩
        rw [State.ctx_setCtx, if_pos rfl]
        simp [h.now, h.config]
      · rw [hwait] at hw; cases hw
    | none =>
      have hstep : t.settleCtx i y = t := by
        simp only [State.settleCtx, hs, show (t.smu.holdOf y.cid).map (fun h => (h.base, h.width)) = none from hb, hp]
      have hwait : (t.smu.waitOf y.cid).isSome = false := by rw [← position_isSome, hp]; rfl
      obtain ⟨h1, h2⟩ := h.keep hc (hr.trans hrs.symm)
      rw [RowDone, hstep]
      refine ⟨hrow t rfl (fun b' hb' => ?_) (fun _ hw => ?_) (fun _ _ => h1), h2⟩
      · rw [hb] at hb'; cases hb'
      · rw [hwait] at hw; cases hw

theorem RowReady.row_waiting {s t : State} {i : Ref} {y : Ctx} (h : RowReady s t i y) (hs : y.state = .waiting) :
    RowDone s t (t.settleCtx i y) i y := by
  have hc : y.state ≠ .clearing := by simp [hs]
  obtain ⟨hr, hrs⟩ := h.bare (by simp [hs]) (by simp [hs]) hc
  have hrow : ∀ t' : State, t'.smu = t.smu →
      (∀ b, t.smu.blockOf y.cid = some b → SettlesOn i y b (decide (b.2 < y.wanted)) t') →
      (t.smu.blockOf y.cid = none → (t.smu.waitOf y.cid).isSome = true →
        t'.ctx i = some y ∧ t'.path.record i = s.path.record i) →
      (t.smu.blockOf y.cid = none → (t.smu.waitOf y.cid).isSome = false → LostByInstall i y s t') → SettledByInstall i y s t' := by
    intro t' hm h1 h2 h3
    unfold SettledByInstall
    simp only [hs, hm]
    exact ⟨h1, h2, h3⟩
  cases hb : t.smu.blockOf y.cid with
  | some b =>
    have hstep : t.settleCtx i y = t.settleOn i b := by
      simp only [State.settleCtx, hs, show (t.smu.holdOf y.cid).map (fun h => (h.base, h.width)) = some b from hb]
    obtain ⟨h1, h2, -⟩ := h.settles hc hr hb (.inl rfl)
    rw [RowDone, hstep]
    refine ⟨hrow _ ((Calm.refl t).settleOn i b).smu (fun b' hb' => ?_) (fun hn => ?_) (fun hn => ?_), h2⟩
    · obtain rfl := Option.some.inj (hb.symm.trans hb')
      exact h1
    · rw [hb] at hn; cases hn
    · rw [hb] at hn; cases hn
  | none =>
    cases hp : t.smu.position y.cid with
    | some p =>
      have hstep : t.settleCtx i y = t := by
        simp only [State.settleCtx, hs, show (t.smu.holdOf y.cid).map (fun h => (h.base, h.width)) = none from hb, hp]
      have hwait : (t.smu.waitOf y.cid).isSome = true := by rw [← position_isSome, hp]; rfl
      obtain ⟨h1, h2⟩ := h.keep hc (hr.trans hrs.symm)
      rw [RowDone, hstep]
      refine ⟨hrow t rfl (fun b' hb' => ?_) (fun _ _ => h1) (fun _ hw => ?_), h2⟩
      · rw [hb] at hb'; cases hb'
      · rw [hwait] at hw; cases hw
    | none =>
      have hstep : t.settleCtx i y = t.clearCall i .lostPath := by
        simp only [State.settleCtx, hs, show (t.smu.holdOf y.cid).map (fun h => (h.base, h.width)) = none from hb, hp]
      have hwait : (t.smu.waitOf y.cid).isSome = false := by rw [← position_isSome, hp]; rfl
      obtain ⟨h1, h2⟩ := h.lost hc (h.backed.dark_of_record hr) (.inr (.inr ⟨h.waits hs, hs, hr⟩))
      rw [RowDone, hstep]
      refine ⟨hrow _ ((Calm.refl t).clearCall i _).smu (fun b' hb' => ?_) (fun _ hw => ?_) (fun _ _ => h1), h2⟩
      · rw [hb] at hb'; cases hb'
      · rw [hwait] at hw; cases hw

theorem RowReady.row_awaitPath {s t : State} {i : Ref} {y : Ctx} (h : RowReady s t i y) (hs : y.state = .awaitPath) :
    RowDone s t (t.settleCtx i y) i y := by
  have hc : y.state ≠ .clearing := by simp [hs]
  obtain ⟨hr, hrs⟩ := h.bare (by simp [hs]) (by simp [hs]) hc
  have hrow : ∀ t' : State, t'.smu = t.smu →
      (∀ b, t.smu.blockOf y.cid = some b → SettlesOn i y b (decide (b.2 < y.wanted)) t') →
      (t.smu.blockOf y.cid = none → t'.ctx i = some y ∧ t'.path.record i = s.path.record i) → SettledByInstall i y s t' := by
    intro t' hm h1 h2
    unfold SettledByInstall
    simp only [hs, hm]
    exact ⟨h1, h2⟩
  cases hb : t.smu.blockOf y.cid with
  | some b =>
    have hstep : t.settleCtx i y = t.settleOn i b := by
      simp only [State.settleCtx, hs, show (t.smu.holdOf y.cid).map (fun h => (h.base, h.width)) = some b from hb]
    obtain ⟨h1, h2, -⟩ := h.settles hc hr hb (.inl rfl)
    rw [RowDone, hstep]
    refine ⟨hrow _ ((Calm.refl t).settleOn i b).smu (fun b' hb' => ?_) (fun hn => ?_), h2⟩
    · obtain rfl := Option.some.inj (hb.symm.trans hb')
      exact h1
    · rw [hb] at hn; cases hn
  | none =>
    have hstep : t.settleCtx i y = t := by
      simp only [State.settleCtx, hs, show (t.smu.holdOf y.cid).map (fun h => (h.base, h.width)) = none from hb]
    obtain ⟨h1, h2⟩ := h.keep hc (hr.trans hrs.symm)
    rw [RowDone, hstep]
    refine ⟨hrow t rfl (fun b' hb' => ?_) (fun _ => h1), h2⟩
    rw [hb] at hb'; cases hb'

end Sys2Proof.Machine
end

section
/-! PROOFS. A context in CLEARING against an installed copy, and every row of R73 together. -/

namespace Sys2Proof.Machine

/-- A context in CLEARING before its step: as it stood, or, where the installation cut its muting path, awaiting its RELEASE. -/
theorem RowReady.clearing {s t : State} {i : Ref} {y y' : Ctx} (h : RowReady s t i y) (hs : y.state = .clearing)
    (hy' : t.ctx i = some y') {o : Option Block} (ho : t.smu.blockOf y.cid = o) :
    ((∃ r, s.path.record i = some r ∧ r.stage = .mute ∧ o ≠ some r.block) →
      y' = { y with awaits := .release } ∧ t.path.record i = none ∧ Entry.fresh y.releaseFrame ∈ t.rif.queue)
    ∧ ((¬ ∃ r, s.path.record i = some r ∧ r.stage = .mute ∧ o ≠ some r.block) →
      y' = y ∧ t.path.record i = s.path.record i) ∧ y'.state = .clearing ∧ y'.cid = y.cid := by
  subst ho
  have hcut := h.cut hs
  have huncut := h.uncut hs
  rw [hy'] at hcut huncut
  refine ⟨fun hk => ⟨Option.some.inj (hcut hk).1, (hcut hk).2⟩, fun hk => ⟨Option.some.inj (huncut hk).1, (huncut hk).2⟩, ?_⟩
  by_cases hk : ∃ r, s.path.record i = some r ∧ r.stage = .mute ∧ t.smu.blockOf y.cid ≠ some r.block
  · rw [Option.some.inj (hcut hk).1]; exact ⟨hs, rfl⟩
  · rw [Option.some.inj (huncut hk).1]; exact ⟨hs, rfl⟩

/-- A context in CLEARING records the block that the copy holds for it, and stays (R73). -/
theorem RowReady.row_clearing {s t : State} {i : Ref} {y y' : Ctx} (h : RowReady s t i y) (hs : y.state = .clearing)
    (hy' : t.ctx i = some y') : RowDone s t (t.settleCtx i y') i y := by
  have hcost : y.cost = 0 := if_pos hs
  have hsmu : (t.settleCtx i y').smu = t.smu := ((Calm.refl t).settleCtx i y').smu
  cases hb : t.smu.blockOf y.cid with
  | some b =>
    obtain ⟨hcut, huncut, hstate, hcid⟩ := h.clearing hs hy' hb
    have hmap : (t.smu.holdOf y.cid).map (fun h => (h.base, h.width)) = some b := hb
    have hstep : t.settleCtx i y' = t.modifyCtx i fun c => c.record b := by
      simp only [State.settleCtx, hstate, hcid, hmap]
    refine ⟨?_, by rw [hcost, hstep]; exact stepAt_modifyCtx h.backed hy' rfl⟩
    unfold SettledByInstall
    simp only [hs, hsmu, hmap]
    rw [hstep, State.ctx_modifyCtx, if_pos rfl, hy', State.modifyCtx_path, State.modifyCtx_rif]
    refine ⟨fun hk => ?_, fun hk => ?_⟩
    · obtain ⟨rfl, h2, h3⟩ := hcut hk
      exact ⟨⟨h2, h3⟩, by simp [Ctx.record, hs]⟩
    · obtain ⟨rfl, h2⟩ := huncut hk
      exact ⟨by simp [Ctx.record, hs], h2⟩
  | none =>
    obtain ⟨hcut, huncut, hstate, hcid⟩ := h.clearing hs hy' hb
    have hmap : (t.smu.holdOf y.cid).map (fun h => (h.base, h.width)) = none := hb
    have hstep : t.settleCtx i y' = t := by
      simp only [State.settleCtx, hstate, hcid, hmap]
    refine ⟨?_, by rw [hcost, hstep]; exact StepAt.refl h.backed⟩
    unfold SettledByInstall
    simp only [hs, hsmu, hmap]
    rw [hstep, hy']
    refine ⟨fun hk => ?_, fun hk => ?_⟩
    · obtain ⟨rfl, h2, h3⟩ := hcut hk
      exact ⟨⟨h2, h3⟩, by simp [hs]⟩
    · obtain ⟨rfl, h2⟩ := huncut hk
      exact ⟨rfl, h2⟩

/-- A context that R73 passes over. -/
theorem RowReady.row_idle {s t : State} {i : Ref} {y : Ctx} (h : RowReady s t i y)
    (hs : y.state = .seeking ∨ y.state = .ringing ∨ y.state = .alerting ∨ y.state = .answering) :
    RowDone s t (t.settleCtx i y) i y := by
  have hc : y.state ≠ .clearing := by rcases hs with hs | hs | hs | hs <;> simp [hs]
  obtain ⟨hr, hrs⟩ := h.bare (by rcases hs with hs | hs | hs | hs <;> simp [hs]) (by rcases hs with hs | hs | hs | hs <;> simp [hs]) hc
  obtain ⟨h1, h2⟩ := h.keep hc (hr.trans hrs.symm)
  have hstep : t.settleCtx i y = t := by
    rcases hs with hs | hs | hs | hs <;> simp only [State.settleCtx, hs]
  rw [RowDone, hstep]
  refine ⟨?_, h2⟩
  unfold SettledByInstall
  rcases hs with hs | hs | hs | hs <;> simp only [hs] <;> exact h1

/-- Every row of R73. -/
theorem RowReady.row {s t : State} {i : Ref} {y y' : Ctx} (h : RowReady s t i y) (hy' : t.ctx i = some y') :
    RowDone s t (t.settleCtx i y') i y := by
  by_cases hc : y.state = .clearing
  · exact h.row_clearing hc hy'
  · obtain rfl := Option.some.inj ((h.live hc).symm.trans hy')
    cases hs : y.state with
    | clearing => exact absurd hs hc
    | settling => exact h.row_path (.inl hs)
    | talk => exact h.row_path (.inr hs)
    | claiming => exact h.row_claiming hs
    | waiting => exact h.row_waiting hs
    | awaitPath => exact h.row_awaitPath hs
    | seeking => exact h.row_idle (.inl hs)
    | ringing => exact h.row_idle (.inr (.inl hs))
    | alerting => exact h.row_idle (.inr (.inr (.inl hs)))
    | answering => exact h.row_idle (.inr (.inr (.inr hs)))

/-- What follows a context's step leaves its row as it is, where it spares the context. -/
theorem SettledByInstall.mono {i : Ref} {y : Ctx} {ks : FrameKind → Prop} {s t u : State} (h : SettledByInstall i y s t)
    (hc : u.ctx i = t.ctx i) (hr : u.path.record i = t.path.record i) (hm : u.smu = t.smu) (ha : Adds ks t u)
    (hn : t.sport.notices <+: u.sport.notices) : SettledByInstall i y s u := by
  have hopen : (∀ f ∈ [FrameKind.claim, .wait], s.queued ⟨f, .call y.cid⟩ = true → t.recallOpen ⟨f, .call y.cid⟩) →
      ∀ f ∈ [FrameKind.claim, .wait], s.queued ⟨f, .call y.cid⟩ = true → u.recallOpen ⟨f, .call y.cid⟩ :=
    fun h f hf hq => ha.recallOpen (h f hf hq)
  have hlost : LostByInstall i y s t → LostByInstall i y s u := fun ⟨⟨h1, h2⟩, h3, h4⟩ =>
    ⟨⟨hr.trans h1, ha.mem h2⟩, fun hs => (h3 hs).mono hn, by rw [hc]; exact h4⟩
  have hsettles : ∀ b tr, SettlesOn i y b tr t → SettlesOn i y b tr u := fun _ _ h => h.of_same hc hr
  unfold SettledByInstall at h ⊢
  simp only [hc, hr, hm] at h ⊢
  cases hs : y.state with
  | settling =>
    simp only [hs] at h ⊢
    exact ⟨h.1, fun hk => by simpa only [LostByInstall, hc, hr] using hlost (h.2 hk)⟩
  | talk =>
    simp only [hs] at h ⊢
    exact ⟨h.1, fun hk => by simpa only [LostByInstall, hc, hr] using hlost (h.2 hk)⟩
  | claiming =>
    simp only [hs] at h ⊢
    obtain ⟨h1, h2, h3⟩ := h
    exact ⟨fun b hb => ⟨hopen (h1 b hb).1, hsettles _ _ (h1 b hb).2⟩, fun k1 k2 => ⟨hopen (h2 k1 k2).1, (h2 k1 k2).2⟩, h3⟩
  | waiting =>
    simp only [hs] at h ⊢
    obtain ⟨h1, h2, h3⟩ := h
    exact ⟨fun b hb => hsettles _ _ (h1 b hb), h2, fun k1 k2 => by simpa only [LostByInstall, hc, hr] using hlost (h3 k1 k2)⟩
  | awaitPath =>
    simp only [hs] at h ⊢
    exact ⟨fun b hb => hsettles _ _ (h.1 b hb), h.2⟩
  | clearing =>
    simp only [hs] at h ⊢
    exact ⟨fun hk => ⟨⟨(h.1 hk).1.1, ha.mem (h.1 hk).1.2⟩, (h.1 hk).2⟩, h.2⟩
  | seeking => simp only [hs] at h ⊢; exact h
  | ringing => simp only [hs] at h ⊢; exact h
  | alerting => simp only [hs] at h ⊢; exact h
  | answering => simp only [hs] at h ⊢; exact h

end Sys2Proof.Machine
end

section
/-! PROOFS. A snapshot installed at a station with contexts, and the pass that settles them (R20, R73, R158). -/

namespace Sys2Proof.Machine

/-! ### Counting contexts -/

theorem countP_add_le {α : Type} {p q r : α → Bool} (l : List α) (hpq : ∀ a, p a = true → q a = true → False)
    (hp : ∀ a, p a = true → r a = true) (hq : ∀ a, q a = true → r a = true) : l.countP p + l.countP q ≤ l.countP r := by
  induction l with
  | nil => simp
  | cons a l ih =>
    simp only [List.countP_cons]
    by_cases h1 : p a = true
    · have h2 : ¬ q a = true := hpq a h1
      simp only [h1, h2, hp a h1, if_true]
      simp only [Bool.false_eq_true, if_false]
      omega
    · by_cases h2 : q a = true
      · simp only [h1, h2, hq a h2, if_true]
        simp only [Bool.false_eq_true, if_false]
        omega
      · simp only [h1, h2]
        simp only [Bool.false_eq_true, if_false]
        split <;> omega

/-- The contexts from k up outside CLEARING: those that may still have to release their calls. -/
def State.owed (s : State) (k : Nat) : Nat := refs.countP fun i => decide (k ≤ i.val) && s.outsideClearing i

theorem owed_zero (s : State) : s.owed 0 = s.activeCount := by simp [State.owed, State.activeCount]

theorem owed_pos {s : State} {i : Ref} (h : s.outsideClearing i = true) : 0 < s.owed i :=
  List.countP_pos_iff.mpr ⟨i, mem_refs i, by simp [h]⟩

theorem owed_succ_le (s : State) (k : Nat) : s.owed (k + 1) ≤ s.owed k :=
  List.countP_mono_left fun i _ h => by
    simp only [Bool.and_eq_true, decide_eq_true_eq] at h ⊢
    exact ⟨by omega, h.2⟩

theorem owed_succ_lt {s : State} {i : Ref} (h : s.outsideClearing i = true) : 1 + s.owed (i + 1) ≤ s.owed i := by
  have hone : 1 ≤ refs.countP fun j => decide (j = i) := List.countP_pos_iff.mpr ⟨i, mem_refs i, by simp⟩
  have := countP_add_le (p := fun j => decide (j = i)) (q := fun j => decide (i.val + 1 ≤ j.val) && s.outsideClearing j)
    (r := fun j => decide (i.val ≤ j.val) && s.outsideClearing j) refs
    (fun j h1 h2 => by
      simp only [decide_eq_true_eq, Bool.and_eq_true] at h1 h2
      subst h1
      omega)
    (fun j h1 => by
      simp only [decide_eq_true_eq, Bool.and_eq_true] at h1 ⊢
      subst h1
      exact ⟨le_refl _, h⟩)
    (fun j h1 => by
      simp only [decide_eq_true_eq, Bool.and_eq_true] at h1 ⊢
      exact ⟨by omega, h1.2⟩)
  unfold State.owed
  omega

/-! ### The installation -/

/-- The state in which PATH takes a new copy: the copy replaced, and an own queued RECLAIM's recall asked (R20, R40). -/
def State.installBase (d : State) (hs : List SnapHold) (ws : List SnapWait) : State := (d.installCopy hs ws).recallReclaim

section InstallBase

variable (d : State) (hs : List SnapHold) (ws : List SnapWait)

theorem install_eq : d.install hs ws
    = (d.installBase hs ws).unbackedMuting.foldl State.sendRelease (d.installBase hs ws).installPath := rfl

theorem installBase_eq : ∃ r, d.installBase hs ws = { d with smu := d.installedCopy hs ws, rif := { d.rif with recalls := r } } :=
  (recallReclaim_eq (d.installCopy hs ws)).imp fun _ h => h

@[simp] theorem installBase_path : (d.installBase hs ws).path = d.path := by obtain ⟨r, h⟩ := installBase_eq d hs ws; rw [h]
@[simp] theorem installBase_smu : (d.installBase hs ws).smu = d.installedCopy hs ws := by
  obtain ⟨r, h⟩ := installBase_eq d hs ws; rw [h]
@[simp] theorem installBase_ctxs : (d.installBase hs ws).ctxs = d.ctxs := by obtain ⟨r, h⟩ := installBase_eq d hs ws; rw [h]
@[simp] theorem installBase_stc : (d.installBase hs ws).stc = d.stc := by obtain ⟨r, h⟩ := installBase_eq d hs ws; rw [h]
@[simp] theorem installBase_sport : (d.installBase hs ws).sport = d.sport := by obtain ⟨r, h⟩ := installBase_eq d hs ws; rw [h]
@[simp] theorem installBase_queue : (d.installBase hs ws).rif.queue = d.rif.queue := by
  obtain ⟨r, h⟩ := installBase_eq d hs ws; rw [h]
@[simp] theorem ctx_installBase (i : Ref) : (d.installBase hs ws).ctx i = d.ctx i := State.ctx_congr (by simp) i

theorem adds_installBase (ks : FrameKind → Prop) : Adds ks d (d.installBase hs ws) := by
  unfold State.installBase State.recallReclaim
  split
  · exact (Adds.of_rif (s := d) (t := d.installCopy hs ws) rfl).trans (Adds.askRecall _ _)
  · exact Adds.of_rif rfl

/-- The new copy backs a record where it holds the record's block for the context's call (R158). -/
theorem backed_installBase {i : Ref} {y : Ctx} {r : PathRec} (hy : d.ctx i = some y) (hr : d.path.record i = some r) :
    (d.installBase hs ws).backed i = true ↔ (d.installedCopy hs ws).blockOf y.cid = some r.block := by
  simp only [State.backed, ctx_installBase, installBase_path, installBase_smu, hy, hr, Smu.blockOf]
  cases (d.installedCopy hs ws).holdOf y.cid <;> simp

end InstallBase

theorem installPath_rest (c : State) : c.installPath.rif = c.rif ∧ c.installPath.smu = c.smu ∧ c.installPath.stc = c.stc
    ∧ c.installPath.ctxs = c.ctxs ∧ c.installPath.now = c.now ∧ c.installPath.sport.config = c.sport.config
    ∧ c.installPath.sport.notices.length ≤ c.sport.notices.length + 1 := by
  obtain ⟨p, hp⟩ := eachRef_cutUnbacked_eq c
  have hn := notices_reckonOwner_le (c.eachRef State.cutUnbacked)
  unfold State.installPath
  rw [hp] at hn ⊢
  exact ⟨by simp, by simp, by simp, by simp, by simp, by simp, hn⟩

/-- A context whose muting path the new copy does not back: it is cut, and its RELEASE falls due (R158). -/
def State.CutBy (d : State) (m : Smu) (i : Ref) : Prop :=
  ∃ y r, d.ctx i = some y ∧ d.path.record i = some r ∧ r.stage = .mute ∧ m.blockOf y.cid ≠ some r.block

/-- PATH as an installation leaves it: the records that the new copy backs, and of the others those that do not mute (R158). -/
structure PathTaken (d : State) (m : Smu) (u : State) : Prop where
  backed : u.EnablesBacked
  bare : ∀ i, d.path.record i = none → u.path.record i = none
  kept : ∀ i y r, d.ctx i = some y → d.path.record i = some r → m.blockOf y.cid = some r.block → u.path.record i = some r
  dark : ∀ i y r, d.ctx i = some y → d.path.record i = some r → m.blockOf y.cid ≠ some r.block → u.path.Dark i
  gone : ∀ i, d.CutBy m i → u.path.record i = none

/-- What an installation leaves besides before the contexts are settled (R20, R158). -/
structure Installed (d : State) (m : Smu) (u : State) : Prop extends PathTaken d m u where
  smu : u.smu = m
  stc : u.stc = d.stc
  now : u.now = d.now
  config : u.sport.config = d.sport.config
  adds : Adds (fun k => k = .release) d u
  cut : ∀ i y, d.CutBy m i → d.ctx i = some y →
    u.ctx i = some { y with awaits := .release } ∧ Entry.fresh y.releaseFrame ∈ u.rif.queue
  uncut : ∀ i, ¬ d.CutBy m i → u.ctx i = d.ctx i
  calls : u.rif.count .call + d.activeCount ≤ d.rif.count .call + d.liveCount
  notices : u.sport.notices.length ≤ d.sport.notices.length + 1

section ReleasesSentRest

variable {l : List Ref} {s t : State} (h : ReleasesSent l s t)
include h

theorem ReleasesSent.path : t.path = s.path := by rw [h.rest]
theorem ReleasesSent.smu : t.smu = s.smu := by rw [h.rest]
theorem ReleasesSent.stc : t.stc = s.stc := by rw [h.rest]
theorem ReleasesSent.now : t.now = s.now := by rw [h.rest]
theorem ReleasesSent.sport : t.sport = s.sport := by rw [h.rest]
theorem ReleasesSent.recalls : t.rif.recalls = s.rif.recalls := by rw [h.rest]

theorem ReleasesSent.adds : Adds (fun k => k = .release) s t := by
  obtain ⟨fs, hq, -, hk, -⟩ := h.queue
  exact ⟨by rw [h.recalls], fs, hq, hk⟩

/-- RELEASEs sent leave the enables backed: each context keeps its call. -/
theorem ReleasesSent.enablesBacked (hb : s.EnablesBacked) : t.EnablesBacked := by
  refine hb.of_cids h.path h.smu fun j z hz => ?_
  rw [h.ctx]
  split
  · exact ⟨{ z with awaits := .release }, by rw [hz, Option.map_some], rfl⟩
  · exact ⟨z, hz, rfl⟩

end ReleasesSentRest

/-- The installation from PATH's part and the RELEASEs of the paths it cut. -/
theorem installed_of_releasesSent {d v u : State} {m : Smu} {l : List Ref} (hv : PathTaken d m v) (hsent : ReleasesSent l v u)
    (hmem : ∀ i, i ∈ l ↔ d.CutBy m i) (hlen : l.length + d.activeCount ≤ d.liveCount) (hsmu : v.smu = m) (hstc : v.stc = d.stc)
    (hnow : v.now = d.now) (hconfig : v.sport.config = d.sport.config) (hadds : Adds (fun k => k = .release) d v)
    (hctx : ∀ i, v.ctx i = d.ctx i) (hcalls : v.rif.count .call = d.rif.count .call)
    (hn : v.sport.notices.length ≤ d.sport.notices.length + 1) : Installed d m u := by
  obtain ⟨fs, hq, hfl, -, hfm⟩ := hsent.queue
  exact {
    backed := hsent.enablesBacked hv.backed
    bare := fun i hr => by rw [hsent.path]; exact hv.bare i hr
    kept := fun i y r hy hr hb => by rw [hsent.path]; exact hv.kept i y r hy hr hb
    dark := fun i y r hy hr hb => by rw [hsent.path]; exact hv.dark i y r hy hr hb
    gone := fun i hi => by rw [hsent.path]; exact hv.gone i hi
    smu := hsent.smu.trans hsmu
    stc := hsent.stc.trans hstc
    now := hsent.now.trans hnow
    config := by rw [hsent.sport]; exact hconfig
    adds := hadds.trans hsent.adds
    cut := fun i y hcut hy => by
      have hi := (hmem i).mpr hcut
      have hy' := (hctx i).trans hy
      refine ⟨by rw [hsent.ctx, if_pos hi, hy', Option.map_some], ?_⟩
      rw [hq]
      exact List.mem_append_right _ (List.mem_map_of_mem (hfm i hi y hy'))
    uncut := fun i hcut => by rw [hsent.ctx, if_neg (mt (hmem i).mp hcut), hctx]
    calls := by
      have hle : u.rif.count .call ≤ v.rif.count .call + fs.length := by
        rw [Rif.count, hq, List.countP_append, Rif.count]
        exact Nat.add_le_add_left (List.countP_le_length.trans (by simp)) _
      omega
    notices := by rw [hsent.sport]; exact hn }

/-- In CLEARING a record mutes, and what mutes is in CLEARING (R147, R156). -/
theorem PathLaw.mute_iff {d : State} (h : PathLaw d) {i : Ref} {y : Ctx} {r : PathRec} (hy : d.ctx i = some y)
    (hr : d.path.record i = some r) :
    (r.stage = .mute ↔ y.state = .clearing) ∧ (r.stage ≠ .mute → y.path = some r.block) := by
  obtain ⟨⟨x, -, hx, hfit, -⟩, -⟩ := h.1 i r hr
  obtain rfl : x = y := Option.some.inj (hx.symm.trans hy)
  unfold PathRec.Fits at hfit
  cases hs : r.stage <;> simp only [hs] at hfit
  · exact ⟨by simp [hfit.2.1], fun _ => hfit.2.2.1⟩
  · exact ⟨by simp [hfit.2.1], fun _ => hfit.2.2.1⟩
  · exact ⟨by simp [hfit.2.1], fun _ => hfit.2.2.1⟩
  · exact ⟨by simp [hfit.2.1], fun h => absurd rfl h⟩

theorem PathLaw.live {d : State} (h : PathLaw d) {i : Ref} {r : PathRec} (hr : d.path.record i = some r) :
    ∃ y, d.ctx i = some y := by
  obtain ⟨⟨x, -, hx, -⟩, -⟩ := h.1 i r hr
  exact ⟨x, hx⟩

section Install

variable {d : State} {hs : List SnapHold} {ws : List SnapWait} (hp : PathLaw d) (hl : SlotLaw d.smu)
include hp hl

theorem mem_unbackedMuting_iff {i : Ref} :
    i ∈ (d.installBase hs ws).unbackedMuting ↔ d.CutBy (d.installedCopy hs ws) i := by
  have hlit := hp.allLit hl
  simp only [State.unbackedMuting, List.mem_filter, mem_refs, true_and, Bool.and_eq_true, Bool.not_eq_true', installBase_path]
  constructor
  · rintro ⟨⟨-, h2⟩, h3⟩
    cases hr : d.path.record i with
    | none => simp [Path.muting, hr] at h2
    | some r =>
      obtain ⟨y, hy⟩ := hp.live hr
      refine ⟨y, r, hy, hr, by simpa [Path.muting, hr] using h2, fun hb => ?_⟩
      rw [(backed_installBase d hs ws hy hr).mpr hb] at h3
      cases h3
  · rintro ⟨y, r, hy, hr, h2, h3⟩
    refine ⟨⟨?_, by simp [Path.muting, hr, h2]⟩, ?_⟩
    · obtain ⟨hw, hon⟩ := hlit.lit i r hr
      obtain ⟨e, he, hi⟩ := hon r.base (le_refl _) (by omega)
      exact (Path.lit_iff hr).mpr ⟨r.base, e, le_refl _, by omega, he, hi⟩
    · rw [← Bool.not_eq_true, backed_installBase d hs ws hy hr]
      exact h3

theorem length_unbackedMuting_le :
    (d.installBase hs ws).unbackedMuting.length + d.activeCount ≤ d.liveCount := by
  have hmem := fun i => mem_unbackedMuting_iff hp hl (hs := hs) (ws := ws) (i := i)
  simp only [State.unbackedMuting, List.mem_filter, mem_refs, true_and] at hmem
  rw [State.unbackedMuting, ← List.countP_eq_length_filter]
  refine countP_add_le refs (fun i h1 h2 => ?_) (fun i h1 => ?_) (fun i h1 => ?_)
  · obtain ⟨y, r, hy, hr, hst, -⟩ := (hmem i).mp h1
    simp [State.outsideClearing, hy, ((hp.mute_iff hy hr).1).mp hst] at h2
  · obtain ⟨y, r, hy, -⟩ := (hmem i).mp h1
    simp [hy]
  · cases hc : d.ctx i with
    | none => simp [State.outsideClearing, hc] at h1
    | some y => rfl

/-- PATH's part of the installation. -/
theorem pathTaken_installPath :
    PathTaken d (d.installedCopy hs ws) (d.installBase hs ws).installPath := by
  obtain ⟨hrec, hback, hdark⟩ := pathInstalled_installPath (c := d.installBase hs ws)
    (by rw [installBase_path]; exact hp.allLit hl)
  refine ⟨hback, fun i hr => ?_, fun i y r hy hr hb => ?_, fun i y r hy hr hb => hdark i ?_, fun i hcut => ?_⟩
  · rw [hrec, State.cutRecord, installBase_path, hr]
    rfl
  · rw [hrec, State.cutRecord, installBase_path, hr, Option.bind_some, if_pos ((backed_installBase d hs ws hy hr).mpr hb)]
  · rw [← Bool.not_eq_true, backed_installBase d hs ws hy hr]
    exact hb
  · obtain ⟨y, r, hy, hr, hst, hb⟩ := hcut
    rw [hrec, State.cutRecord, installBase_path, hr, Option.bind_some, if_neg, if_pos hst]
    rw [backed_installBase d hs ws hy hr]
    exact hb

/-- The installation, with room for a RELEASE of each context (R20, R158). -/
theorem installed_install (hsends : d.stc.state.sends = true) (hcount : d.rif.count .call ≤ 4)
    (hann : ∀ i y, d.ctx i = some y → y.announced = true ∨ y.side = .answer) :
    Installed d (d.installedCopy hs ws) (d.install hs ws) := by
  obtain ⟨r1, r2, r3, r4, r5, r6, r7⟩ := installPath_rest (d.installBase hs ws)
  have hctx : ∀ i, (d.installBase hs ws).installPath.ctx i = d.ctx i := fun i =>
    (State.ctx_congr r4 i).trans (ctx_installBase d hs ws i)
  have hmem := fun i => mem_unbackedMuting_iff hp hl (hs := hs) (ws := ws) (i := i)
  have hlen := length_unbackedMuting_le hp hl (hs := hs) (ws := ws)
  have hlive := liveCount_add_freeRefs d
  have hcount0 : (d.installBase hs ws).installPath.rif.count .call = d.rif.count .call := by
    rw [r1, Rif.count, installBase_queue]; rfl
  have hnow : (d.installBase hs ws).now = d.now := by obtain ⟨r, h⟩ := installBase_eq d hs ws; rw [h]
  have hsent := releasesSent_foldl (d.installBase hs ws).unbackedMuting (d.installBase hs ws).installPath
    ((by decide : refs.Nodup).filter _) (by rw [r3, installBase_stc]; exact hsends) (by rw [hcount0]; omega) fun i hi => by
      obtain ⟨y, -, hy, -⟩ := (hmem i).mp hi
      exact ⟨y, (hctx i).trans hy, hann i y hy⟩
  rw [← install_eq] at hsent
  refine installed_of_releasesSent (pathTaken_installPath hp hl) hsent hmem hlen (r2.trans (installBase_smu d hs ws))
    (r3.trans (installBase_stc d hs ws)) (r5.trans hnow) (r6.trans (by rw [installBase_sport]))
    ((adds_installBase d hs ws _).trans (Adds.of_rif r1)) hctx hcount0 (r7.trans (by rw [installBase_sport]))

end Install

end Sys2Proof.Machine
end

section
/-! PROOFS. The pass that settles every context against an installed copy (R73). -/

namespace Sys2Proof.Machine

theorem PathLaw.congr {s t : State} (h : PathLaw s) (hp : t.path = s.path) (hc : ∀ i, t.ctx i = s.ctx i) (hn : t.now = s.now)
    (hm : t.smu = s.smu) : PathLaw t := by
  unfold PathLaw at h ⊢
  simpa only [hp, hc, hn, hm] using h

/-- A valid snapshot holds no channel twice (R18). -/
theorem pairwise_of_snapBlocksValid (hs : List SnapHold) : ∀ least, snapBlocksValid least hs = true →
    (∀ h ∈ hs, least ≤ h.base.toNat) ∧ hs.Pairwise fun a b => a.base.toNat + a.width.toNat ≤ b.base.toNat := by
  induction hs with
  | nil => simp
  | cons h hs ih =>
    intro least hv
    simp only [snapBlocksValid, Bool.and_eq_true, decide_eq_true_eq] at hv
    obtain ⟨⟨-, hleast⟩, htail⟩ := hv
    obtain ⟨h1, h2⟩ := ih _ htail
    refine ⟨fun x hx => ?_, List.pairwise_cons.mpr ⟨h1, h2⟩⟩
    rcases List.mem_cons.mp hx with rfl | hx
    · exact hleast
    · have := h1 x hx
      omega

theorem heldOnce_installedCopy (s : State) {hs : List SnapHold} {ws : List SnapWait} (hv : snapValid hs ws = true) :
    (s.installedCopy hs ws).HeldOnce := by
  have hb : snapBlocksValid 0 hs = true := by
    simp only [snapValid, Bool.and_eq_true] at hv
    exact hv.1.1.1.1.1
  refine heldOnce_of_pairwise ?_
  show (hs.map fun h => s.newHold h.cid (h.base.toNat, h.width.toNat)).Pairwise _
  rw [List.pairwise_map]
  exact (pairwise_of_snapBlocksValid hs 0 hb).2

/-- The state before the installation: that of the taking, with a notice said and a recall asked (R72). -/
structure Comparing (s d : State) : Prop where
  ctx : ∀ i, d.ctx i = s.ctx i
  path : d.path = s.path
  smu : d.smu = s.smu
  queue : d.rif.queue = s.rif.queue
  adds : Adds (fun k => k = .release) s d
  state : d.stc.state = s.stc.state
  now : d.now = s.now
  config : d.sport.config = s.sport.config
  notices : d.sport.notices.length ≤ s.sport.notices.length + 1

/-- What the laws of the station say of the state before a snapshot is compared. -/
structure Comparable (s : State) : Prop where
  path : PathLaw s
  slot : SlotLaw s.smu
  fits : ContextLaw s
  announced : ∀ i y, s.ctx i = some y → y.announced = true ∨ y.side = .answer
  one : ∀ i j y z, s.ctx i = some y → s.ctx j = some z → y.cid = z.cid → i = j
  calls : s.rif.count .call ≤ 4
  joined : s.stc.state = .joined

/-- From the installation, u, to the state after the contexts below k have been settled. -/
structure InstallPass (u : State) (k : Nat) (t : State) : Prop where
  calm : Calm u t
  adds : Adds (fun k => k = .release) u t
  backed : t.EnablesBacked
  above : ∀ i : Ref, k ≤ i.val →
    t.ctx i = u.ctx i ∧ t.path.record i = u.path.record i ∧ (u.path.Dark i → t.path.Dark i)
  cids : ∀ i, (t.ctx i).map Ctx.cid = (u.ctx i).map Ctx.cid
  room : t.rif.count .call + u.owed k ≤ u.rif.count .call + u.owed 0
  notices : t.sport.notices.length ≤ u.sport.notices.length + 2 * k

theorem InstallPass.start {u : State} (h : u.EnablesBacked) : InstallPass u 0 u :=
  ⟨Calm.refl u, Adds.refl _ u, h, fun _ _ => ⟨rfl, rfl, id⟩, fun _ => rfl, le_refl _, by omega⟩

theorem InstallPass.free {u t : State} {i : Ref} (h : InstallPass u i t) : InstallPass u (i + 1) t :=
  { h with
    above := fun j hj => h.above j (by omega)
    room := (Nat.add_le_add_left (owed_succ_le u i) _).trans h.room
    notices := h.notices.trans (by omega) }

/-- One more context settled. -/
theorem InstallPass.next {u t : State} {i : Ref} {y : Ctx} {r : Nat} (h : InstallPass u i t)
    (hstep : StepAt r i t (t.settleCtx i y)) (hr : r + u.owed (i + 1) ≤ u.owed i) : InstallPass u (i + 1) (t.settleCtx i y) := by
  have hspare : ∀ j, j ≠ i → Spares (fun k => k = .release) j t (t.settleCtx i y) := fun j hj =>
    (Spares.refl j t).settleCtx (ks := fun k => k = .release) rfl hj y
  refine ⟨h.calm.settleCtx i y, h.adds.trans (Adds.of_spares hspare), hstep.backed, fun j hj => ?_, fun j => ?_, ?_, ?_⟩
  · have hji : j ≠ i := by rintro rfl; omega
    obtain ⟨h1, h2, h3⟩ := h.above j (by omega)
    exact ⟨(hspare j hji).ctx.trans h1, (hspare j hji).record.trans h2, fun hd => hstep.dark j hji (h3 hd)⟩
  · by_cases hji : j = i
    · subst hji
      exact hstep.cid.trans (h.cids j)
    · rw [(hspare j hji).ctx]
      exact h.cids j
  · have h1 := hstep.calls
    have h2 := h.room
    omega
  · have h1 := hstep.notices
    have h2 := h.notices
    omega

section Pass

variable {s d u t : State} {m : Smu}

theorem Installed.cids (h : Installed d m u) (i : Ref) : (u.ctx i).map Ctx.cid = (d.ctx i).map Ctx.cid := by
  by_cases hcut : d.CutBy m i
  · obtain ⟨y, r, hy, -⟩ := id hcut
    rw [(h.cut i y hcut hy).1, hy]
    rfl
  · rw [h.uncut i hcut]

/-- A live context of the installation was live before it, and is the same but for what it awaits. -/
theorem Installed.live (h : Installed d m u) {i : Ref} {y' : Ctx} (hy' : u.ctx i = some y') : ∃ y, d.ctx i = some y := by
  have hc := h.cids i
  rw [hy'] at hc
  cases hd : d.ctx i with
  | none => rw [hd] at hc; cases hc
  | some y => exact ⟨y, rfl⟩

/-- A cut context is in CLEARING. -/
theorem State.CutBy.clearing {i : Ref} {y : Ctx} (h : d.CutBy m i) (hp : PathLaw d) (hy : d.ctx i = some y) :
    y.state = .clearing := by
  obtain ⟨y', r, hy', hr, hst, -⟩ := h
  obtain rfl := Option.some.inj (hy.symm.trans hy')
  exact (hp.mute_iff hy hr).1.mp hst

/-- What a later step of the pass leaves of a context already settled. -/
theorem SettledByInstall.settleCtx {i j : Ref} {y y' : Ctx} (hij : j ≠ i) (h : SettledByInstall j y s t) :
    SettledByInstall j y s (t.settleCtx i y') := by
  have hspare : Spares (fun k => k = .release) j t (t.settleCtx i y') :=
    (Spares.refl j t).settleCtx (ks := fun k => k = .release) rfl hij y'
  have hcalm : Calm t (t.settleCtx i y') := (Calm.refl t).settleCtx i y'
  exact h.mono hspare.ctx hspare.record hcalm.smu hspare.adds hcalm.posted

variable (hs : Comparable s) (hd : Comparing s d) (hu : Installed d m u)
include hs hd hu

omit hu in
theorem Comparing.pathLaw : PathLaw d := hs.path.congr hd.path hd.ctx hd.now hd.smu

/-- Outside CLEARING an installation leaves a context as it stood. -/
theorem Installed.ctx_outside {i : Ref} {y : Ctx} (hy : s.ctx i = some y) (hc : y.state ≠ .clearing) : u.ctx i = some y := by
  have hdy : d.ctx i = some y := (hd.ctx i).trans hy
  rw [hu.uncut i fun hcut => hc (hcut.clearing (hd.pathLaw hs) hdy), hdy]

theorem Installed.activeCount : u.activeCount = d.activeCount := by
  refine List.countP_congr fun i _ => ?_
  by_cases hcut : d.CutBy m i
  · obtain ⟨y, -, hy, -⟩ := id hcut
    have hcl := hcut.clearing (hd.pathLaw hs) hy
    simp [State.outsideClearing, (hu.cut i y hcut hy).1, hy, hcl]
  · simp [State.outsideClearing, hu.uncut i hcut]

theorem Installed.room {i : Ref} (hmem : InstallPass u i t) (ho : u.outsideClearing i = true) : t.rif.count .call < 8 := by
  have h1 := hmem.room
  have h2 := hu.calls
  have h3 := owed_pos ho
  have h4 : u.owed 0 = u.activeCount := owed_zero u
  have h5 := hu.activeCount hs hd
  have h6 := liveCount_add_freeRefs d
  have h7 : d.rif.count .call = s.rif.count .call := by rw [Rif.count, hd.queue]; rfl
  have h8 := hs.calls
  omega

/-- Each context is ready for its row when the pass comes to it. -/
theorem InstallPass.rowReady (honce : m.HeldOnce) {i : Ref} {y : Ctx} (h : InstallPass u i t) (hy : s.ctx i = some y) :
    RowReady s t i y := by
  have hdy : d.ctx i = some y := (hd.ctx i).trans hy
  have hp : PathLaw d := hd.pathLaw hs
  obtain ⟨h1, h2, h3⟩ := h.above i (le_refl _)
  have hsmu : t.smu = m := h.calm.smu.trans hu.smu
  have hstate : t.stc.state = .joined := h.calm.state.trans ((congrArg Stc.state hu.stc).trans (hd.state.trans hs.joined))
  have hblock : ∀ o, t.smu.blockOf y.cid = o → m.blockOf y.cid = o := fun o ho => hsmu ▸ ho
  have hcut : (∃ r, s.path.record i = some r ∧ r.stage = .mute ∧ t.smu.blockOf y.cid ≠ some r.block) ↔ d.CutBy m i := by
    rw [hsmu, ← hd.path]
    exact ⟨fun ⟨r, hr⟩ => ⟨y, r, hdy, hr⟩, fun ⟨y', r, hy', hr⟩ => by
      obtain rfl := Option.some.inj (hdy.symm.trans hy')
      exact ⟨r, hr⟩⟩
  refine ⟨h.backed, by rw [hsmu]; exact honce, fun j z hz hj hcid => ?_, by simp [State.member, hstate], by rw [hstate]; rfl,
    h.calm.now.trans (hu.now.trans hd.now), h.calm.config.trans (hu.config.trans hd.config),
    hd.adds.trans (hu.adds.trans h.adds), fun hc => ?_, fun hn => ?_, hs.announced i y hy, fun hw => ?_, fun hc => ?_,
    fun hc1 hc2 hc3 => ?_, fun hst hsome hsame => ?_, fun hst hlost => ?_, fun hst hk => ?_, fun hst hk => ?_⟩
  · have hcids := (h.cids j).trans ((hu.cids j).trans (congrArg _ (hd.ctx j)))
    rw [hz] at hcids
    obtain ⟨z', hz', hzc⟩ := Option.map_eq_some_iff.mp hcids.symm
    exact hj (hs.one j i z' y hz' hy (hzc.trans hcid))
  · refine hu.room hs hd h ?_
    simpa [State.outsideClearing, hu.ctx_outside hs hd hy hc] using hc
  · have h5 := h.notices
    have h6 := hu.notices
    have h7 := hd.notices
    have h8 := i.isLt
    rw [hn, List.length_nil] at h7
    show _ < 16
    omega
  · have hfit := (hs.fits i y hy).1
    cases hside : y.side with
    | origin => rfl
    | answer => simp [Side.has, hside, hw] at hfit
  · exact h1.trans (hu.ctx_outside hs hd hy hc)
  · have hr := hp.record_none hdy ⟨hc1, hc2, hc3⟩
    exact ⟨h2.trans (hu.bare i hr), by rw [← hd.path]; exact hr⟩
  · cases hr : d.path.record i with
    | none => rw [h2, hu.bare i hr, ← hd.path, hr]
    | some r =>
      have hne : r.stage ≠ .mute := fun hmute => by
        have := (hp.mute_iff hdy hr).1.mp hmute
        rcases hst with hst | hst <;> simp [hst] at this
      rw [h2, hu.kept i y r hdy hr ((hblock _ hsame).trans ((hp.mute_iff hdy hr).2 hne)), ← hd.path, hr]
  · refine h3 ?_
    cases hr : d.path.record i with
    | none => exact hu.backed.dark_of_record (hu.bare i hr)
    | some r =>
      have hne : r.stage ≠ .mute := fun hmute => by
        have := (hp.mute_iff hdy hr).1.mp hmute
        rcases hst with hst | hst <;> simp [hst] at this
      have hpath := (hp.mute_iff hdy hr).2 hne
      refine hu.dark i y r hdy hr fun hb => ?_
      rw [hsmu, hb, hpath] at hlost
      rcases hlost with hlost | hlost
      · cases hlost
      · exact hlost rfl
  · obtain ⟨k1, k2⟩ := hu.cut i y (hcut.mp hk) hdy
    exact ⟨h1.trans k1, h2.trans (hu.gone i (hcut.mp hk)), h.adds.mem k2⟩
  · have hnot : ¬ d.CutBy m i := mt hcut.mpr hk
    refine ⟨h1.trans ((hu.uncut i hnot).trans hdy), ?_⟩
    cases hr : d.path.record i with
    | none => rw [h2, hu.bare i hr, ← hd.path, hr]
    | some r =>
      have hb : m.blockOf y.cid = some r.block := by
        by_contra hb
        exact hnot ⟨y, r, hdy, hr, (hp.mute_iff hdy hr).1.mpr hst, hb⟩
      rw [h2, hu.kept i y r hdy hr hb, ← hd.path, hr]

/-- One step of the pass. -/
theorem InstallPass.step (honce : m.HeldOnce) {i : Ref} {y' : Ctx} (h : InstallPass u i t) (hy' : t.ctx i = some y') :
    InstallPass u (i + 1) (t.settleCtx i y')
      ∧ ∀ y, s.ctx i = some y → SettledByInstall i y s (t.settleCtx i y') := by
  have huy : u.ctx i = some y' := ((h.above i (le_refl _)).1).symm.trans hy'
  obtain ⟨y, hdy⟩ := hu.live huy
  have hy : s.ctx i = some y := (hd.ctx i).symm.trans hdy
  obtain ⟨hrow, hstep⟩ := (h.rowReady hs hd hu honce hy).row hy'
  refine ⟨h.next hstep ?_, fun z hz => by obtain rfl := Option.some.inj (hy.symm.trans hz); exact hrow⟩
  by_cases hc : y.state = .clearing
  · rw [Ctx.cost, if_pos hc, Nat.zero_add]
    exact owed_succ_le u i
  · rw [Ctx.cost, if_neg hc]
    refine owed_succ_lt ?_
    simpa [State.outsideClearing, hu.ctx_outside hs hd hy hc] using hc

/-- The pass as a whole. -/
theorem installPass_eachCtx (honce : m.HeldOnce) :
    InstallPass u 4 (u.eachCtx State.settleCtx)
      ∧ ∀ i y, s.ctx i = some y → SettledByInstall i y s (u.eachCtx State.settleCtx) := by
  have hend := eachCtx_end
    (M := fun k t => InstallPass u k t ∧ ∀ (j : Ref) y, j.val < k → s.ctx j = some y → SettledByInstall j y s t)
    (s := u) (f := State.settleCtx) ⟨InstallPass.start hu.backed, fun j _ hj => absurd hj (Nat.not_lt_zero _)⟩
    (fun i t ⟨ht, hdone⟩ hfree => ⟨ht.free, fun j y hj hy => hdone j y ?_ hy⟩)
    (fun i t y' ⟨ht, hdone⟩ hy' => ?_)
  · exact ⟨hend.1, fun i y hy => hend.2 i y i.isLt hy⟩
  · have hji : j ≠ i := by
      rintro rfl
      have hcid := (ht.cids j).trans ((hu.cids j).trans (congrArg _ (hd.ctx j)))
      rw [hfree, hy] at hcid
      cases hcid
    have := Fin.val_ne_of_ne hji
    omega
  · obtain ⟨hnext, hrow⟩ := ht.step hs hd hu honce hy'
    refine ⟨hnext, fun j y hj hy => ?_⟩
    by_cases hji : j = i
    · subst hji
      exact hrow y hy
    · have := Fin.val_ne_of_ne hji
      exact (hdone j y (by omega) hy).settleCtx hji

end Pass

end Sys2Proof.Machine
end

section
/-! PROOFS. The SNAPSHOT compared in JOINED (R71 to R74). -/

namespace Sys2Proof.Machine

/-! ### The comparison -/

/-- The state in which a SNAPSHOT is compared: the stagger timer stopped, and the recall of a queued own one asked (R71, R72). -/
def State.compared (s : State) : State := s.stopStagger.askRecall ⟨.snapshot, .bare⟩

/-- The state in which a different one is installed: the divergence said (R72). -/
def State.diverged (s : State) (x : Byte) (hs : List SnapHold) (ws : List SnapWait) : State :=
  s.compared.post (.divergence x s.smu.holds.length s.smu.waits.length hs.length ws.length)

theorem joinedSnapshot_idle {s : State} {hs : List SnapHold} {ws : List SnapWait} (x : Byte)
    (h : snapValid hs ws = false ∨ s.smu.equalTo hs ws = true) : s.joinedSnapshot x hs ws = s.compared := by
  refine if_pos ?_
  rw [State.askRecall_smu, State.stopStagger_smu, Bool.or_eq_true, Bool.not_eq_true']
  exact h

theorem joinedSnapshot_differs {s : State} {hs : List SnapHold} {ws : List SnapWait} (x : Byte)
    (hv : snapValid hs ws = true) (he : s.smu.equalTo hs ws = false) :
    s.joinedSnapshot x hs ws = (((s.diverged x hs ws).install hs ws).eachCtx State.settleCtx).staleSelfRelease := by
  have hsmu : (s.stopStagger.askRecall ⟨.snapshot, .bare⟩).smu = s.smu := by simp
  rw [State.joinedSnapshot, if_neg (by rw [hsmu, hv, he]; decide), State.diverged, State.compared, hsmu]

section Compared

variable (s : State) (x : Byte) (hs : List SnapHold) (ws : List SnapWait)

theorem calm_diverged : Calm s.stopStagger (s.diverged x hs ws) := ((Calm.refl _).askRecall _).post _

theorem adds_diverged (ks : FrameKind → Prop) : Adds ks s (s.diverged x hs ws) :=
  ((Adds.of_rif rfl : Adds ks s s.stopStagger).trans (Adds.askRecall _ _)).trans (Adds.of_rif (State.post_rif _ _))

theorem comparing_diverged : Comparing s (s.diverged x hs ws) where
  ctx i := by simp [State.diverged, State.compared, State.ctx, State.stopStagger]
  path := by simp [State.diverged, State.compared]
  smu := by simp [State.diverged, State.compared]
  queue := by simp [State.diverged, State.compared]
  adds := adds_diverged s x hs ws _
  state := by simp [State.diverged, State.compared, State.stopStagger]
  now := by simp [State.diverged, State.compared]
  config := by simp [State.diverged, State.compared]
  notices := (notices_post_le _ _).trans (by simp [State.compared])

/-- A queued own SNAPSHOT is under recall once one has been compared. -/
theorem recallOpen_compared (h : s.kindQueued .snapshot = true) : s.compared.recallOpen ⟨.snapshot, .bare⟩ := by
  refine recallOpen_askRecall (s := s.stopStagger) ?_
  obtain ⟨e, he, hk⟩ := List.any_eq_true.mp h
  refine List.any_eq_true.mpr ⟨e, he, decide_eq_true ?_⟩
  have hk : e.frame.kind = .snapshot := of_decide_eq_true hk
  cases hf : e.frame with
  | snapshot hs ws => rfl
  | _ => rw [hf] at hk; cases hk

end Compared

/-! ### Recalls that stay open -/

theorem Adds.foldl {ks : FrameKind → Prop} {β : Type} {f : State → β → State} (hf : ∀ t b, Adds ks t (f t b)) (l : List β) :
    ∀ s : State, Adds ks s (l.foldl f s) := by
  induction l with
  | nil => exact Adds.refl ks
  | cons b l ih => exact fun s => (hf s b).trans (ih _)

theorem adds_sendRelease (s : State) (i : Ref) : Adds (fun k => k = .release) s (s.sendRelease i) :=
  Adds.of_spares (i := i) fun j hj => (Spares.refl j s).sendRelease (ks := fun k => k = .release) rfl hj

theorem adds_settleCtx (s : State) (i : Ref) (y : Ctx) : Adds (fun k => k = .release) s (s.settleCtx i y) :=
  Adds.of_spares (i := i) fun j hj => (Spares.refl j s).settleCtx (ks := fun k => k = .release) rfl hj y

theorem adds_eachCtx {ks : FrameKind → Prop} {f : State → Ref → Ctx → State} (hf : ∀ t i y, Adds ks t (f t i y)) (s : State) :
    Adds ks s (s.eachCtx f) :=
  eachCtx_end (M := fun _ t => Adds ks s t) (Adds.refl ks s) (fun _ _ ht _ => ht) fun i t y ht _ => ht.trans (hf t i y)

theorem adds_releaseStale (s : State) (c : CallId) : Adds (fun k => k = .release) s (s.releaseStale c) := by
  unfold State.releaseStale
  split
  · exact Adds.refl _ s
  · split
    · rename_i i _
      exact Adds.of_spares (i := i) fun j hj =>
        (((Spares.refl j s).setCtx hj _).postEnd hj).queueRelease (ks := fun k => k = .release) rfl hj
    · exact Adds.refl _ s

theorem adds_install (s : State) (hs : List SnapHold) (ws : List SnapWait) :
    Adds (fun k => k = .release) s (s.install hs ws) := by
  rw [install_eq]
  exact ((adds_installBase s hs ws _).trans (Adds.of_rif (installPath_rest _).1)).trans (Adds.foldl adds_sendRelease _ _)

/-- From the taking of a different snapshot to its end recalls and RELEASEs are added alone. -/
theorem adds_joinedSnapshot (s : State) (x : Byte) (hs : List SnapHold) (ws : List SnapWait) :
    Adds (fun k => k = .release) (s.compared)
      (((s.diverged x hs ws).install hs ws).eachCtx State.settleCtx).staleSelfRelease :=
  (((Adds.of_rif (State.post_rif _ _) : Adds _ s.compared (s.diverged x hs ws)).trans (adds_install _ _ _)).trans
    (adds_eachCtx adds_settleCtx _)).trans (Adds.foldl adds_releaseStale _ _)

end Sys2Proof.Machine
end

section
/-! PROOFS. The SNAPSHOT in JOINED and in LEAVING (R71 to R74, R76). -/

namespace Sys2Proof.Machine

/-- After the pass over the contexts: every row of R73, and room for the stale calls' RELEASEs and notices. -/
theorem settled_and_room {s : State} (h : Comparable s) (x : Byte) {hs : List SnapHold} {ws : List SnapWait}
    (hv : snapValid hs ws = true) {f : State} (hf : f = ((s.diverged x hs ws).install hs ws).eachCtx State.settleCtx) :
    (∀ i y, s.ctx i = some y → SettledByInstall i y s f) ∧ f.smu = (s.diverged x hs ws).installedCopy hs ws
      ∧ (∀ i, (f.ctx i).map Ctx.cid = (s.ctx i).map Ctx.cid) ∧ f.stc.state = .joined ∧ f.sport.config = s.sport.config
      ∧ f.rif.count .call + f.freeRefs.length ≤ 8 ∧ Adds (fun k => k = .release) s f
      ∧ (s.sport.notices = [] → f.sport.notices.length ≤ 10) := by
  have hd := comparing_diverged s x hs ws
  have hpd : PathLaw (s.diverged x hs ws) := hd.pathLaw h
  have hu : Installed (s.diverged x hs ws) ((s.diverged x hs ws).installedCopy hs ws) ((s.diverged x hs ws).install hs ws) :=
    installed_install hpd (by rw [hd.smu]; exact h.slot) (by rw [hd.state, h.joined]; rfl)
      (by rw [Rif.count, hd.queue]; exact h.calls) fun i y hy => h.announced i y ((hd.ctx i).symm.trans hy)
  obtain ⟨hpass, hrows⟩ := installPass_eachCtx h hd hu (heldOnce_installedCopy _ hv)
  rw [← hf] at hpass hrows
  have hcids : ∀ i, (f.ctx i).map Ctx.cid = (s.ctx i).map Ctx.cid := fun i =>
    (hpass.cids i).trans ((hu.cids i).trans (congrArg _ (hd.ctx i)))
  have hfree : f.freeRefs = (s.diverged x hs ws).freeRefs := by
    refine List.filter_congr fun i _ => ?_
    have := congrArg Option.isNone ((hcids i).trans (congrArg _ (hd.ctx i).symm))
    simpa using this
  have hstate : f.stc.state = .joined :=
    hpass.calm.state.trans ((congrArg Stc.state hu.stc).trans (hd.state.trans h.joined))
  refine ⟨hrows, hpass.calm.smu.trans hu.smu, hcids, hstate, hpass.calm.config.trans (hu.config.trans hd.config), ?_,
    hd.adds.trans (hu.adds.trans hpass.adds), fun hn => ?_⟩
  · have h1 := hpass.room
    have h2 := hu.calls
    have h3 := liveCount_add_freeRefs (s.diverged x hs ws)
    have h4 : (s.diverged x hs ws).rif.count .call = s.rif.count .call := by rw [Rif.count, hd.queue]; rfl
    have h5 := h.calls
    have h6 := hu.activeCount h hd
    rw [owed_zero] at h1
    rw [hfree]
    omega
  · have h1 := hpass.notices
    have h2 := hu.notices
    have h3 := hd.notices
    rw [hn, List.length_nil] at h3
    omega

/-- Notices of which there is room for all are all among those of the state after. -/
theorem PostsInTurn.mem {ns : List Notice} {s t : State} (h : PostsInTurn ns s t)
    (hn : s.sport.notices.length + ns.length ≤ Config.noticeCap) {n : Notice} (hmem : n ∈ ns) : n ∈ t.sport.notices := by
  rw [h.1, List.take_of_length_le (by rw [List.length_append]; omega)]
  exact List.mem_append_right _ hmem

/-- A different snapshot in JOINED, settled and the stale calls released (R73, R74). -/
theorem joinedSnapshot_settles {s : State} (h : Comparable s) (x : Byte) {hs : List SnapHold} {ws : List SnapWait}
    (hv : snapValid hs ws = true) (he : s.smu.equalTo hs ws = false) :
    let taken := s.staleTaken (hs.map SnapHold.cid ++ ws.map SnapWait.cid)
    let t := s.joinedSnapshot x hs ws
    (∀ i y, s.ctx i = some y → SettledByInstall i y s t) ∧ SelfReleased taken s t
      ∧ (∃ cleared, t.rif.queue = s.rif.queue ++ cleared ++ staleReleases taken ∧ ∀ e ∈ cleared, e.frame.kind = .release)
      ∧ (s.sport.notices = [] → ∀ n ∈ staleNotices taken, n ∈ t.sport.notices) := by
  intro taken t
  have ht : t = (((s.diverged x hs ws).install hs ws).eachCtx State.settleCtx).staleSelfRelease :=
    joinedSnapshot_differs x hv he
  obtain ⟨f, hf⟩ : ∃ f, f = ((s.diverged x hs ws).install hs ws).eachCtx State.settleCtx := ⟨_, rfl⟩
  obtain ⟨hrows, hsmu, hcids, hstate, hconfig, hroom, hadds, hnotices⟩ := settled_and_room h x hv hf
  rw [← hf] at ht
  have hstale := staleReleased_of_room (s := f) (by rw [hstate]; rfl) hroom
  rw [← ht, hsmu, installedCopy_cids, staleTaken_congr hcids hconfig] at hstale
  have hcalm : Calm f t := ht ▸ (Calm.refl f).staleSelfRelease
  obtain ⟨⟨hopened, hfree⟩, hlive, hqueue, hposts, hpath, hrecalls⟩ := hstale
  obtain ⟨fs, hfs, hkind⟩ := hadds.queue
  refine ⟨fun i y hy => ?_, ⟨hopened, fun i hi => hfree i ?_⟩, ⟨fs.map Entry.fresh, ?_, fun e he => ?_⟩, fun hn n hmem => ?_⟩
  · have hcid := hcids i
    rw [hy] at hcid
    obtain ⟨y', hy', -⟩ := Option.map_eq_some_iff.mp hcid
    refine (hrows i y hy).mono ((hlive i y' hy').trans hy'.symm) (by rw [hpath]) hcalm.smu
      (ks := fun _ => True) ⟨by rw [hrecalls], taken.map fun p => .release p.2 0x15#8, ?_, fun _ _ => trivial⟩ hcalm.posted
    rw [hqueue, staleReleases, List.map_map]
    rfl
  · have hcid := hcids i
    rw [hi] at hcid
    simpa using hcid
  · rw [hqueue, hfs]
  · obtain ⟨g, hg, rfl⟩ := List.mem_map.mp he
    exact hkind g hg
  · refine hposts.mem ?_ hmem
    have h1 := hnotices hn
    have h2 : (staleNotices taken).length ≤ 4 := by
      have h3 : refs.length = 4 := rfl
      rw [staleNotices, List.length_map]
      refine (List.length_zip.trans_le (min_le_left _ _)).trans ?_
      exact (List.length_filter_le _ _).trans (le_of_eq h3)
    exact (Nat.add_le_add h1 h2).trans (by decide : 10 + 4 ≤ 16)

/-- A different snapshot in JOINED changes the copy, and then acts calmly (R72). -/
theorem calm_joinedSnapshot {s : State} (x : Byte) {hs : List SnapHold} {ws : List SnapWait} (hv : snapValid hs ws = true)
    (he : s.smu.equalTo hs ws = false) :
    Calm { s.diverged x hs ws with smu := (s.diverged x hs ws).installedCopy hs ws } (s.joinedSnapshot x hs ws) := by
  rw [joinedSnapshot_differs x hv he]
  exact (Calm.eachCtx (calm_install _ hs ws) fun t i y ht => ht.settleCtx i y).staleSelfRelease

theorem snapshotTaken_joined {s : State} (h : s.stc.state = .joined) (x : Byte) (hs : List SnapHold) (ws : List SnapWait) :
    s.snapshotTaken x hs ws = s.joinedSnapshot x hs ws := if_pos h

theorem snapshotTaken_leaving {s : State} (h : s.stc.state = .leaving) (x : Byte) (hs : List SnapHold) (ws : List SnapWait) :
    s.snapshotTaken x hs ws = s := if_neg (by rw [h]; decide)

/-- A SNAPSHOT that is compared without effect on copy and contexts. -/
theorem compared_idle (s : State) : SameFixtures s s.compared ∧ s.compared.stc = { s.stc with stagger := none }
    ∧ s.compared.smu = s.smu ∧ s.compared.ctxs = s.ctxs ∧ s.compared.path = s.path ∧ s.compared.oku = s.oku
    ∧ s.compared.sport = s.sport := by
  refine ⟨((Calm.refl s.stopStagger).askRecall _).sameFixtures, ?_, ?_, ?_, ?_, ?_, ?_⟩ <;> simp [State.compared, State.stopStagger]

/-- The own SNAPSHOT, which equals the copy, stops the stagger timer and no more: none is queued behind it (R71, R72). -/
theorem compared_of_none_queued {s : State} (h : s.queued ⟨.snapshot, .bare⟩ = false) :
    s.compared = { s with stc := { s.stc with stagger := none } } := by
  have h' : s.stopStagger.queued ⟨.snapshot, .bare⟩ = false := h
  rw [State.compared, State.askRecall, h', Bool.false_and]
  rfl

theorem countP_eraseP_of_le_one {α : Type} {p : α → Bool} (l : List α) (h : l.countP p ≤ 1) : (l.eraseP p).countP p = 0 := by
  induction l with
  | nil => rfl
  | cons a l ih =>
    rw [List.countP_cons] at h
    by_cases ha : p a = true
    · rw [if_pos ha] at h
      rw [List.eraseP_cons_of_pos ha]
      omega
    · rw [if_neg ha] at h
      rw [List.eraseP_cons_of_neg ha, List.countP_cons_of_neg ha]
      exact ih h

theorem not_queued_of_only_carrying {s : State}
    (hall : ∀ e ∈ s.rif.queue, e.frame.kind = .snapshot → e.carriage = .carrying)
    (hone : s.rif.queue.countP (fun e => decide (e.carriage = .carrying)) = 1) :
    (s.onEcho ⟨.snapshot, .bare⟩).queued ⟨.snapshot, .bare⟩ = false := by
  rw [← Bool.not_eq_true]
  intro hq
  obtain ⟨e, he, hid⟩ := List.any_eq_true.mp hq
  have hmem : e ∈ s.rif.queue.eraseP fun e => decide (e.carriage = .carrying) := he
  have hid : e.frame.ident = ⟨.snapshot, .bare⟩ := of_decide_eq_true hid
  have hcarry : e.carriage = .carrying :=
    hall e (List.mem_of_mem_eraseP hmem) (congrArg FrameId.kind hid)
  have hcount := countP_eraseP_of_le_one s.rif.queue (le_of_eq hone)
  exact absurd (decide_eq_true hcarry) (List.countP_eq_zero.mp hcount e hmem)

/-- Settles O16: the comparison is calm where nothing differs; else the installed copy, the pass over the contexts, and the stale
calls, each by its own lemma. -/
theorem snapshotIsComparedInJoined : Obligations.SnapshotIsComparedInJoined := by
  unfold Obligations.SnapshotIsComparedInJoined
  refine ⟨fun s x hs ws hh => ?_, fun s hs ws hecho hj heq hall hone => ?_⟩
  · have hexec : exec (.snapshotTaken x hs ws) s = .next ((s.newEvent.snapshotTaken x hs ws).leaveCheck) :=
      congrArg _ (taking_of_hears hh _ _)
    rcases member_iff.mp hh.1 with hj | hlv
    · have hnl : s.stc.state ≠ .leaving := by simp [hj]
      have htaken : s.newEvent.snapshotTaken x hs ws = s.newEvent.joinedSnapshot x hs ws := snapshotTaken_joined (s := s.newEvent) hj x hs ws
      by_cases hidle : snapValid hs ws = false ∨ s.smu.equalTo hs ws = true
      · obtain ⟨h1, h2, h3, h4, h5, h6, h7⟩ := compared_idle s.newEvent
        have ht : s.newEvent.joinedSnapshot x hs ws = s.newEvent.compared := joinedSnapshot_idle (s := s.newEvent) x hidle
        rw [htaken, ht, leaveCheck_of_state (by rw [h2]; exact hnl)] at hexec
        refine ⟨_, hexec, h1, fun _ => ⟨by rw [h2], recallOpen_compared s.newEvent⟩, fun _ => ⟨h3, h4, h5, h6, h7⟩,
          fun _ hv he => ?_⟩
        rcases hidle with hidle | hidle
        · rw [hv] at hidle; cases hidle
        · rw [he] at hidle; cases hidle
      · simp only [not_or, Bool.not_eq_false, Bool.not_eq_true] at hidle
        obtain ⟨hv, he⟩ := hidle
        have hcalm := calm_joinedSnapshot (s := s.newEvent) x hv he
        have hdiv := calm_diverged s.newEvent x hs ws
        have hstc := hcalm.sameStation
        have hopen := adds_joinedSnapshot s.newEvent x hs ws
        rw [← joinedSnapshot_differs (s := s.newEvent) x hv he] at hopen
        have hstate : (s.newEvent.joinedSnapshot x hs ws).stc.state ≠ .leaving := by
          rw [hcalm.state]
          show (s.newEvent.diverged x hs ws).stc.state ≠ .leaving
          rw [(comparing_diverged s.newEvent x hs ws).state]
          exact hnl
        rw [htaken, leaveCheck_of_state hstate] at hexec
        refine ⟨_, hexec, ?_, fun _ => ⟨?_, fun hk => hopen.recallOpen (recallOpen_compared s.newEvent hk)⟩, fun hcase => ?_,
          fun _ _ _ => ⟨?_, ?_, fun h hmem => ?_, fun hn => ?_, fun hp hl hfit hann hone hcalls => ?_⟩⟩
        · exact SameFixtures.trans (t := s.newEvent.stopStagger) (Calm.refl s).sameFixtures
            (SameFixtures.trans (t := s.newEvent.diverged x hs ws) hdiv.sameFixtures hcalm.sameFixtures)
        · obtain ⟨-, -, -, -, hstagger, -⟩ := hcalm.sameStation
          obtain ⟨-, -, -, -, hstagger', -⟩ := hdiv.sameStation
          exact hstagger.trans hstagger'
        · rcases hcase with hcase | hcase | hcase
          · exact absurd hcase hnl
          · rw [hv] at hcase; cases hcase
          · rw [he] at hcase; cases hcase
        · rw [hcalm.smu]
          exact installedCopy_snapHolds _ hs ws
        · rw [hcalm.smu]
          exact installedCopy_snapWaits _ hs ws
        · rw [hcalm.smu] at hmem
          rw [(installedCopy_hold _ hs ws hmem).2, State.holdAudit, (comparing_diverged s.newEvent x hs ws).now, State.own,
            (comparing_diverged s.newEvent x hs ws).config]
          rfl
        · refine hcalm.posted.subset ?_
          show _ ∈ (s.newEvent.diverged x hs ws).sport.notices
          exact mem_post _ (by simpa [State.compared, Config.noticeCap] using hn)
        · exact joinedSnapshot_settles (s := s.newEvent) ⟨hp.congr rfl (fun _ => rfl) rfl rfl, hl, hfit, hann, hone, hcalls, hj⟩ x hv he
    · have hnj : s.stc.state ≠ .joined := by simp [hlv]
      rw [snapshotTaken_leaving (s := s.newEvent) hlv] at hexec
      have hcalm : Calm s.newEvent s.newEvent.leaveCheck := (Calm.refl _).leaveCheck
      exact ⟨_, hexec, SameFixtures.trans (t := s.newEvent) (Calm.refl s).sameFixtures hcalm.sameFixtures, fun h => absurd h hnj,
        fun _ => ⟨leaveCheck_smu _, leaveCheck_ctxs _, leaveCheck_path _, leaveCheck_oku _, leaveCheck_sport _⟩,
        fun h => absurd h hnj⟩
  · have hexec : exec (.snapshotTaken s.own hs ws) s
        = .next (((s.onEcho ⟨.snapshot, .bare⟩).snapshotTaken s.own hs ws).leaveCheck) := congrArg _ (taking_of_echoes hecho _ _)
    have htaken : (s.onEcho ⟨.snapshot, .bare⟩).snapshotTaken s.own hs ws
        = { s.onEcho ⟨.snapshot, .bare⟩ with stc := { s.stc with stagger := none } } := by
      rw [snapshotTaken_joined (s := s.onEcho ⟨.snapshot, .bare⟩) hj,
        joinedSnapshot_idle (s := s.onEcho ⟨.snapshot, .bare⟩) s.own (.inr heq),
        compared_of_none_queued (not_queued_of_only_carrying hall hone)]
      rfl
    rw [htaken, leaveCheck_of_state (by simp [hj])] at hexec
    exact hexec

end Sys2Proof.Machine
end

section
/-! PROOFS. A RELEASE or RECLAIM that frees a call, step by step: the block cut from PATH, the RELEASEs of the paths that mute on it,
the pass over the contexts, and what follows the pass (R11, R12, R36, R154, R158). -/

namespace Sys2Proof.Machine

/-! ### The freed block -/

/-- The contexts whose paths mute on the freed call's block (R158). -/
def State.freedMuting (s : State) (c : CallId) : List Ref :=
  match s.smu.blockOf c with
  | some b => s.path.mutingOn b
  | none => []

/-- The copy freed, and the enables and records of the freed block gone (R11, R158). -/
def State.blockFreed (s : State) (c : CallId) : State :=
  match s.smu.blockOf c with
  | some b => (s.freedBase c).freeBlock b
  | none => s.freedBase c

/-- The state in which the contexts learn of a freed call: the RELEASEs of the muting paths are queued (R158). -/
def State.freedPort (s : State) (c : CallId) : State := (s.freedMuting c).foldl State.sendRelease (s.blockFreed c)

/-- A freed call: its block first, then each context, then the port's owner (R11, R12, R154). -/
theorem freeCall_eq_pass (s : State) (k : FrameKind) (x : Byte) (c : CallId) (cause : Option Byte) :
    s.freeCall k x c cause = ((s.freedPort c).eachCtx (State.reportAt (s.freedReport k x c cause))).reckonOwner := by
  rw [freeCall_eq, State.freedPort, State.freedMuting, State.blockFreed, Smu.blockOf, State.changeReport]
  cases h : s.smu.holdOf c with
  | none => simp [State.freedReport, State.removalReport, h]
  | some k => simp [State.freedReport, State.removalReport, h, State.freedBase]

section FreeBlock

variable (s : State) (b : Block)

theorem record_freeBlock (j : Ref) :
    (s.freeBlock b).path.record j = if s.path.litOn b j then none else s.path.record j := by
  have hdrop : ∀ (q : Path) (i : Ref), (if s.path.litOn b i then q.setRec i none else q).record j
      = if j = i ∧ s.path.litOn b i = true then none else q.record j := fun q i => by
    by_cases hl : s.path.litOn b i = true
    · by_cases hj : j = i <;> simp [hl, hj]
    · simp [hl]
  simp only [State.freeBlock, Path.record_setBlock, hdrop]
  by_cases hl : s.path.litOn b j = true
  · match j with
    | 0 | 1 | 2 | 3 => simp [hl]
  · have hno : ∀ i : Ref, ¬ (j = i ∧ s.path.litOn b i = true) := fun i h => hl (h.1 ▸ h.2)
    simp [hno, hl]

theorem enable_freeBlock (n : Nat) :
    (s.freeBlock b).path.enable n = if n < 24 ∧ b.1 ≤ n ∧ n < b.1 + b.2 then none else s.path.enable n := by
  have hdrop : ∀ (q : Path) (i : Ref), (if s.path.litOn b i then q.setRec i none else q).enable n = q.enable n := fun q i => by
    split <;> rfl
  simp only [State.freeBlock, Path.enable_setBlock, hdrop]

end FreeBlock

theorem Path.litOn_iff {p : Path} {b : Block} {i : Ref} :
    p.litOn b i = true ↔ ∃ r, p.record i = some r ∧ r.block = b ∧ p.lit i = true := by
  unfold Path.litOn
  cases h : p.record i <;> simp

theorem Smu.blockOf_eq_some_iff {m : Smu} {c : CallId} {b : Block} :
    m.blockOf c = some b ↔ ∃ h, m.holdOf c = some h ∧ b = (h.base, h.width) := by
  simp [Smu.blockOf, eq_comm]

section BlockFreed

variable {s : State} {c : CallId}

/-- A context mutes on the freed block: its record mutes, is lit, and has that block. -/
theorem mem_freedMuting {i : Ref} :
    i ∈ s.freedMuting c ↔ ∃ r, s.path.record i = some r ∧ r.stage = .mute ∧ s.path.lit i = true
      ∧ ∃ h, s.smu.holdOf c = some h ∧ r.block = (h.base, h.width) := by
  unfold State.freedMuting
  cases hb : s.smu.blockOf c with
  | none => simp [Smu.blockOf_none hb]
  | some b =>
    obtain ⟨k, hk, rfl⟩ := Smu.blockOf_eq_some_iff.mp hb
    simp only [Path.mutingOn, List.mem_filter, mem_refs, true_and, Bool.and_eq_true, Path.litOn_iff, hk]
    constructor
    · rintro ⟨⟨r, hr, hrb, hl⟩, hm⟩
      exact ⟨r, hr, by simpa [Path.muting, hr] using hm, hl, k, rfl, hrb⟩
    · rintro ⟨r, hr, hm, hl, k', hk', hrb⟩
      obtain rfl := Option.some.inj hk'
      exact ⟨⟨r, hr, hrb, hl⟩, by simp [Path.muting, hr, hm]⟩

theorem nodup_freedMuting : (s.freedMuting c).Nodup := by
  unfold State.freedMuting
  split
  · exact (by decide : refs.Nodup).filter _
  · exact List.nodup_nil

theorem blockFreed_eq : ∃ p, s.blockFreed c = { s.freedBase c with path := p } := by
  unfold State.blockFreed
  split
  · exact ⟨_, rfl⟩
  · exact ⟨_, rfl⟩

@[simp] theorem blockFreed_smu : (s.blockFreed c).smu = s.freedCopy c := by
  obtain ⟨p, h⟩ := blockFreed_eq (s := s) (c := c)
  rw [h]
  simp [State.freedBase]

@[simp] theorem blockFreed_stc : (s.blockFreed c).stc = s.stc := by
  obtain ⟨p, h⟩ := blockFreed_eq (s := s) (c := c)
  rw [h]
  simp [State.freedBase]

@[simp] theorem blockFreed_sport : (s.blockFreed c).sport = s.sport := by
  obtain ⟨p, h⟩ := blockFreed_eq (s := s) (c := c)
  rw [h]
  simp [State.freedBase]

@[simp] theorem blockFreed_queue : (s.blockFreed c).rif.queue = s.rif.queue := by
  obtain ⟨p, h⟩ := blockFreed_eq (s := s) (c := c)
  rw [h]
  simp [State.freedBase]

@[simp] theorem ctx_blockFreed (i : Ref) : (s.blockFreed c).ctx i = s.ctx i := by
  obtain ⟨p, h⟩ := blockFreed_eq (s := s) (c := c)
  refine State.ctx_congr ?_ i
  rw [h]
  simp [State.freedBase]

theorem adds_blockFreed (ks : FrameKind → Prop) : Adds ks s (s.blockFreed c) := by
  obtain ⟨p, h⟩ := blockFreed_eq (s := s) (c := c)
  rw [h]
  have h1 : Adds ks s ({ s with smu := s.freedCopy c } : State) := Adds.of_rif rfl
  exact (h1.trans (Adds.askRecall _ ⟨.reclaim, .call c⟩)).trans (Adds.of_rif rfl)

@[simp] theorem freedBase_path : (s.freedBase c).path = s.path := by simp [State.freedBase]

theorem record_blockFreed (j : Ref) :
    (s.blockFreed c).path.record j = if ∃ b, s.smu.blockOf c = some b ∧ s.path.litOn b j = true then none else s.path.record j := by
  unfold State.blockFreed
  cases hb : s.smu.blockOf c with
  | none => simp
  | some b => simp [record_freeBlock]

/-- A muting path on the freed block is removed (R158). -/
theorem record_blockFreed_muting {j : Ref} (h : j ∈ s.freedMuting c) : (s.blockFreed c).path.record j = none := by
  obtain ⟨r, hr, -, hl, k, hk, hb⟩ := mem_freedMuting.mp h
  rw [record_blockFreed, if_pos ⟨(k.base, k.width), Smu.blockOf_eq_some_iff.mpr ⟨k, hk, rfl⟩, Path.litOn_iff.mpr ⟨r, hr, hb, hl⟩⟩]

theorem record_blockFreed_of_none {j : Ref} (h : s.path.record j = none) : (s.blockFreed c).path.record j = none := by
  rw [record_blockFreed, h, ite_self]

/-- What is ON once the freed block is cut was ON before, outside the block (R11). -/
theorem enable_blockFreed {n : Nat} {e : Enable} (he : (s.blockFreed c).path.enable n = some e) :
    s.path.enable n = some e ∧ ∀ b, s.smu.blockOf c = some b → ¬ (b.1 ≤ n ∧ n < b.1 + b.2) := by
  have hn : n < 24 := by
    by_contra hn
    simp [Path.enable, hn] at he
  unfold State.blockFreed at he
  cases hb : s.smu.blockOf c with
  | none =>
    rw [hb] at he
    exact ⟨by simpa using he, by simp⟩
  | some b =>
    rw [hb] at he
    dsimp only at he
    rw [enable_freeBlock, freedBase_path] at he
    split at he
    · cases he
    · rename_i hout
      refine ⟨he, fun b' hb' hin => hout ?_⟩
      obtain rfl := Option.some.inj hb'
      exact ⟨hn, hin⟩

end BlockFreed

/-- RELEASEs sent at other contexts spare this one. -/
theorem spares_foldl_sendRelease {j : Ref} (l : List Ref) : ∀ s : State, j ∉ l →
    Spares (fun k => k = .release) j s (l.foldl State.sendRelease s) := by
  induction l with
  | nil => exact fun s _ => Spares.refl j s
  | cons i l ih =>
    intro s hj
    rw [List.mem_cons, not_or] at hj
    exact ((Spares.refl j s).sendRelease (ks := fun k => k = .release) rfl hj.1).trans (ih _ hj.2)

theorem adds_freedPort (s : State) (c : CallId) : Adds (fun k => k = .release) s (s.freedPort c) :=
  (adds_blockFreed _).trans (Adds.foldl adds_sendRelease _ _)

/-- A context whose path does not mute on the freed block comes as it stood to the pass. -/
theorem ctx_freedPort {s : State} {c : CallId} {j : Ref} (h : j ∉ s.freedMuting c) : (s.freedPort c).ctx j = s.ctx j :=
  ((spares_foldl_sendRelease _ _ h).ctx).trans (ctx_blockFreed j)

/-! ### The pass -/

section Report

variable {s : State} {x : Byte} {c : CallId} {kind : FrameKind} {cause : Option Byte}

theorem removed_freedReport : (s.freedReport kind x c cause).removed = s.smu.has c := by
  simp [State.freedReport, State.removalReport, Report.removed, Smu.has]

theorem reportAt_release {i : Ref} {y : Ctx} {t : State} (hc : y.cid = c) (k : Byte) :
    State.reportAt (s.freedReport .release x c (some k)) t i y = t.releaseAt i y (decide (x = s.own)) k := by
  simp [State.reportAt, State.freedReport, State.removalReport, hc]

theorem reportAt_reclaim {i : Ref} {y : Ctx} {t : State} (hc : y.cid = c) (hh : s.smu.has c = true) :
    State.reportAt (s.freedReport .reclaim x c none) t i y = t.reclaimAt i y := by
  have hr := removed_freedReport (s := s) (x := x) (c := c) (kind := .reclaim) (cause := none)
  rw [hh] at hr
  simp only [State.reportAt, hr]
  simp [State.freedReport, State.removalReport, hc]

/-- At a context of another call the report tells of the call's own grant alone (R12). -/
theorem reportAt_grant {i : Ref} {y : Ctx} {t : State} (hc : y.cid ≠ c) {g : NewHold}
    (hg : (s.freedGrants c).find? (fun h => h.cid = y.cid) = some g) :
    State.reportAt (s.freedReport kind x c cause) t i y = t.newHoldAt i y g := by
  simp [State.reportAt, State.freedReport, State.removalReport, hc, hg]

theorem reportAt_ungranted {i : Ref} {y : Ctx} {t : State} (hc : y.cid ≠ c)
    (hg : (s.freedGrants c).find? (fun h => h.cid = y.cid) = none) :
    State.reportAt (s.freedReport kind x c cause) t i y = t := by
  simp [State.reportAt, State.freedReport, State.removalReport, hc, hg]

end Report

theorem spares_reportAt {i j : Ref} (hj : j ≠ i) (r : Report) (t : State) (y : Ctx) :
    Spares (fun k => k = .release) j t (State.reportAt r t i y) :=
  (Spares.refl j t).reportAt (ks := fun k => k = .release) rfl hj r y

theorem adds_reportAt (r : Report) (t : State) (i : Ref) (y : Ctx) :
    Adds (fun k => k = .release) t (State.reportAt r t i y) := Adds.of_spares fun _ hj => spares_reportAt hj r t y

/-- A pass of reports seen from one context: it comes to the context with it spared, and leaves it spared. -/
theorem eachCtx_reportAt_around (r : Report) (u : State) (i : Ref) :
    ∃ a, Spares (fun k => k = .release) i u a
      ∧ Spares (fun k => k = .release) i (State.visit (State.reportAt r) a i) (u.eachCtx (State.reportAt r)) := by
  obtain ⟨a, -, h1, -, h2⟩ := eachCtx_around (ks := fun k => k = .release) (f := State.reportAt r) (M := fun _ _ => True)
    (s := u) trivial (fun _ _ _ _ => trivial) (fun _ t y _ _ => ⟨trivial, fun _ hj => spares_reportAt hj r t y⟩) i
  exact ⟨a, h1, h2⟩

/-! ### What follows the pass -/

theorem SameItems.trans {m m' m'' : Smu} (h : SameItems m m') (k : SameItems m' m'') : SameItems m m'' := by
  obtain ⟨⟨f, hf, hfk⟩, g, hg, hgk⟩ := h
  obtain ⟨⟨f', hf', hfk'⟩, g', hg', hgk'⟩ := k
  refine ⟨⟨f' ∘ f, by rw [hf', hf, List.map_map], fun x => ?_⟩, g' ∘ g, by rw [hg', hg, List.map_map], fun w => ?_⟩
  · obtain ⟨h1, h2, h3, h4⟩ := hfk x
    obtain ⟨k1, k2, k3, k4⟩ := hfk' (f x)
    exact ⟨k1.trans h1, k2.trans h2, k3.trans h3, k4.trans h4⟩
  · obtain ⟨h1, h2⟩ := hgk w
    obtain ⟨k1, k2⟩ := hgk' (g w)
    exact ⟨k1.trans h1, k2.trans h2⟩

/-- After the pass: the port's owner re-reckoned; then at most a RECLAIM queued with its item's audit, and the LEAVE (R36, R77,
R154). -/
structure Concludes (a t : State) : Prop where
  spares : ∀ j, Spares (fun _ => True) j a t
  path : t.path = a.reckonOwner.path
  posted : a.sport.notices <+: t.sport.notices
  items : SameItems a.smu t.smu

theorem concludes_reckonOwner (a : State) : Concludes a a.reckonOwner where
  spares j := (Spares.refl j a).reckonOwner
  path := rfl
  posted := (Calm.refl a).reckonOwner.posted
  items := by rw [reckonOwner_smu]; exact SameItems.refl _

section Concludes

variable {a t : State} (h : Concludes a t)
include h

theorem Concludes.ctx (i : Ref) : t.ctx i = a.ctx i := (h.spares i).ctx
theorem Concludes.record (i : Ref) : t.path.record i = a.path.record i := (h.spares i).record
theorem Concludes.adds : Adds (fun _ => True) a t := (h.spares 0).adds

theorem Concludes.leaveCheck : Concludes a t.leaveCheck := by
  have hl : ∀ j, Spares (fun _ => True) j t t.leaveCheck := fun j => by
    rcases leaveCheck_eq t with hl | hl
    · rw [hl]; exact Spares.refl j t
    · rw [hl]; exact (Spares.refl j t).queueFrame _ trivial
  exact ⟨fun j => (h.spares j).trans (hl j), by rw [leaveCheck_path, h.path], by rw [leaveCheck_sport]; exact h.posted,
    by rw [leaveCheck_smu]; exact h.items⟩

theorem Concludes.nextOverdue : Concludes a t.nextOverdue := by
  have hitems := h.items.trans (sameItems_nextOverdue t)
  rcases nextOverdue_eq t with hn | ⟨c, hn⟩
  · rw [hn]; exact h
  · rw [hn] at hitems ⊢
    refine ⟨fun j => ?_, ?_, ?_, hitems⟩
    · exact (h.spares j).trans (((Spares.refl j t).queueFrame (.reclaim c) trivial).of_rif rfl rfl rfl rfl)
    · simpa [State.setAudit] using h.path
    · simpa [State.setAudit] using h.posted

end Concludes

/-! ### The command -/

/-- A call freed by a RELEASE, or by a RECLAIM that finds an item: the taken frame's kind, and what the report says. -/
def Frees (s : State) (x : Byte) (c : CallId) (k : Byte) (cmd : Instr) (kind : FrameKind) (cause : Option Byte) : Prop :=
  (cmd = .releaseTaken x c k ∧ kind = .release ∧ cause = some k)
    ∨ (cmd = .reclaimTaken x c ∧ kind = .reclaim ∧ cause = none ∧ s.smu.has c = true)

/-- The command passes from the freed block over the contexts to its conclusion. -/
theorem freesCall_passes {s : State} {x : Byte} {c : CallId} {k : Byte} {cmd : Instr} (h : FreesCall s x c k cmd)
    (hfree : cmd = .releaseTaken x c k ∨ s.smu.has c = true) :
    ∃ f kind cause t, f.ident = ⟨kind, .call c⟩ ∧ s.takesFrame x f ∧ Frees (s.takingBase x f) x c k cmd kind cause
      ∧ exec cmd s = .next t
      ∧ Concludes (((s.takingBase x f).freedPort c).eachCtx
        (State.reportAt ((s.takingBase x f).freedReport kind x c cause))) t := by
  rcases h with ⟨rfl, h⟩ | ⟨rfl, h⟩
  · have hexec : exec (.releaseTaken x c k) s
        = .next ((s.takingBase x (.release c k)).releaseTaken x c k).leaveCheck := congrArg _ (taking_of_takesFrame h _ _)
    refine ⟨.release c k, .release, some k, _, rfl, h, .inl ⟨rfl, rfl, rfl⟩, hexec, ?_⟩
    rw [State.releaseTaken, freeCall_eq_pass]
    exact (concludes_reckonOwner _).leaveCheck
  · have hh : s.smu.has c = true := hfree.resolve_left (by simp)
    have hexec : exec (.reclaimTaken x c) s
        = .next ((s.takingBase x (.reclaim c)).reclaimTaken x c).leaveCheck := congrArg _ (taking_of_takesFrame h _ _)
    refine ⟨.reclaim c, .reclaim, none, _, rfl, h, .inr ⟨rfl, rfl, rfl, (takingBase_smu s x _).symm ▸ hh⟩, hexec, ?_⟩
    have hpass := concludes_reckonOwner (((s.takingBase x (.reclaim c)).freedPort c).eachCtx
      (State.reportAt ((s.takingBase x (.reclaim c)).freedReport .reclaim x c none)))
    rw [State.reclaimTaken, takingBase_smu, hh, if_pos rfl, freeCall_eq_pass]
    split
    · exact hpass.nextOverdue.leaveCheck
    · exact hpass.leaveCheck

/-- A RECLAIM that finds no item moves the port's owner at most (R12, R154). -/
theorem reclaimTaken_idle {s : State} {x : Byte} {c : CallId} (hh : s.smu.has c = false) :
    s.reclaimTaken x c = if x = s.own then s.reckonOwner.nextOverdue else s.reckonOwner := by
  have hhold : s.smu.holdOf c = none := by
    rw [Smu.has, Bool.or_eq_false_iff] at hh
    simpa using hh.1
  have hwait : s.smu.waitOf c = none := by
    rw [Smu.has, Bool.or_eq_false_iff] at hh
    simpa using hh.2
  have hidle : s.changeReport (s.removalReport .reclaim x c none) = s.reckonOwner :=
    changeReport_idle (by simp [State.removalReport, hhold]) fun i y _ => by
      simp [State.reportAt, State.removalReport, Report.removed, hhold, hwait]
  rw [State.reclaimTaken, hh, if_neg Bool.false_ne_true, hidle]

end Sys2Proof.Machine
end

section
/-! PROOFS. A call that a frame ends, seen at its context (R12, R123, R125, R144). -/

namespace Sys2Proof.Machine

/-! ### The endings of the two sides -/

/-- An ORIGIN context ended by a frame, before it is freed or waits for its frames' recalls (R125). -/
def State.originEnded (s : State) (i : Ref) (y : Ctx) (k : Cause) : State :=
  (((s.enterClearing i k true).cutPath i).recallCall y.cid).reckonOwner

/-- An ANSWER-side context ended while its ANSWER may be on the way, before that is known (R144). -/
def State.answerEnded (s : State) (i : Ref) (k : Cause) : State :=
  (s.enterClearing i k true).modifyCtx i fun y => { y with superseded := true }

section Endings

variable {s : State} {i : Ref} {y : Ctx} (h : s.ctx i = some y) (k : Cause)
include h

theorem endOrigin_of_waits (hw : s.queued ⟨.claim, .call y.cid⟩ = true ∨ s.queued ⟨.wait, .call y.cid⟩ = true) :
    s.endOrigin i k = (s.originEnded i y k).setAwaits i .frameRecall := by
  simp only [State.endOrigin, h]
  exact if_pos (by rwa [Bool.or_eq_true])

theorem endOrigin_of_not_waits (hw : ¬ (s.queued ⟨.claim, .call y.cid⟩ = true ∨ s.queued ⟨.wait, .call y.cid⟩ = true)) :
    s.endOrigin i k = (s.originEnded i y k).freeCtx i := by
  simp only [State.endOrigin, h]
  exact if_neg (by rwa [Bool.or_eq_true])

theorem ctx_originEnded : (s.originEnded i y k).ctx i = some (y.cleared k) := by
  simp [State.originEnded, ctx_enterClearing k h]

theorem endSaid_originEnded : EndSaid i y k s (s.originEnded i y k) :=
  (endSaid_enterClearing h k).mono ((((Calm.refl _).cutPath i).recallCall y.cid).reckonOwner).posted

omit h in
theorem record_originEnded : (s.originEnded i y k).path.record i = none := by
  rw [State.originEnded, State.record_reckonOwner, recallCall_path]
  exact (Path.record_remove _ i i).trans (if_pos rfl)

omit h in
theorem recallOpen_originEnded {f : FrameKind} (hf : f ∈ [FrameKind.ring, .claim, .wait])
    (hq : s.queued ⟨f, .call y.cid⟩ = true) : (s.originEnded i y k).recallOpen ⟨f, .call y.cid⟩ := by
  have hopen := recallOpen_recallCall (s := (s.enterClearing i k true).cutPath i) hf
    ((queued_enterClearing s i k true _).trans hq)
  unfold State.recallOpen at hopen ⊢
  rwa [State.originEnded, reckonOwner_rif]

theorem ended_endOrigin (hs : y.side = .origin) :
    EndedByFrame i y k s (s.endOrigin i k) ∧ EndSaid i y k s (s.endOrigin i k) := by
  have hanswer : y.side ≠ .answer := by rw [hs]; decide
  by_cases hw : s.queued ⟨.claim, .call y.cid⟩ = true ∨ s.queued ⟨.wait, .call y.cid⟩ = true
  · rw [endOrigin_of_waits h k hw]
    refine ⟨⟨fun _ => ?_, fun _ => ⟨fun f hf hq => ?_, fun _ => ?_, fun hn => absurd hw hn⟩, fun hn => absurd hn hanswer⟩, ?_⟩
    · rw [State.setAwaits, State.modifyCtx_path]
      exact record_originEnded k
    · have := recallOpen_originEnded k hf hq (i := i)
      unfold State.recallOpen at this ⊢
      rwa [State.setAwaits, State.modifyCtx_rif]
    · refine ⟨{ y.cleared k with awaits := .frameRecall }, ?_, clearing_cleared k y _, rfl⟩
      rw [State.setAwaits, modifyCtx_live (ctx_originEnded h k), State.ctx_setCtx, if_pos rfl]
    · exact (endSaid_originEnded h k).mono (by rw [State.setAwaits, State.modifyCtx_sport])
  · rw [endOrigin_of_not_waits h k hw]
    refine ⟨⟨fun _ => ?_, fun _ => ⟨fun f hf hq => ?_, fun hn => absurd hn hw, fun _ => ctx_freeCtx _ i⟩,
      fun hn => absurd hn hanswer⟩, ?_⟩
    · rw [freeCtx_path]
      exact record_originEnded k
    · have := recallOpen_originEnded k hf hq (i := i)
      unfold State.recallOpen at this ⊢
      rwa [freeCtx_rif]
    · exact (endSaid_originEnded h k).mono ((Calm.refl _).freeCtx i).posted

theorem endAnswer_answering (hst : y.state = .answering) :
    s.endAnswer i k = (s.answerEnded i k).awaitAnswerRecall i y.cid := by
  simp only [State.endAnswer, h, hst, State.answerEnded]

theorem endAnswer_other (hst : y.state ≠ .answering) (hst' : y.state ≠ .clearing) :
    s.endAnswer i k = ((s.cutPath i).endNow i k).reckonOwner := by
  simp only [State.endAnswer, h]

theorem ctx_answerEnded : (s.answerEnded i k).ctx i = some { y.cleared k with superseded := true } := by
  rw [State.answerEnded, modifyCtx_live (ctx_enterClearing k h), State.ctx_setCtx, if_pos rfl]

omit h in
theorem queued_answerEnded (id : FrameId) : (s.answerEnded i k).queued id = s.queued id := by
  unfold State.queued
  rw [State.answerEnded, State.modifyCtx_rif, enterClearing_queue]

omit h in
theorem alerting_answerEnded : (s.answerEnded i k).oku.alerting[i] = false := by
  simp only [State.answerEnded, State.modifyCtx_oku, alerting_enterClearing]

theorem endSaid_answerEnded : EndSaid i y k s (s.answerEnded i k) :=
  (endSaid_enterClearing h k).mono (by rw [State.answerEnded, State.modifyCtx_sport])

theorem ended_endAnswer (hs : y.side = .answer) (hst : y.state ≠ .clearing) :
    EndedByFrame i y k s (s.endAnswer i k) ∧ EndSaid i y k s (s.endAnswer i k) := by
  have horigin : y.side ≠ .origin := by rw [hs]; decide
  by_cases ha : y.state = .answering
  · rw [endAnswer_answering h k ha, State.awaitAnswerRecall, queued_answerEnded]
    by_cases hq : s.queued ⟨.answer, .call y.cid⟩ = true
    · rw [if_pos hq]
      refine ⟨⟨fun hn => absurd ha hn, fun hn => absurd hn horigin, fun _ => ⟨fun _ => ⟨?_, fun _ => ⟨?_, ?_⟩,
        fun hn => absurd ⟨ha, hq⟩ hn⟩, fun hn => absurd (by simp [ha]) hn⟩⟩, ?_⟩
      · simp only [State.setAwaits, State.modifyCtx_oku, State.askRecall_oku, alerting_answerEnded]
      · have := recallOpen_askRecall ((queued_answerEnded (i := i) k ⟨.answer, .call y.cid⟩).trans hq)
        unfold State.recallOpen at this ⊢
        rwa [State.setAwaits, State.modifyCtx_rif]
      · refine ⟨{ { y.cleared k with superseded := true } with awaits := .answerRecall }, ?_,
          ⟨rfl, rfl, rfl, rfl, rfl, rfl, rfl, rfl, rfl, rfl⟩, rfl, rfl⟩
        rw [State.setAwaits, modifyCtx_live ((ctx_askRecall _ _ i).trans (ctx_answerEnded h k)), State.ctx_setCtx, if_pos rfl]
      · exact (endSaid_answerEnded h k).mono (by rw [State.setAwaits, State.modifyCtx_sport, State.askRecall_sport])
    · rw [if_neg hq]
      refine ⟨⟨fun hn => absurd ha hn, fun hn => absurd hn horigin, fun _ => ⟨fun _ => ⟨?_, fun hn => absurd hn.2 hq,
        fun _ => ctx_freeCtx _ i⟩, fun hn => absurd (by simp [ha]) hn⟩⟩, ?_⟩
      · simp only [freeCtx_oku, alerting_answerEnded]
      · exact (endSaid_answerEnded h k).mono ((Calm.refl _).freeCtx i).posted
  · rw [endAnswer_other h k ha hst]
    have hctx : (((s.cutPath i).endNow i k).reckonOwner).ctx i = none := by rw [ctx_reckonOwner, ctx_endNow]
    refine ⟨⟨fun _ => ?_, fun hn => absurd hn horigin, fun _ => ⟨fun _ => ⟨?_, fun hn => absurd hn.1 ha, fun _ => hctx⟩,
      fun _ => hctx⟩⟩, ?_⟩
    · rw [State.record_reckonOwner, endNow_path]
      exact (Path.record_remove _ i i).trans (if_pos rfl)
    · simp only [reckonOwner_oku, alerting_endNow]
    · exact ((endSaid_endNow (s := s.cutPath i) h k).from_sport rfl).mono ((Calm.refl _).reckonOwner).posted

end Endings

/-! ### The ending as the frames tell it -/

/-- A context outside CLEARING ended with a cause. -/
def State.endSide (t : State) (i : Ref) (y : Ctx) (k : Cause) : State :=
  match y.side with
  | .origin => t.endOrigin i k
  | .answer => t.endAnswer i k

/-- A context in CLEARING once another station has freed its call (R125, R145). -/
def State.closeSide (t : State) (i : Ref) (y : Ctx) : State :=
  match y.side with
  | .origin => t.makeFinal i
  | .answer => t.supersede i

/-- What a clearing context becomes once another station has freed its call. -/
def Ctx.closed (y : Ctx) : Ctx :=
  if y.side = .origin then { y with reversible := false }
  else if y.awaits = .answerRecall then { y with superseded := true } else y

/-- The cause with which a taken RELEASE or RECLAIM ends a context (R125, R144). -/
def endCause (kind : FrameKind) (y : Ctx) (k : Byte) : Cause :=
  if kind = .reclaim then Cause.reclaimed
  else if y.side = .answer ∧ (y.state = .alerting ∨ y.state = .answering) then .cancelled else peerCause k

theorem ended_endSide {t : State} {i : Ref} {y : Ctx} (h : t.ctx i = some y) (hst : y.state ≠ .clearing) (k : Cause) :
    EndedByFrame i y k t (t.endSide i y k) ∧ EndSaid i y k t (t.endSide i y k) := by
  unfold State.endSide
  cases hs : y.side with
  | origin => exact ended_endOrigin h k hs
  | answer => exact ended_endAnswer h k hs hst

theorem closeSide_eq {t : State} {i : Ref} {y : Ctx} (h : t.ctx i = some y) :
    t.closeSide i y = t.setCtx i (some y.closed) := by
  unfold State.closeSide Ctx.closed
  split
  · rename_i hs
    rw [if_pos hs]
    exact modifyCtx_live h _
  · rename_i hs
    rw [if_neg (by rw [hs]; decide)]
    exact modifyCtx_live h _

section Named

variable {s t : State} {x : Byte} {c : CallId} {k : Byte} {cmd : Instr} {kind : FrameKind} {cause : Option Byte} {i : Ref} {y : Ctx}

theorem releaseAt_heard (hst : y.state ≠ .clearing) : t.releaseAt i y false k = t.endSide i y (endCause .release y k) := by
  unfold State.endSide endCause
  cases hs : y.side with
  | origin => cases hx : y.state <;> simp_all [State.releaseAt]
  | answer => cases hx : y.state <;> simp_all [State.releaseAt]

theorem releaseAt_heard_clearing (hst : y.state = .clearing) : t.releaseAt i y false k = t.closeSide i y := by
  unfold State.closeSide
  cases hs : y.side with
  | origin => simp [State.releaseAt, hs, hst]
  | answer => simp [State.releaseAt, hs, hst]

theorem releaseAt_own_clearing (hst : y.state = .clearing) : t.releaseAt i y true k = t.freeCtx i := by
  cases hs : y.side with
  | origin => simp [State.releaseAt, hs, hst]
  | answer => simp [State.releaseAt, hs, hst]

theorem reclaimAt_live (hst : y.state ≠ .clearing) : t.reclaimAt i y = t.endSide i y (endCause .reclaim y k) := by
  unfold State.endSide endCause
  cases hs : y.side with
  | origin => cases hx : y.state <;> simp_all [State.reclaimAt]
  | answer => cases hx : y.state <;> simp_all [State.reclaimAt]

theorem reclaimAt_clearing (hst : y.state = .clearing) : t.reclaimAt i y = t.closeSide i y := by
  unfold State.closeSide
  cases hs : y.side with
  | origin => simp [State.reclaimAt, hs, hst]
  | answer => simp [State.reclaimAt, hs, hst]

variable (h : Frees s x c k cmd kind cause) (hown : kind = .release → x ≠ s.own) (hc : y.cid = c)
include h hown hc

/-- The report of a call freed by another station, or by a RECLAIM, ends the call's context (R125, R144). -/
theorem reportAt_named (hst : y.state ≠ .clearing) :
    State.reportAt (s.freedReport kind x c cause) t i y = t.endSide i y (endCause kind y k) := by
  rcases h with ⟨-, rfl, rfl⟩ | ⟨-, rfl, rfl, hh⟩
  · rw [reportAt_release hc, decide_eq_false (hown rfl)]
    exact releaseAt_heard hst
  · rw [reportAt_reclaim hc hh]
    exact reclaimAt_live hst

theorem reportAt_named_clearing (hst : y.state = .clearing) :
    State.reportAt (s.freedReport kind x c cause) t i y = t.closeSide i y := by
  rcases h with ⟨-, rfl, rfl⟩ | ⟨-, rfl, rfl, hh⟩
  · rw [reportAt_release hc, decide_eq_false (hown rfl)]
    exact releaseAt_heard_clearing hst
  · rw [reportAt_reclaim hc hh]
    exact reclaimAt_clearing hst

end Named

/-! ### An ending carried on -/

section Carried

variable {i : Ref} {y : Ctx} {k : Cause} {ks : FrameKind → Prop} {s a t u : State}

/-- An ending stands while the context is spared, and it is told from any state with the same frames queued for the call. -/
theorem EndedByFrame.carry (h : EndedByFrame i y k a t) (hu : Spares ks i t u)
    (hq : ∀ f ∈ [FrameKind.ring, .claim, .wait, .answer], a.queued ⟨f, .call y.cid⟩ = s.queued ⟨f, .call y.cid⟩) :
    EndedByFrame i y k s u := by
  obtain ⟨hrec, horigin, hanswer⟩ := h
  rw [EndedByFrame, hu.record, hu.ctx, ← hq .claim (by simp), ← hq .wait (by simp)]
  refine ⟨hrec, fun hs => ?_, fun hs => ?_⟩
  · obtain ⟨h1, h2, h3⟩ := horigin hs
    exact ⟨fun f hf hqf => hu.adds.recallOpen (h1 f hf ((hq f (List.mem_append_left [FrameKind.answer] hf :)).trans hqf)), h2, h3⟩
  · obtain ⟨h1, h2⟩ := hanswer hs
    refine ⟨fun hst => ?_, h2⟩
    obtain ⟨h3, h4, h5⟩ := h1 hst
    rw [SteppedBack, hu.alerting, hu.ctx, ← hq .answer (by simp)]
    exact ⟨h3, fun hr => ⟨hu.adds.recallOpen (h4 hr).1, (h4 hr).2⟩, h5⟩

end Carried

end Sys2Proof.Machine
end

section
/-! PROOFS. The taken frame in the queue, RELEASEs seen at one context, and the own RELEASE (R56, R77, R121, R158). -/

namespace Sys2Proof.Machine

/-! ### The queue at a taken frame -/

theorem any_eraseP_of_find? {α : Type} {p q : α → Bool} {l : List α} {e : α} (h : l.find? q = some e) (hp : p e = false) :
    (l.eraseP q).any p = l.any p := by
  obtain ⟨hq, pre, post, rfl, hpre⟩ := List.find?_eq_some_iff_append.mp h
  rw [List.eraseP_append_right _ (fun a ha => by simpa using hpre a ha), List.eraseP_cons_of_pos hq]
  simp [hp]

/-- An own frame's echo takes its own entry from the queue, and no other identity's (R56). -/
theorem queued_takingBase {s : State} {x : Byte} {f : Frame} (h : s.takesFrame x f) {id : FrameId} (hid : f.ident ≠ id) :
    (s.takingBase x f).queued id = s.queued id := by
  rcases h with h | h
  · rw [takingBase_of_ne h.2.2.1]
    rfl
  · obtain ⟨-, rfl, hc, -⟩ := h
    obtain ⟨e, he, rfl⟩ := Option.map_eq_some_iff.mp hc
    rw [takingBase_own]
    exact any_eraseP_of_find? he (decide_eq_false hid)

theorem mem_queue_takingBase {s : State} {x : Byte} {f : Frame} {e : Entry} (h : e ∈ (s.takingBase x f).rif.queue) :
    e ∈ s.rif.queue := by
  unfold State.takingBase at h
  split at h
  · exact List.mem_of_mem_eraseP h
  · exact h

theorem count_takingBase_le (s : State) (x : Byte) (f : Frame) (k : Category) :
    (s.takingBase x f).rif.count k ≤ s.rif.count k := by
  unfold State.takingBase
  split
  · exact List.eraseP_sublist.countP_le
  · exact le_refl _

/-! ### RELEASEs at one context -/

section SendRelease

variable (s : State) (i : Ref)

theorem ctx_setAwaits (w : Awaits) : (s.setAwaits i w).ctx i = (s.ctx i).map fun y => { y with awaits := w } := by
  rw [State.setAwaits, State.ctx_modifyCtx, if_pos rfl]

/-- A context asked for its RELEASE is freed, or as it was but for what it awaits (R121). -/
theorem ctx_sendRelease :
    (s.sendRelease i).ctx i = none ∨ ∃ w, (s.sendRelease i).ctx i = (s.ctx i).map fun y => { y with awaits := w } := by
  unfold State.sendRelease
  split
  · split
    · unfold State.queueRelease
      split
      · dsimp only
        split
        · exact .inr ⟨.release, by rw [ctx_setAwaits, ctx_queueFrame]⟩
        · exact .inl (ctx_freeCtx _ i)
      · rename_i h
        exact .inl h
    · split
      · exact .inr ⟨.ringFate, ctx_setAwaits s i _⟩
      · exact .inl (ctx_freeCtx s i)
  · rename_i h
    exact .inl h

theorem ctx_foldl_sendRelease (l : List Ref) : ∀ s : State, (l.foldl State.sendRelease s).ctx i = none
    ∨ ∃ f : Ctx → Ctx, (∀ y, (f y).cid = y.cid ∧ (f y).state = y.state) ∧ (l.foldl State.sendRelease s).ctx i = (s.ctx i).map f := by
  induction l with
  | nil => exact fun s => .inr ⟨id, fun _ => ⟨rfl, rfl⟩, (Option.map_id_apply).symm⟩
  | cons j l ih =>
    intro s
    have hstep : (s.sendRelease j).ctx i = none
        ∨ ∃ f : Ctx → Ctx, (∀ y, (f y).cid = y.cid ∧ (f y).state = y.state) ∧ (s.sendRelease j).ctx i = (s.ctx i).map f := by
      by_cases hij : i = j
      · subst hij
        exact (ctx_sendRelease s i).imp id fun ⟨w, hw⟩ =>
          ⟨fun y => { y with awaits := w }, fun _ => ⟨rfl, rfl⟩, hw⟩
      · exact .inr ⟨id, fun _ => ⟨rfl, rfl⟩, by
          rw [((Spares.refl i s).sendRelease (ks := fun k => k = .release) rfl hij).ctx, Option.map_id_apply]⟩
    rw [List.foldl_cons]
    rcases ih (s.sendRelease j) with h | ⟨g, hg, h⟩
    · exact .inl h
    · rcases hstep with h' | ⟨f, hf, h'⟩
      · rw [h'] at h
        exact .inl h
      · refine .inr ⟨g ∘ f, fun y => ?_, by rw [h, h', Option.map_map]⟩
        obtain ⟨h1, h2⟩ := hf y
        obtain ⟨k1, k2⟩ := hg (f y)
        exact ⟨k1.trans h1, k2.trans h2⟩

theorem count_queueFrame_le (f : Frame) (k : Category) : (s.queueFrame f).rif.count k ≤ s.rif.count k + 1 := by
  unfold State.queueFrame
  split
  · rw [Rif.count, List.countP_append, Rif.count]
    exact Nat.add_le_add_left List.countP_le_length _
  · exact Nat.le_succ _

theorem count_sendRelease_le (k : Category) : (s.sendRelease i).rif.count k ≤ s.rif.count k + 1 := by
  unfold State.sendRelease
  split
  · split
    · unfold State.queueRelease
      split
      · dsimp only
        split
        · rw [State.setAwaits, State.modifyCtx_rif]
          exact count_queueFrame_le s _ k
        · rw [freeCtx_rif, State.post_rif]
          exact Nat.le_succ _
      · exact Nat.le_succ _
    · split
      · rw [State.setAwaits, State.modifyCtx_rif]
        exact Nat.le_succ _
      · rw [freeCtx_rif]
        exact Nat.le_succ _
  · exact Nat.le_succ _

omit i in
theorem count_foldl_sendRelease_le (k : Category) (l : List Ref) : ∀ s : State,
    (l.foldl State.sendRelease s).rif.count k ≤ s.rif.count k + l.length := by
  induction l with
  | nil => exact fun s => le_refl _
  | cons j l ih =>
    intro s
    have h1 := ih (s.sendRelease j)
    have h2 := count_sendRelease_le s j k
    rw [List.foldl_cons, List.length_cons]
    omega

omit s i in
theorem calm_foldl_sendRelease (l : List Ref) : ∀ {a s : State}, Calm a s → Calm a (l.foldl State.sendRelease s) := by
  induction l with
  | nil => exact fun h => h
  | cons j l ih => exact fun h => ih (h.sendRelease j)

omit s in
/-- With room for one RELEASE of each context, one of the list sends its own (R157, R158). -/
theorem foldl_sendRelease_at {l : List Ref} {s : State} (hl : l.Nodup) (hi : i ∈ l) (hs : s.stc.state.sends = true)
    (hc : s.rif.count .call ≤ 4) {y : Ctx} (hy : s.ctx i = some y) (hann : y.announced = true ∨ y.side = .answer) :
    (l.foldl State.sendRelease s).ctx i = some { y with awaits := .release }
      ∧ (l.foldl State.sendRelease s).path.record i = s.path.record i
      ∧ Entry.fresh y.releaseFrame ∈ (l.foldl State.sendRelease s).rif.queue := by
  obtain ⟨pre, post, rfl⟩ := List.append_of_mem hi
  obtain ⟨-, hpost, hapart⟩ := List.nodup_append.mp hl
  have hlen : (pre ++ i :: post).length ≤ 4 := hl.length_le_card
  rw [List.length_append, List.length_cons] at hlen
  have hnot : i ∉ pre := fun hm => hapart i hm i List.mem_cons_self rfl
  have hbefore := spares_foldl_sendRelease pre s hnot
  have hcount := count_foldl_sendRelease_le .call pre s
  have hacc := accepts_release (s := pre.foldl State.sendRelease s) y
    (by rw [((calm_foldl_sendRelease pre (Calm.refl s)).state)]; exact hs) (by omega)
  have hsend := sendRelease_accepted (hbefore.ctx.trans hy) hann hacc
  have hafter := spares_foldl_sendRelease post ((pre.foldl State.sendRelease s).sendRelease i) (List.nodup_cons.mp hpost).1
  rw [List.foldl_append, List.foldl_cons]
  refine ⟨hafter.ctx.trans (by rw [hsend, State.ctx_setCtx, if_pos rfl]), hafter.record.trans (Eq.trans ?_ hbefore.record),
    hafter.adds.mem ?_⟩
  · rw [hsend, queueFrame_accepted hacc]
    rfl
  · rw [hsend, queueFrame_accepted hacc]
    exact List.mem_append_right _ (List.mem_singleton.mpr rfl)

end SendRelease

/-! ### The own RELEASE -/

/-- The LEAVE is queued where nothing holds the station back (R77). -/
theorem leaveCheck_queues {s : State} (hst : s.stc.state = .leaving) (hc : ∀ i, s.ctx i = none)
    (hj : s.kindQueued .join = false) (hl : s.kindQueued .leave = false) : Entry.fresh .leave ∈ s.leaveCheck.rif.queue := by
  have hcount : s.rif.count .stc = 0 := by
    refine List.countP_eq_zero.mpr fun e he hk => ?_
    have hk : frameCategory e.frame = .stc := of_decide_eq_true hk
    have hkind : e.frame.kind = .join ∨ e.frame.kind = .leave := by
      unfold frameCategory at hk
      cases h : e.frame.kind <;> simp_all
    rcases hkind with h | h
    · have := List.any_eq_false.mp hj e he
      simp [h] at this
    · have := List.any_eq_false.mp hl e he
      simp [h] at this
  have hacc : s.accepts .leave = true := by
    simp only [State.accepts, hst, Bool.and_eq_true, decide_eq_true_eq]
    exact ⟨rfl, by rw [show frameCategory Frame.leave = .stc from rfl, hcount]; decide⟩
  rw [State.leaveCheck, if_pos ⟨hst, liveCount_eq_zero_iff.mpr hc, by simp [hj], by simp [hl]⟩, queueFrame_accepted hacc]
  exact List.mem_append_right _ (List.mem_singleton.mpr rfl)

section OwnRelease

variable (a : State) (c : CallId) (k : Byte)

/-- A context that is free stays free at a freed call. -/
theorem freeCall_free {x : Byte} {kind : FrameKind} {cause : Option Byte} {j : Ref} (h : a.ctx j = none) :
    (a.freeCall kind x c cause).ctx j = none := by
  obtain ⟨b, hb, hafter⟩ := eachCtx_reportAt_around (a.freedReport kind x c cause) (a.freedPort c) j
  have hu : (a.freedPort c).ctx j = none := by
    rcases ctx_foldl_sendRelease j (a.freedMuting c) (a.blockFreed c) with h' | ⟨f, -, h'⟩
    · exact h'
    · exact h'.trans (by rw [ctx_blockFreed, h]; rfl)
  have hbj : b.ctx j = none := hb.ctx.trans hu
  rw [freeCall_eq_pass, ctx_reckonOwner, hafter.ctx, visit_free hbj, hbj]

/-- The own RELEASE frees its context in CLEARING (R123). -/
theorem releaseTaken_own_frees {i : Ref} {y : Ctx} (h : a.ctx i = some y) (hc : y.cid = c) (hst : y.state = .clearing) :
    (a.releaseTaken a.own c k).ctx i = none := by
  obtain ⟨b, hb, hafter⟩ := eachCtx_reportAt_around (a.freedReport .release a.own c (some k)) (a.freedPort c) i
  rw [State.releaseTaken, freeCall_eq_pass, ctx_reckonOwner, hafter.ctx]
  have hu : (a.freedPort c).ctx i = none ∨ ∃ z, (a.freedPort c).ctx i = some z ∧ z.cid = c ∧ z.state = .clearing := by
    rcases ctx_foldl_sendRelease i (a.freedMuting c) (a.blockFreed c) with h' | ⟨f, hf, h'⟩
    · exact .inl h'
    · exact .inr ⟨f y, h'.trans (by rw [ctx_blockFreed, h]; rfl), (hf y).1.trans hc, (hf y).2.trans hst⟩
  rcases hu with hu | ⟨z, hu, hzc, hzs⟩
  · have hbi := hb.ctx.trans hu
    rw [visit_free hbi, hbi]
  · rw [visit_live (hb.ctx.trans hu), reportAt_release hzc, decide_eq_true rfl, releaseAt_own_clearing hzs, ctx_freeCtx]

/-- A taken RELEASE queues RELEASEs alone before LEAVE is tested. -/
theorem adds_releaseTaken (x : Byte) : Adds (fun k => k = .release) a (a.releaseTaken x c k) := by
  rw [State.releaseTaken, freeCall_eq_pass]
  exact ((adds_freedPort a c).trans (adds_eachCtx (adds_reportAt _) _)).trans (Adds.of_rif (reckonOwner_rif _))

end OwnRelease

theorem Adds.kindQueued {ks : FrameKind → Prop} {a t : State} {k : FrameKind} (h : Adds ks a t) (hk : ¬ ks k) :
    t.kindQueued k = a.kindQueued k := by
  obtain ⟨fs, hq, hfs⟩ := h.queue
  have hnone : (fs.map Entry.fresh).any (fun e => decide (e.frame.kind = k)) = false := by
    refine List.any_eq_false.mpr fun e he heq => hk ?_
    obtain ⟨f, hf, rfl⟩ := List.mem_map.mp he
    have : f.kind = k := of_decide_eq_true heq
    rw [← this]
    exact hfs f hf
  rw [State.kindQueued, State.kindQueued, hq, List.any_append, hnone, Bool.or_false]

theorem kindQueued_takingBase {s : State} {x : Byte} {f : Frame} {k : FrameKind} (h : s.kindQueued k = false) :
    (s.takingBase x f).kindQueued k = false :=
  List.any_eq_false.mpr fun e he => List.any_eq_false.mp h e (mem_queue_takingBase he)

/-- The own RELEASE, taken (R77, R123). -/
theorem ownRelease_taken {s : State} {c : CallId} {k : Byte} {i : Ref} {y : Ctx} (he : s.echoes s.own (.release c k))
    (hi : s.ctx i = some y) (hc : y.cid = c) (hst : y.state = .clearing) :
    ∃ t, exec (.releaseTaken s.own c k) s = .next t ∧ t.ctx i = none ∧ SameFixtures s t
      ∧ (s.stc.state = .leaving → s.liveCount = 1 → s.kindQueued .join = false → s.kindQueued .leave = false →
        Entry.fresh .leave ∈ t.rif.queue) := by
  have hexec : exec (.releaseTaken s.own c k) s
      = .next ((s.takingBase s.own (.release c k)).releaseTaken s.own c k).leaveCheck :=
    congrArg _ (taking_of_takesFrame (.inr he) _ _)
  have hcalm := (freesCopy_releaseTaken (s.takingBase s.own (.release c k)) s.own c k).calm
  have hfree := releaseTaken_own_frees (s.takingBase s.own (.release c k)) c k ((ctx_takingBase s _ _ i).trans hi) hc hst
  rw [takingBase_own_eq] at hfree
  refine ⟨_, hexec, (ctx_leaveCheck _ i).trans hfree, sameFixtures_of_taken hcalm.leaveCheck, fun hl hone hj hlv => ?_⟩
  have hadds := adds_releaseTaken (s.takingBase s.own (.release c k)) c k s.own
  refine leaveCheck_queues (hcalm.state.trans (congrArg Stc.state (takingBase_stc s _ _) |>.trans hl)) (fun j => ?_)
    ((hadds.kindQueued (by decide)).trans (kindQueued_takingBase hj)) ((hadds.kindQueued (by decide)).trans (kindQueued_takingBase hlv))
  by_cases hji : j = i
  · rw [hji]; exact hfree
  · refine freeCall_free _ c ((ctx_takingBase s _ _ j).trans ?_)
    have hlive := liveCount_add_freeRefs s
    by_contra hsome
    have htwo := countP_add_le (p := fun r => decide (r = i)) (q := fun r => decide (r = j)) (r := fun r => (s.ctx r).isSome) refs
      (fun r h1 h2 => hji ((of_decide_eq_true h2).symm.trans (of_decide_eq_true h1)))
      (fun r h1 => by rw [of_decide_eq_true h1, hi]; rfl)
      (fun r h2 => by rw [of_decide_eq_true h2]; exact Option.isSome_iff_ne_none.mpr hsome)
    have hp : ∀ l : Ref, 0 < refs.countP fun r => decide (r = l) := fun l => List.countP_pos_iff.mpr ⟨l, mem_refs l, by simp⟩
    have h1 := hp i
    have h2 := hp j
    have hcount : s.liveCount = refs.countP fun r => (s.ctx r).isSome := rfl
    omega

end Sys2Proof.Machine
end

section
/-! PROOFS. Another station's RELEASE, or a RECLAIM that finds an item, at the call's own context (R12, R125, R144, R158). -/

namespace Sys2Proof.Machine

/-! ### Enables of a block that stay OFF -/

/-- A block's enables are OFF, and each record has that block or lies apart from it. -/
structure Path.OffIn (b : Block) (p : Path) : Prop where
  off : ∀ n, b.1 ≤ n → n < b.1 + b.2 → p.enable n = none
  apart : ∀ j r, p.record j = some r → r.block = b ∨ r.base + r.width ≤ b.1 ∨ b.1 + b.2 ≤ r.base

section OffIn

variable {b : Block} {p : Path}

theorem Path.OffIn.setContent (h : p.OffIn b) (i : Ref) (c : Content) : (p.setContent i c).OffIn b := by
  refine ⟨fun n h1 h2 => ?_, fun j r hr => h.apart j r (by simpa using hr)⟩
  cases hr : p.record i with
  | none => rw [Path.setContent_none hr]; exact h.off n h1 h2
  | some r =>
    rw [Path.enable_setContent hr]
    split
    · rename_i hl
      obtain ⟨m, e, hm1, hm2, he, -⟩ := (Path.lit_iff hr).mp hl.1
      rcases h.apart i r hr with rfl | happ
      · rw [h.off m hm1 hm2] at he
        cases he
      · omega
    · exact h.off n h1 h2

theorem Path.OffIn.changeOwner (h : p.OffIn b) (o : Option Ref) : (p.changeOwner o).OffIn b := by
  have hw : ∀ (q : Path) (o : Option Ref), q.OffIn b → (q.withOwner o).OffIn b := fun q o hq =>
    ⟨fun n h1 h2 => by rw [Path.enable_withOwner]; exact hq.off n h1 h2,
      fun j r hr => hq.apart j r (by simpa using hr)⟩
  have hstep : ∀ (q : Path) (c : Content) (o : Option Ref), q.OffIn b →
      (match o with | some i => q.setContent i c | none => q : Path).OffIn b := fun q c o hq => by
    cases o with
    | none => exact hq
    | some i => exact hq.setContent i c
  unfold Path.changeOwner
  exact hw _ _ (hstep _ _ _ (hstep _ _ _ h))

theorem Path.OffIn.remove (h : p.OffIn b) (i : Ref) : (p.remove i).OffIn b := by
  refine ⟨fun n h1 h2 => ?_, fun j r hr => ?_⟩
  · cases he : (p.remove i).enable n with
    | none => rfl
    | some e =>
      have := Path.enable_of_remove he
      rw [h.off n h1 h2] at this
      cases this
  · rw [Path.record_remove] at hr
    split at hr
    · cases hr
    · exact h.apart j r hr

theorem Path.OffIn.reckonOwner {s : State} (h : s.path.OffIn b) : s.reckonOwner.path.OffIn b := by
  rw [State.reckonOwner_path]
  split
  · exact h
  · exact h.changeOwner _

end OffIn

/-- An ending cuts a path at most, and moves the port (R125, R144, R154). -/
theorem offIn_endSide {t : State} {i : Ref} {y : Ctx} {b : Block} (hy : t.ctx i = some y) (hst : y.state ≠ .clearing)
    (h : t.path.OffIn b) (k : Cause) : (t.endSide i y k).path.OffIn b := by
  have horigin : (t.originEnded i y k).path.OffIn b := by
    refine Path.OffIn.reckonOwner ?_
    rw [recallCall_path]
    show ((t.enterClearing i k true).path.remove i).OffIn b
    rw [enterClearing_path]
    exact h.remove i
  unfold State.endSide
  cases y.side with
  | origin =>
    dsimp only
    by_cases hw : t.queued ⟨.claim, .call y.cid⟩ = true ∨ t.queued ⟨.wait, .call y.cid⟩ = true
    · rw [endOrigin_of_waits hy k hw, State.setAwaits, State.modifyCtx_path]
      exact horigin
    · rw [endOrigin_of_not_waits hy k hw, freeCtx_path]
      exact horigin
  | answer =>
    dsimp only
    by_cases ha : y.state = .answering
    · have hpath : (t.endAnswer i k).path = t.path := by
        rw [endAnswer_answering hy k ha, State.awaitAnswerRecall]
        split
        · simp [State.setAwaits, State.answerEnded]
        · simp [State.answerEnded]
      rw [hpath]
      exact h
    · rw [endAnswer_other hy k ha hst]
      refine Path.OffIn.reckonOwner ?_
      rw [endNow_path]
      exact h.remove i

/-! ### The call's context -/

section Named

variable {s t : State} {x : Byte} {c : CallId} {k : Byte} {cmd : Instr} {kind : FrameKind} {cause : Option Byte} {f : Frame}
  {i : Ref} {y : Ctx}

/-- A call freed by another station, or by a RECLAIM that finds an item: the taking, and the state after its conclusion. -/
structure Freeing (s : State) (x : Byte) (c : CallId) (k : Byte) (cmd : Instr) (kind : FrameKind) (cause : Option Byte) (f : Frame)
    (t : State) : Prop where
  ident : f.ident = ⟨kind, .call c⟩
  taken : s.takesFrame x f
  frees : Frees (s.takingBase x f) x c k cmd kind cause
  foreign : kind = .release → x ≠ s.own
  concludes : Concludes (((s.takingBase x f).freedPort c).eachCtx
    (State.reportAt ((s.takingBase x f).freedReport kind x c cause))) t

variable (h : Freeing s x c k cmd kind cause f t)
include h

theorem Freeing.foreign' : kind = .release → x ≠ (s.takingBase x f).own := fun hk => by
  rw [takingBase_own_eq]; exact h.foreign hk

/-- The frames that an ending looks at are queued before it as they were before the taking. -/
theorem Freeing.queued {a : State} (ha : Spares (fun k => k = .release) i ((s.takingBase x f).freedPort c) a) {g : FrameKind}
    (hg : g ∈ [FrameKind.ring, .claim, .wait, .answer]) (d : CallId) : a.queued ⟨g, .call d⟩ = s.queued ⟨g, .call d⟩ := by
  have hrel : g ≠ .release := by rintro rfl; simp at hg
  have hrec : g ≠ .reclaim := by rintro rfl; simp at hg
  have hkind : kind = .release ∨ kind = .reclaim := h.frees.imp (fun h => h.2.1) fun h => h.2.1
  rw [((adds_freedPort _ c).trans ha.adds).queued hrel, queued_takingBase h.taken]
  rw [h.ident]
  rintro heq
  obtain rfl := congrArg FrameId.kind heq
  exact hkind.elim hrel hrec

variable (hi : s.ctx i = some y) (hc : y.cid = c)
include hi hc

/-- The ended context (R125, R144). -/
theorem Freeing.ended (hmute : i ∉ (s.takingBase x f).freedMuting c) (hst : y.state ≠ .clearing) :
    EndedByFrame i y (endCause kind y k) s t := by
  obtain ⟨a, hbefore, hafter⟩ := eachCtx_reportAt_around ((s.takingBase x f).freedReport kind x c cause)
    ((s.takingBase x f).freedPort c) i
  have ha : a.ctx i = some y := hbefore.ctx.trans ((ctx_freedPort hmute).trans ((ctx_takingBase s x f i).trans hi))
  rw [visit_live ha, reportAt_named h.frees h.foreign' hc hst] at hafter
  have hend := (ended_endSide ha hst (endCause kind y k)).1.carry hafter fun g hg => h.queued hbefore hg y.cid
  exact hend.carry (h.concludes.spares i) fun _ _ => rfl

omit hi hc in
/-- The clearing context, as the pass comes to it (R125, R145). -/
theorem Freeing.closed {z : Ctx} (hz : ((s.takingBase x f).freedPort c).ctx i = some z) (hzc : z.cid = c)
    (hst : z.state = .clearing) :
    t.ctx i = some z.closed ∧ t.path.record i = ((s.takingBase x f).freedPort c).path.record i := by
  obtain ⟨a, hbefore, hafter⟩ := eachCtx_reportAt_around ((s.takingBase x f).freedReport kind x c cause)
    ((s.takingBase x f).freedPort c) i
  have ha : a.ctx i = some z := hbefore.ctx.trans hz
  rw [visit_live ha, reportAt_named_clearing h.frees h.foreign' hzc hst, closeSide_eq ha] at hafter
  rw [h.concludes.ctx, hafter.ctx, State.ctx_setCtx, if_pos rfl, h.concludes.record, hafter.record]
  exact ⟨rfl, hbefore.record⟩

/-- A clearing context whose path mutes on the freed block, with room for its RELEASE (R158). -/
theorem Freeing.muted (hmute : i ∈ (s.takingBase x f).freedMuting c) (hst : y.state = .clearing)
    (hann : y.announced = true ∨ y.side = .answer) (hcalls : s.rif.count .call ≤ 4) :
    t.path.record i = none ∧ Entry.fresh y.releaseFrame ∈ t.rif.queue
      ∧ t.ctx i = some ({ y with awaits := .release } : Ctx).closed := by
  have hy : ((s.takingBase x f).blockFreed c).ctx i = some y := (ctx_blockFreed i).trans ((ctx_takingBase s x f i).trans hi)
  have hsends : ((s.takingBase x f).blockFreed c).stc.state.sends = true := by
    rw [blockFreed_stc, takingBase_stc]
    rcases member_iff.mp (takesFrame_member h.taken) with hm | hm <;> rw [hm] <;> rfl
  have hcount : ((s.takingBase x f).blockFreed c).rif.count .call ≤ 4 := by
    rw [Rif.count, blockFreed_queue]
    exact (count_takingBase_le s x f .call).trans hcalls
  obtain ⟨h1, h2, h3⟩ := foldl_sendRelease_at i nodup_freedMuting hmute hsends hcount hy hann
  obtain ⟨hctx, hrec⟩ := h.closed h1 hc hst
  exact ⟨hrec.trans (h2.trans (record_blockFreed_muting hmute)),
    h.concludes.adds.mem ((adds_eachCtx (adds_reportAt _) _).mem h3), hctx⟩

omit hc in
/-- Where none waits and no path mutes on the freed block, the call's context alone is touched (R12). -/
theorem Freeing.alone (hone : ∀ j z, s.ctx j = some z → j ≠ i → z.cid ≠ c) (hwaits : s.smu.waits = [])
    (hmute : (s.takingBase x f).freedMuting c = []) :
    Concludes (State.reportAt ((s.takingBase x f).freedReport kind x c cause) ((s.takingBase x f).blockFreed c) i y) t := by
  have hport : (s.takingBase x f).freedPort c = (s.takingBase x f).blockFreed c := by rw [State.freedPort, hmute]; rfl
  have hgrants : ∀ d, ((s.takingBase x f).freedGrants c).find? (fun g => g.cid = d) = none := fun d => by
    refine List.find?_eq_none.mpr fun g hg => ?_
    obtain ⟨w, hw, -⟩ := freedGrants_waiting hg
    rw [takingBase_smu, hwaits] at hw
    cases hw
  have hctx : ∀ j, ((s.takingBase x f).blockFreed c).ctx j = s.ctx j := fun j => (ctx_blockFreed j).trans (ctx_takingBase s x f j)
  have hc' := h.concludes
  rw [hport] at hc'
  rwa [eachCtx_only (f := State.reportAt ((s.takingBase x f).freedReport kind x c cause)) ((hctx i).trans hi)
    (fun j z u hj hz => reportAt_ungranted (hone j z ((hctx j).symm.trans hz) hj) (hgrants z.cid))
    fun j hj => (spares_reportAt hj _ _ _).ctx] at hc'

end Named

/-! ### The second part -/

/-- The freed block's enables are OFF once it is cut, where no record overlaps it in part (R11). -/
theorem offIn_blockFreed {s : State} {c : CallId} {b : Block} (hb : s.smu.blockOf c = some b)
    (hrec : ∀ j r, s.path.record j = some r → r.block = b ∨ r.base + r.width ≤ b.1 ∨ b.1 + b.2 ≤ r.base) :
    (s.blockFreed c).path.OffIn b := by
  refine ⟨fun n h1 h2 => ?_, fun j r hr => hrec j r ?_⟩
  · cases he : (s.blockFreed c).path.enable n with
    | none => rfl
    | some e => exact absurd ⟨h1, h2⟩ ((enable_blockFreed he).2 b hb)
  · rw [record_blockFreed] at hr
    split at hr
    · cases hr
    · exact hr

theorem Freeing.off {s t : State} {x : Byte} {c : CallId} {k : Byte} {cmd : Instr} {kind : FrameKind} {cause : Option Byte}
    {f : Frame} {i : Ref} {y : Ctx} (h : Freeing s x c k cmd kind cause f t) (hi : s.ctx i = some y) (hc : y.cid = c)
    (hconc : Concludes (State.reportAt ((s.takingBase x f).freedReport kind x c cause) ((s.takingBase x f).blockFreed c) i y) t)
    {b : Block} (hb : s.smu.blockOf c = some b)
    (hrec : ∀ j r, s.path.record j = some r → r.block = b ∨ r.base + r.width ≤ b.1 ∨ b.1 + b.2 ≤ r.base) : t.path.OffIn b := by
  have hoff : ((s.takingBase x f).blockFreed c).path.OffIn b := offIn_blockFreed (by rwa [takingBase_smu]) (by simpa using hrec)
  have hy : ((s.takingBase x f).blockFreed c).ctx i = some y := (ctx_blockFreed i).trans ((ctx_takingBase s x f i).trans hi)
  rw [hconc.path]
  refine Path.OffIn.reckonOwner ?_
  by_cases hst : y.state = .clearing
  · rw [reportAt_named_clearing h.frees h.foreign' hc hst, closeSide_eq hy]
    exact hoff
  · rw [reportAt_named h.frees h.foreign' hc hst]
    exact offIn_endSide hy hst hoff _

/-- Without an item a RECLAIM changes no context (R12). -/
theorem reclaim_idle {s : State} {x : Byte} {c : CallId} (h : s.takesFrame x (.reclaim c)) (hh : s.smu.has c = false) :
    ∃ t, exec (.reclaimTaken x c) s = .next t ∧ Concludes (s.takingBase x (.reclaim c)) t := by
  have hexec : exec (.reclaimTaken x c) s
      = .next ((s.takingBase x (.reclaim c)).reclaimTaken x c).leaveCheck := congrArg _ (taking_of_takesFrame h _ _)
  refine ⟨_, hexec, ?_⟩
  rw [reclaimTaken_idle (by rwa [takingBase_smu])]
  split
  · exact (concludes_reckonOwner _).nextOverdue.leaveCheck
  · exact (concludes_reckonOwner _).leaveCheck

/-- A freed call as the second part of the obligation meets it: the frame heard, or a RECLAIM taken. -/
theorem freeing_of_foreign {s : State} {x : Byte} {c : CallId} {k : Byte} {cmd : Instr}
    (h : (cmd = .releaseTaken x c k ∧ s.hears x (.release c k)) ∨ (cmd = .reclaimTaken x c ∧ s.takesFrame x (.reclaim c)))
    (hfree : cmd = .releaseTaken x c k ∨ s.smu.has c = true) :
    ∃ kind cause f t, exec cmd s = .next t ∧ Freeing s x c k cmd kind cause f t := by
  have hcall : FreesCall s x c k cmd := h.imp (fun h => ⟨h.1, .inl h.2⟩) id
  obtain ⟨f, kind, cause, t, hid, htake, hF, hexec, hconc⟩ := freesCall_passes hcall hfree
  refine ⟨kind, cause, f, t, hexec, hid, htake, hF, fun hk => ?_, hconc⟩
  rcases hF with ⟨rfl, -⟩ | ⟨-, rfl, -⟩
  · exact (h.resolve_right fun h => by simp at h).2.2.2.1
  · cases hk

end Sys2Proof.Machine
end

section
/-! PROOFS. The copy after a freed call, and the grants behind it: what is held once, by whom, and trimmed how (R1, R28, R30). -/

namespace Sys2Proof.Machine

/-! ### The scan -/

/-- A placed block is free (R4). -/
theorem blockFree_of_placement {hs : List Hold} {w : Nat} {p : Block} (h : placement hs w = some p) :
    blockFree hs p.1 p.2 = true := by
  obtain ⟨k, -, -, hlow, -⟩ := placement_eq_some h
  obtain ⟨b, hb, rfl⟩ := Option.map_eq_some_iff.mp hlow
  exact (List.find?_some hb :)

/-- A hold on a free block leaves no channel held twice (R1). -/
theorem heldOnce_insertHold {h : Hold} {m : Smu} (hm : m.HeldOnce) (hfree : blockFree m.holds h.base h.width = true)
    (ws : List WaitEntry) : Smu.HeldOnce ⟨insertHold h m.holds, ws⟩ := by
  have hnew : ∀ a ∈ m.holds, ∀ n, h.base ≤ n → n < h.base + h.width → a.base ≤ n → n < a.base + a.width → False :=
    fun a ha n h1 h2 h3 h4 => by
      have hcover := channelFree_iff.mp (blockFree_iff.mp hfree n h1 h2) a ha
      rw [Hold.covers_iff.mpr ⟨h3, h4⟩] at hcover
      cases hcover
  intro a ha b hb n h1 h2 h3 h4
  rcases mem_insertHold.mp ha with hah | ham
  · rcases mem_insertHold.mp hb with hbh | hbm
    · rw [hah, hbh]
    · subst hah
      exact (hnew b hbm n h1 h2 h3 h4).elim
  · rcases mem_insertHold.mp hb with hbh | hbm
    · subst hbh
      exact (hnew a ham n h3 h4 h1 h2).elim
    · exact hm a ham b hbm n h1 h2 h3 h4

theorem heldOnce_scanFrom {mk : CallId → Block → Hold} (hmk : ∀ c b, ((mk c b).base, (mk c b).width) = b) (ws : List WaitEntry) :
    ∀ m : Smu, m.HeldOnce → Smu.HeldOnce ⟨(scanFrom mk m.holds ws).holds, (scanFrom mk m.holds ws).waits⟩ := by
  induction ws with
  | nil => exact fun m hm => hm
  | cons w ws ih =>
    intro m hm
    cases hp : placement m.holds w.wanted with
    | none => rw [scanFrom_stop hp]; exact hm
    | some b =>
      rw [scanFrom_grant hp]
      have hfree := blockFree_of_placement hp
      rw [← hmk w.cid b] at hfree
      exact ih ⟨insertHold (mk w.cid b) m.holds, []⟩ (heldOnce_insertHold hm hfree [])

/-- A grant is an entry's, trimmed where it is narrower than the entry wants (R28, R30). -/
theorem scanFrom_grants_entry {mk : CallId → Block → Hold} (ws : List WaitEntry) : ∀ hs : List Hold,
    ∀ g ∈ (scanFrom mk hs ws).grants, ∃ w ∈ ws, w.cid = g.cid ∧ g.trimmed = decide (g.block.2 < w.wanted) := by
  induction ws with
  | nil => simp
  | cons w ws ih =>
    intro hs g hg
    cases hp : placement hs w.wanted with
    | none => simp [scanFrom_stop hp] at hg
    | some b =>
      rw [scanFrom_grant hp] at hg
      rcases List.mem_cons.mp hg with rfl | hg
      · exact ⟨w, List.mem_cons_self, rfl, rfl⟩
      · obtain ⟨v, hv, h⟩ := ih _ g hg
        exact ⟨v, List.mem_cons_of_mem _ hv, h⟩

/-! ### Items of one call -/

section SlotLaw

variable {m : Smu} (hl : SlotLaw m)
include hl

theorem SlotLaw.holdOf_of_mem {h : Hold} (hh : h ∈ m.holds) : m.holdOf h.cid = some h := by
  obtain ⟨k, hk⟩ := Option.isSome_iff_exists.mp (holdOf_isSome_iff.mpr ⟨h, hh, rfl⟩)
  obtain ⟨hmem, hcid⟩ := holdOf_some hk
  rw [hk, List.inj_on_of_nodup_map (List.nodup_append.mp hl.2.2.1).1 hmem hh hcid]

end SlotLaw

/-! ### The freed copy -/

section FreedCopy

variable {s : State} {c : CallId} (hl : SlotLaw s.smu)
include hl

theorem heldOnce_freedCopy : (s.freedCopy c).HeldOnce := by
  cases hc : s.smu.has c with
  | false => rw [freedCopy_of_not_has hc]; exact hl.heldOnce
  | true =>
    rw [freedCopy_of_has hc]
    refine heldOnce_scanFrom (fun _ _ => rfl) _ (s.removeItem c).smu fun a ha b hb => ?_
    exact hl.heldOnce a (List.mem_of_mem_filter ha) b (List.mem_of_mem_filter hb)

omit hl in
theorem freedGrants_entry {g : NewHold} (hg : g ∈ s.freedGrants c) :
    ∃ w ∈ s.smu.waits, w.cid = g.cid ∧ w.cid ≠ c ∧ g.trimmed = decide (g.block.2 < w.wanted) := by
  cases h : s.smu.has c with
  | false => simp [State.freedGrants, h] at hg
  | true =>
    rw [freedGrants_of_has h] at hg
    obtain ⟨w, hw, hcid, htrim⟩ := scanFrom_grants_entry _ _ g hg
    obtain ⟨h1, h2⟩ := mem_removeItem_waits.mp hw
    exact ⟨w, h1, hcid, h2, htrim⟩

/-- No call is granted twice (R1, R30). -/
theorem nodup_freedGrants : ((s.freedGrants c).map NewHold.cid).Nodup := by
  cases h : s.smu.has c with
  | false => simp [State.freedGrants, h]
  | true =>
    rw [freedGrants_of_has h]
    obtain ⟨done, hdone, hcids⟩ := scanFrom_grants_head (mk := s.newHold) (s.removeItem c).smu.waits (s.removeItem c).smu.holds
    rw [hcids]
    have hnd : ((s.removeItem c).smu.waits.map WaitEntry.cid).Nodup :=
      (List.filter_sublist.map WaitEntry.cid).nodup (List.nodup_append.mp hl.2.2.1).2.1
    rw [hdone, List.map_append] at hnd
    exact (List.nodup_append.mp hnd).1

theorem freedGrants_unique {g n : NewHold} (hg : g ∈ s.freedGrants c) (hn : n ∈ s.freedGrants c) (h : g.cid = n.cid) : g = n :=
  List.inj_on_of_nodup_map (nodup_freedGrants hl) hg hn h

/-- A granted call holds the block granted (R30). -/
theorem holdOf_freedCopy_of_grant {g : NewHold} (hg : g ∈ s.freedGrants c) :
    (s.freedCopy c).holdOf g.cid = some (s.newHold g.cid g.block) := by
  obtain ⟨h, hh⟩ := Option.isSome_iff_exists.mp
    (holdOf_isSome_iff.mpr ⟨_, mem_freedCopy_holds.mpr (.inr ⟨g, hg, rfl⟩), rfl⟩)
  obtain ⟨hmem, hcid⟩ := holdOf_some hh
  rcases mem_freedCopy_holds.mp hmem with ⟨hold, -⟩ | ⟨n, hn, rfl⟩
  · obtain ⟨w, hw, hwg, -⟩ := freedGrants_entry hg
    exact absurd (hcid.trans hwg.symm) (hl.hold_wait hold hw)
  · rw [freedGrants_unique hl hg hn hcid.symm]
    rw [freedGrants_unique hl hg hn hcid.symm] at hh
    exact hh

/-- Another call keeps its hold (R11). -/
theorem holdOf_freedCopy_of_ne {k : Hold} {d : CallId} (hd : d ≠ c) (hk : s.smu.holdOf d = some k) :
    (s.freedCopy c).holdOf d = some k := by
  obtain ⟨hkm, rfl⟩ := holdOf_some hk
  obtain ⟨h, hh⟩ := Option.isSome_iff_exists.mp
    (holdOf_isSome_iff.mpr ⟨k, mem_freedCopy_holds.mpr (.inl ⟨hkm, hd⟩), rfl⟩)
  obtain ⟨hmem, hcid⟩ := holdOf_some hh
  rcases mem_freedCopy_holds.mp hmem with ⟨hold, -⟩ | ⟨n, hn, rfl⟩
  · rw [hh, ← hl.holdOf_of_mem hold, hcid, hk]
  · obtain ⟨w, hw, hwn, -⟩ := freedGrants_entry hn
    exact absurd (hwn.trans hcid).symm (hl.hold_wait hkm hw)

/-- A call that waited and holds once another is freed was granted what it holds (R30). -/
theorem granted_of_waiting {d : CallId} {e : WaitEntry} {g : Hold} (he : s.smu.waitOf d = some e)
    (hg : (s.freedCopy c).holdOf d = some g) :
    ∃ n, (s.freedGrants c).find? (fun n => n.cid = d) = some n ∧ n ∈ s.freedGrants c ∧ n.cid = d
      ∧ n.block = (g.base, g.width) ∧ n.trimmed = decide (g.width < e.wanted) := by
  obtain ⟨hem, rfl⟩ := waitOf_some he
  obtain ⟨hmem, hcid⟩ := holdOf_some hg
  rcases mem_freedCopy_holds.mp hmem with ⟨hold, -⟩ | ⟨n, hn, rfl⟩
  · exact absurd hcid (hl.hold_wait hold hem)
  · have hncid : n.cid = e.cid := hcid
    obtain ⟨w, hw, hwn, -, htrim⟩ := freedGrants_entry hn
    have hwe : w = e := List.inj_on_of_nodup_map (List.nodup_append.mp hl.2.2.1).2.1 hw hem (hwn.trans hncid)
    subst hwe
    refine ⟨n, ?_, hn, hncid, rfl, htrim⟩
    obtain ⟨n', hn'⟩ := Option.isSome_iff_exists.mp
      (List.find?_isSome.mpr ⟨n, hn, decide_eq_true hncid⟩ :
        ((s.freedGrants c).find? fun n => n.cid = w.cid).isSome = true)
    have hcid' : n'.cid = w.cid := of_decide_eq_true (List.find?_some hn' :)
    rw [hn', freedGrants_unique hl (List.mem_of_find?_eq_some hn') hn (hcid'.trans hncid.symm)]

end FreedCopy

/-- With no item of the freed call nothing waiting holds (R1). -/
theorem not_held_of_waiting {m : Smu} (hl : SlotLaw m) {d : CallId} {e : WaitEntry} {g : Hold} (he : m.waitOf d = some e)
    (hg : m.holdOf d = some g) : False := by
  obtain ⟨hem, rfl⟩ := waitOf_some he
  obtain ⟨hgm, hcid⟩ := holdOf_some hg
  exact hl.hold_wait hgm hem hcid

end Sys2Proof.Machine
end

section
/-! PROOFS. Enables that stay backed while a freed call's contexts end, and the state in which the pass begins (R11, R147, R158). -/

namespace Sys2Proof.Machine

/-! ### Contexts whose call holds nothing -/

/-- A context whose call holds nothing is dark. -/
theorem State.EnablesBacked.dark_of_not_held {t : State} (hb : t.EnablesBacked) {i : Ref} {y : Ctx} (hy : t.ctx i = some y)
    (hh : t.smu.holdOf y.cid = none) : t.path.Dark i := by
  rintro n e he rfl
  obtain ⟨r, x, k, -, -, -, hx, hk, -⟩ := hb n e he
  obtain rfl := Option.some.inj (hx.symm.trans hy)
  rw [hh] at hk
  cases hk

theorem State.EnablesBacked.freeCtx {t : State} (hb : t.EnablesBacked) {i : Ref} (hd : t.path.Dark i) :
    (t.freeCtx i).EnablesBacked :=
  hb.of_dark (freeCtx_path t i) (freeCtx_smu t i) hd fun _ hj =>
    ((Spares.refl (ks := fun _ => False) _ t).freeCtx hj).ctx

theorem State.EnablesBacked.modifyCtx {t : State} (hb : t.EnablesBacked) {i : Ref} {y : Ctx} (hy : t.ctx i = some y) {f : Ctx → Ctx}
    (hf : (f y).cid = y.cid) : (t.modifyCtx i f).EnablesBacked := (stepAt_modifyCtx hb hy hf).backed

theorem State.EnablesBacked.askRecall {t : State} (hb : t.EnablesBacked) (id : FrameId) : (t.askRecall id).EnablesBacked :=
  hb.congr (State.askRecall_path t id) (ctx_askRecall t id) (State.askRecall_smu t id)

/-- A context freed, or in CLEARING with the same call. -/
def ClosedAt (i : Ref) (d : CallId) (t : State) : Prop :=
  t.ctx i = none ∨ ∃ z, t.ctx i = some z ∧ z.cid = d ∧ z.state = .clearing

theorem ClosedAt.outside {i : Ref} {d : CallId} {t : State} (h : ClosedAt i d t) : t.outsideClearing i = false := by
  rcases h with h | ⟨z, h, -, hst⟩
  · simp [State.outsideClearing, h]
  · simp [State.outsideClearing, h, hst]

theorem ClosedAt.cid {i : Ref} {d : CallId} {t : State} (h : ClosedAt i d t) {z : Ctx} (hz : t.ctx i = some z) : z.cid = d := by
  rcases h with h | ⟨w, h, hw, -⟩
  · rw [hz] at h
    cases h
  · obtain rfl := Option.some.inj (hz.symm.trans h)
    exact hw

theorem closedAt_setAwaits {i : Ref} {d : CallId} {t : State} {z : Ctx} (hz : t.ctx i = some z) (hd : z.cid = d)
    (hst : z.state = .clearing) (w : Awaits) : ClosedAt i d (t.setAwaits i w) :=
  .inr ⟨{ z with awaits := w }, by rw [ctx_setAwaits, hz, Option.map_some], hd, hst⟩

section Ending

variable {t : State} {i : Ref} {y : Ctx} (hy : t.ctx i = some y) (hb : t.EnablesBacked) (hd : t.path.Dark i) (k : Cause)
include hy hb hd

theorem backed_originEnded : (t.originEnded i y k).EnablesBacked ∧ (t.originEnded i y k).path.Dark i := by
  have hclear := clearedDark_enterClearing hy hb hd k
  have hcut := hclear.backed.cutPath i
  have hrecall : (((t.enterClearing i k true).cutPath i).recallCall y.cid).EnablesBacked :=
    hcut.1.congr (recallCall_path _ _) (ctx_recallCall _ _) (recallCall_smu _ _)
  exact ⟨hrecall.reckonOwner, dark_reckonOwner (by rw [recallCall_path]; exact hcut.2)⟩

theorem endOrigin_closes : (t.endOrigin i k).EnablesBacked ∧ ClosedAt i y.cid (t.endOrigin i k) := by
  obtain ⟨hback, hdark⟩ := backed_originEnded hy hb hd k
  have hctx := ctx_originEnded hy k
  by_cases hw : t.queued ⟨.claim, .call y.cid⟩ = true ∨ t.queued ⟨.wait, .call y.cid⟩ = true
  · rw [endOrigin_of_waits hy k hw]
    exact ⟨hback.modifyCtx hctx rfl, closedAt_setAwaits hctx rfl rfl _⟩
  · rw [endOrigin_of_not_waits hy k hw]
    exact ⟨hback.freeCtx hdark, .inl (ctx_freeCtx _ i)⟩

theorem endAnswer_closes (hst : y.state ≠ .clearing) :
    (t.endAnswer i k).EnablesBacked ∧ ClosedAt i y.cid (t.endAnswer i k) := by
  by_cases ha : y.state = .answering
  · have hctx := ctx_answerEnded hy k
    have hback : (t.answerEnded i k).EnablesBacked :=
      (clearedDark_enterClearing hy hb hd k).backed.modifyCtx (ctx_enterClearing k hy) rfl
    have hdark : (t.answerEnded i k).path.Dark i := by
      rw [State.answerEnded, State.modifyCtx_path, enterClearing_path]
      exact hd
    rw [endAnswer_answering hy k ha, State.awaitAnswerRecall]
    split
    · have hctx' := (ctx_askRecall (t.answerEnded i k) ⟨.answer, .call y.cid⟩ i).trans hctx
      exact ⟨(hback.askRecall _).modifyCtx hctx' rfl, closedAt_setAwaits hctx' rfl rfl _⟩
    · exact ⟨hback.freeCtx hdark, .inl (ctx_freeCtx _ i)⟩
  · rw [endAnswer_other hy k ha hst]
    obtain ⟨hcut, hdark⟩ := hb.cutPath i
    have hend : ((t.cutPath i).endNow i k).EnablesBacked :=
      hcut.of_dark (endNow_path _ i k) (endNow_smu _ i k) hdark fun j hj =>
        ((Spares.refl (ks := fun _ => False) j (t.cutPath i)).endNow hj k).ctx
    exact ⟨hend.reckonOwner, .inl (by rw [ctx_reckonOwner, ctx_endNow])⟩

/-- An ending closes its context, and leaves the enables backed. -/
theorem endSide_closes (hst : y.state ≠ .clearing) :
    (t.endSide i y k).EnablesBacked ∧ ClosedAt i y.cid (t.endSide i y k) := by
  unfold State.endSide
  split
  · exact endOrigin_closes hy hb hd k
  · exact endAnswer_closes hy hb hd k hst

omit hd in
theorem closeSide_closes (hst : y.state = .clearing) : (t.closeSide i y).EnablesBacked ∧ ClosedAt i y.cid (t.closeSide i y) := by
  have hclosed : y.closed.cid = y.cid ∧ y.closed.state = y.state := by
    unfold Ctx.closed
    split
    · exact ⟨rfl, rfl⟩
    · split <;> exact ⟨rfl, rfl⟩
  have heq : t.modifyCtx i (fun _ => y.closed) = t.closeSide i y :=
    (modifyCtx_live hy fun _ => y.closed).trans (closeSide_eq hy).symm
  refine ⟨heq ▸ hb.modifyCtx hy (f := fun _ => y.closed) hclosed.1, .inr ⟨y.closed, ?_, hclosed.1, hclosed.2.trans hst⟩⟩
  rw [closeSide_eq hy, State.ctx_setCtx, if_pos rfl]

end Ending

/-! ### The state in which the pass begins -/

theorem sendRelease_path (s : State) (i : Ref) : (s.sendRelease i).path = s.path := by
  unfold State.sendRelease
  split
  · split
    · unfold State.queueRelease
      split
      · dsimp only
        split
        · rw [State.setAwaits, State.modifyCtx_path, State.queueFrame_path]
        · rw [freeCtx_path, State.post_path]
      · rfl
    · split
      · rw [State.setAwaits, State.modifyCtx_path]
      · exact freeCtx_path s i
  · rfl

/-- RELEASEs of dark contexts leave the enables backed. -/
theorem backed_foldl_sendRelease (l : List Ref) : ∀ s : State, s.EnablesBacked → (∀ j ∈ l, s.path.Dark j) →
    (l.foldl State.sendRelease s).EnablesBacked ∧ (l.foldl State.sendRelease s).path = s.path := by
  induction l with
  | nil => exact fun s hb _ => ⟨hb, rfl⟩
  | cons i l ih =>
    intro s hb hd
    have hpath := sendRelease_path s i
    have hstep : (s.sendRelease i).EnablesBacked :=
      hb.of_dark hpath ((Calm.refl s).sendRelease i).smu (hd i List.mem_cons_self) fun j hj =>
        ((Spares.refl j s).sendRelease (ks := fun k => k = .release) rfl hj).ctx
    obtain ⟨h1, h2⟩ := ih _ hstep fun j hj => by rw [hpath]; exact hd j (List.mem_cons_of_mem _ hj)
    exact ⟨h1, h2.trans hpath⟩

section FreedPort

variable {s : State} {c : CallId}

/-- A context lit on the freed block has the freed call (R1, R147). -/
theorem cid_of_litOn (hb : s.EnablesBacked) (hl : SlotLaw s.smu) {b : Block} (hbc : s.smu.blockOf c = some b) {j : Ref} {y : Ctx}
    (hy : s.ctx j = some y) (hlit : s.path.litOn b j = true) : y.cid = c := by
  obtain ⟨r, hr, hrb, hj⟩ := Path.litOn_iff.mp hlit
  obtain ⟨n, e, h1, h2, he, rfl⟩ := (Path.lit_iff hr).mp hj
  obtain ⟨r', x, k, hr', -, -, hx, hk, hkb⟩ := hb n e he
  obtain rfl := Option.some.inj (hr.symm.trans hr')
  obtain rfl := Option.some.inj (hx.symm.trans hy)
  obtain ⟨k', hk', hkb'⟩ := Smu.blockOf_eq_some_iff.mp hbc
  have hbase : k.base = r.base := congrArg Prod.fst hkb
  have hwidth : k.width = r.width := congrArg Prod.snd hkb
  have hbase' : r.base = k'.base := congrArg Prod.fst (hrb.trans hkb')
  have hwidth' : r.width = k'.width := congrArg Prod.snd (hrb.trans hkb')
  have heq : k = k' := hl.heldOnce k (holdOf_some hk).1 k' (holdOf_some hk').1 n (by omega) (by omega) (by omega) (by omega)
  rw [← (holdOf_some hk).2, heq, (holdOf_some hk').2]

theorem mem_freedMuting_cid (hb : s.EnablesBacked) (hl : SlotLaw s.smu) {j : Ref} {y : Ctx} (hy : s.ctx j = some y)
    (hj : j ∈ s.freedMuting c) : y.cid = c := by
  obtain ⟨r, hr, -, hlit, k, hk, hrb⟩ := mem_freedMuting.mp hj
  exact cid_of_litOn hb hl (Smu.blockOf_eq_some_iff.mpr ⟨k, hk, rfl⟩) hy (Path.litOn_iff.mpr ⟨r, hr, hrb, hlit⟩)

/-- What is ON once the freed block is cut is backed by the copy as freed (R11, R147). -/
theorem enablesBacked_blockFreed (hb : s.EnablesBacked) (hl : SlotLaw s.smu) : (s.blockFreed c).EnablesBacked := by
  intro n e he
  obtain ⟨hon, hout⟩ := enable_blockFreed he
  obtain ⟨r, x, k, hr, h1, h2, hx, hk, hkb⟩ := hb n e hon
  have hne : x.cid ≠ c := by
    rintro rfl
    have hblock := hout _ (Smu.blockOf_eq_some_iff.mpr ⟨k, hk, rfl⟩)
    rw [hkb] at hblock
    exact hblock ⟨h1, h2⟩
  refine ⟨r, x, k, ?_, h1, h2, (ctx_blockFreed _).trans hx, by rw [blockFreed_smu]; exact holdOf_freedCopy_of_ne hl hne hk, hkb⟩
  rw [record_blockFreed, if_neg]
  · exact hr
  · rintro ⟨b, hbc, hlit⟩
    exact hne (cid_of_litOn hb hl hbc hx hlit)

/-- The state in which the pass over the contexts begins. -/
structure PortFreed (s : State) (c : CallId) (u : State) : Prop where
  backed : u.EnablesBacked
  smu : u.smu = s.freedCopy c
  kept : ∀ i, i ∉ s.freedMuting c → u.ctx i = s.ctx i
  muting : ∀ i y, s.ctx i = some y → i ∈ s.freedMuting c → y.cid = c
  same : ∀ i y, u.ctx i = some y → ∃ z, s.ctx i = some z ∧ z.cid = y.cid ∧ z.state = y.state
  bare : ∀ i, s.path.record i = none → u.path.record i = none
  adds : Adds (fun k => k = .release) s u
  state : u.stc.state = s.stc.state
  config : u.sport.config = s.sport.config

theorem portFreed (hb : s.EnablesBacked) (hl : SlotLaw s.smu) : PortFreed s c (s.freedPort c) := by
  obtain ⟨hback, hpath⟩ := backed_foldl_sendRelease (s.freedMuting c) (s.blockFreed c) (enablesBacked_blockFreed hb hl) fun j hj =>
    (enablesBacked_blockFreed hb hl).dark_of_record (record_blockFreed_muting hj)
  have hcalm : Calm (s.blockFreed c) (s.freedPort c) := calm_foldl_sendRelease _ (Calm.refl _)
  refine ⟨hback, hcalm.smu.trans blockFreed_smu, fun i hi => ctx_freedPort hi, fun i y hy hi => mem_freedMuting_cid hb hl hy hi,
    fun i y hy => ?_, fun i hi => ?_, adds_freedPort s c, hcalm.state.trans (congrArg Stc.state blockFreed_stc),
    hcalm.config.trans (by rw [blockFreed_sport])⟩
  · rcases ctx_foldl_sendRelease i (s.freedMuting c) (s.blockFreed c) with hnone | ⟨f, hf, hmap⟩
    · exact absurd (hy.symm.trans hnone) (by simp)
    · obtain ⟨z, hz, rfl⟩ := Option.map_eq_some_iff.mp (hmap.symm.trans hy)
      exact ⟨z, (ctx_blockFreed i).symm.trans hz, (hf z).1.symm, (hf z).2.symm⟩
  · show (List.foldl State.sendRelease (s.blockFreed c) (s.freedMuting c)).path.record i = none
    rw [hpath]
    exact record_blockFreed_of_none hi

end FreedPort

end Sys2Proof.Machine
end

section
/-! PROOFS. The pass over the contexts behind a freed call: what a context's report does to it, and what the contexts visited before
have become (R12, R31, R124, R149). -/

namespace Sys2Proof.Machine

/-! ### A context granted a block -/

section NewHold

variable {t : State} {i : Ref} {y : Ctx} {g : NewHold}

theorem newHoldAt_choosing (hst : y.state = .claiming ∨ y.state = .waiting) :
    t.newHoldAt i y g = t.enterSettling i g.block g.trimmed := by
  rcases hst with h | h
  · simp only [State.newHoldAt, h]
  · simp only [State.newHoldAt, h]

theorem newHoldAt_awaitPath (hy : t.ctx i = some y) (hst : y.state = .awaitPath) :
    t.newHoldAt i y g = t.enterSettling i g.block (decide (g.block.2 < y.wanted)) := by
  simp only [State.newHoldAt, hst, settleOn_eq hy]

/-- A clearing context whose RELEASE is not to be recalled records the block (R124). -/
theorem newHoldAt_clearing (hy : t.ctx i = some y) (hst : y.state = .clearing)
    (h : y.reversible = false ∨ y.cause ≠ some .congested) : t.newHoldAt i y g = t.setCtx i (some (y.record g.block)) := by
  have hno : ¬ (y.reversible && decide (y.cause = some .congested)) = true := by
    rw [Bool.and_eq_true, decide_eq_true_eq]
    rintro ⟨h1, h2⟩
    rcases h with h | h
    · rw [h] at h1
      cases h1
    · exact h h2
  simp only [State.newHoldAt, hst, if_neg hno, modifyCtx_live hy]

/-- A context that cleared reversibly with CONGESTED asks its reversal (R124). -/
theorem newHoldAt_reversible (hy : t.ctx i = some y) (hst : y.state = .clearing) (hr : y.reversible = true)
    (hc : y.cause = some .congested) :
    t.newHoldAt i y g = (t.setCtx i (some (y.record g.block))).askReversal i := by
  have hyes : (y.reversible && decide (y.cause = some .congested)) = true := by rw [hr, hc]; rfl
  simp only [State.newHoldAt, hst, if_pos hyes, modifyCtx_live hy]

theorem newHoldAt_other (hst : y.state ∉ [CtxState.claiming, .waiting, .awaitPath, .clearing]) : t.newHoldAt i y g = t := by
  unfold State.newHoldAt
  cases h : y.state <;> simp_all

/-- A reversal is allowed at the desk, and where no other context is outside CLEARING (R124). -/
theorem reversalAllowed_iff : t.reversalAllowed i = true ↔ t.role = .desk ∨ ∀ l, l ≠ i → t.outsideClearing l = false := by
  simp only [State.reversalAllowed, Bool.or_eq_true, decide_eq_true_eq, List.all_eq_true, mem_refs, true_implies,
    Bool.not_eq_true']
  exact or_congr Iff.rfl (forall_congr' fun l => by rw [ne_eq, Classical.or_iff_not_imp_left])

theorem outsideClearing_setCtx {l : Ref} (hl : l ≠ i) (o : Option Ctx) : (t.setCtx i o).outsideClearing l = t.outsideClearing l := by
  unfold State.outsideClearing
  rw [State.ctx_setCtx, if_neg hl]

theorem askReversal_allowed {z : Ctx} (h : t.role = .desk ∨ ∀ l, l ≠ i → t.outsideClearing l = false) :
    (t.setCtx i (some z)).askReversal i = (t.setCtx i (some z)).askRecall ⟨.release, .call z.cid⟩ := by
  have hallow : (t.setCtx i (some z)).reversalAllowed i = true := reversalAllowed_iff.mpr
    (h.imp id fun h l hl => (outsideClearing_setCtx hl _).trans (h l hl))
  simp only [State.askReversal, State.ctx_setCtx, if_true, hallow]

theorem askReversal_refused {z : Ctx} {l : Ref} (hr : t.role ≠ .desk) (hl : l ≠ i) (hout : t.outsideClearing l = true) :
    (t.setCtx i (some z)).askReversal i = t.setCtx i (some { z with reversible := false }) := by
  have hallow : ¬ (t.setCtx i (some z)).reversalAllowed i = true := fun h => by
    rcases reversalAllowed_iff.mp h with h | h
    · exact hr h
    · have := h l hl
      rw [outsideClearing_setCtx hl, hout] at this
      cases this
  have hctx : (t.setCtx i (some z)).ctx i = some z := by rw [State.ctx_setCtx, if_pos rfl]
  simp only [State.askReversal, hctx, if_neg hallow, State.makeFinal, modifyCtx_live hctx, setCtx_setCtx]

end NewHold

/-! ### One step of the pass -/

/-- What a step at context i, there y, leaves: the enables backed; the context of its call, outside CLEARING or not as the
statements say. -/
structure GrantStep (foreign : Prop) (c : CallId) (i : Ref) (y : Ctx) (t : State) : Prop where
  backed : t.EnablesBacked
  cid : ∀ z, t.ctx i = some z → z.cid = y.cid
  inner : y.state = .clearing → t.outsideClearing i = false
  ended : foreign → y.cid = c → t.outsideClearing i = false
  outer : y.cid ≠ c → y.state ≠ .clearing → t.outsideClearing i = true

section Step

variable {foreign : Prop} {c : CallId} {i : Ref} {y : Ctx} {t : State}

theorem outsideClearing_of_live (hy : t.ctx i = some y) : t.outsideClearing i = decide (y.state ≠ .clearing) := by
  simp only [State.outsideClearing, hy]

theorem ClosedAt.grantStep (h : ClosedAt i y.cid t) (hb : t.EnablesBacked) (hc : y.cid = c) : GrantStep foreign c i y t :=
  ⟨hb, fun _ hz => h.cid hz, fun _ => h.outside, fun _ _ => h.outside, fun hne => absurd hc hne⟩

/-- A step after which the context has its call and is in CLEARING as before. -/
theorem grantStep_of_live {z : Ctx} (hb : t.EnablesBacked) (hz : t.ctx i = some z) (hcid : z.cid = y.cid)
    (hst : z.state = .clearing ↔ y.state = .clearing) (hend : foreign → y.cid = c → y.state = .clearing) :
    GrantStep foreign c i y t := by
  have hout := outsideClearing_of_live hz
  refine ⟨hb, fun w hw => ?_, fun h => ?_, fun hf hc => ?_, fun _ h => ?_⟩
  · rw [Option.some.inj (hw.symm.trans hz), hcid]
  · rw [hout, decide_eq_false (not_not_intro (hst.mpr h))]
  · rw [hout, decide_eq_false (not_not_intro (hst.mpr (hend hf hc)))]
  · rw [hout, decide_eq_true (mt hst.mp h)]

/-- The own RELEASE of a call: its clearing context is freed, and one not answered yet ends (R123, R144). -/
theorem releaseAt_own (k : Byte) : (y.state = .clearing ∧ t.releaseAt i y true k = t.freeCtx i)
    ∨ (y.state ≠ .clearing ∧ (t.releaseAt i y true k = t ∨ t.releaseAt i y true k = t.endSide i y .cancelled)) := by
  unfold State.endSide
  by_cases hst : y.state = .clearing
  · exact .inl ⟨hst, releaseAt_own_clearing hst⟩
  · refine .inr ⟨hst, ?_⟩
    cases hs : y.side with
    | origin => cases hx : y.state <;> simp_all [State.releaseAt]
    | answer => cases hx : y.state <;> simp_all [State.releaseAt]

/-- The report at a context of the freed call. -/
theorem grantStep_call {s : State} {x : Byte} {k : Byte} {cmd : Instr} {kind : FrameKind} {cause : Option Byte}
    (hF : Frees s x c k cmd kind cause) (hy : t.ctx i = some y) (hc : y.cid = c) (hb : t.EnablesBacked)
    (hh : t.smu.holdOf c = none) :
    GrantStep (kind = .release → x ≠ s.own) c i y (State.reportAt (s.freedReport kind x c cause) t i y) := by
  have hd : t.path.Dark i := hb.dark_of_not_held hy (hc ▸ hh)
  have hside : ∀ q, y.state ≠ .clearing → GrantStep (kind = .release → x ≠ s.own) c i y (t.endSide i y q) := fun q hst => by
    obtain ⟨h1, h2⟩ := endSide_closes hy hb hd q hst
    exact h2.grantStep h1 hc
  by_cases hf : kind = .release → x ≠ s.own
  · by_cases hst : y.state = .clearing
    · obtain ⟨h1, h2⟩ := closeSide_closes hy hb hst
      rw [reportAt_named_clearing hF hf hc hst]
      exact h2.grantStep h1 hc
    · rw [reportAt_named hF hf hc hst]
      exact hside _ hst
  · obtain ⟨rfl, hown⟩ := Classical.not_imp.mp hf
    have hown : x = s.own := not_not.mp hown
    obtain ⟨-, -, rfl⟩ := hF.resolve_right fun h => by simp at h
    rw [reportAt_release hc, decide_eq_true hown]
    rcases releaseAt_own (t := t) (i := i) (y := y) k with ⟨hst, h⟩ | ⟨hst, h | h⟩
    · rw [h]
      exact ClosedAt.grantStep (.inl (ctx_freeCtx t i)) (hb.freeCtx hd) hc
    · rw [h]
      exact grantStep_of_live hb hy rfl Iff.rfl fun hf' => absurd hf' hf
    · rw [h]
      exact hside _ hst

/-- A context that a freed call's block may be granted to: its call holds the block of the grant, which PATH may settle on. -/
structure Grantable (t : State) (i : Ref) (y : Ctx) (g : NewHold) : Prop where
  ctx : t.ctx i = some y
  backed : t.EnablesBacked
  held : ∃ h, t.smu.holdOf y.cid = some h ∧ (h.base, h.width) = g.block
  met : t.settleMet i y.cid g.block = true
  bare : y.state = .claiming ∨ y.state = .waiting ∨ y.state = .awaitPath → t.path.record i = none

section Grantable

variable {g : NewHold} (h : Grantable t i y g)
include h

theorem Grantable.settles (hst : y.state = .claiming ∨ y.state = .waiting ∨ y.state = .awaitPath) (trimmed : Bool) :
    SettlesOn i y g.block trimmed (t.enterSettling i g.block trimmed) ∧ (t.enterSettling i g.block trimmed).EnablesBacked := by
  obtain ⟨k, hk, hkb⟩ := h.held
  exact ⟨settlesOn_enterSettling h.ctx (h.bare hst) h.met, (stepAt_enterSettling h.backed h.ctx (h.bare hst) hk hkb h.met).backed⟩

theorem Grantable.backed_record (z : Ctx) (hz : z.cid = y.cid) : (t.setCtx i (some z)).EnablesBacked := by
  have := h.backed.modifyCtx h.ctx (f := fun _ => z) hz
  rwa [modifyCtx_live h.ctx] at this

/-- The report at a context granted a block. -/
theorem Grantable.grantStep (hc : y.cid ≠ c) : GrantStep foreign c i y (t.newHoldAt i y g) := by
  have hsettle : ∀ trimmed, (y.state = .claiming ∨ y.state = .waiting ∨ y.state = .awaitPath) →
      GrantStep foreign c i y (t.enterSettling i g.block trimmed) := fun trimmed hst => by
    obtain ⟨⟨hctx, -⟩, hb⟩ := h.settles hst trimmed
    have hne : y.state ≠ .clearing := fun h => by simp [h] at hst
    exact grantStep_of_live (z := y.settled g.block trimmed) hb hctx rfl
      (iff_of_false (fun h => by cases h) hne) fun _ h => absurd h hc
  have hlive : ∀ z : Ctx, z.cid = y.cid → z.state = y.state → GrantStep foreign c i y (t.setCtx i (some z)) := fun z hz hst =>
    grantStep_of_live (h.backed_record z hz) (by rw [State.ctx_setCtx, if_pos rfl]) hz (by rw [hst]) fun _ h => absurd h hc
  by_cases hchoose : y.state = .claiming ∨ y.state = .waiting
  · rw [newHoldAt_choosing hchoose]
    exact hsettle _ (by tauto)
  by_cases hawait : y.state = .awaitPath
  · rw [newHoldAt_awaitPath h.ctx hawait]
    exact hsettle _ (by tauto)
  by_cases hst : y.state = .clearing
  · by_cases hr : y.reversible = false ∨ y.cause ≠ some .congested
    · rw [newHoldAt_clearing h.ctx hst hr]
      exact hlive _ rfl rfl
    · obtain ⟨h1, h2⟩ := not_or.mp hr
      rw [newHoldAt_reversible h.ctx hst (by simpa using h1) (not_not.mp h2)]
      by_cases hallow : t.role = .desk ∨ ∀ l, l ≠ i → t.outsideClearing l = false
      · rw [askReversal_allowed hallow]
        exact grantStep_of_live ((h.backed_record (y.record g.block) rfl).askRecall _) (z := y.record g.block)
          (by rw [ctx_askRecall, State.ctx_setCtx, if_pos rfl]) rfl Iff.rfl fun _ h => absurd h hc
      · push Not at hallow
        obtain ⟨hrole, l, hl, hout⟩ := hallow
        rw [askReversal_refused hrole hl (by simpa using hout)]
        exact hlive _ rfl rfl
  · rw [newHoldAt_other (by simp only [List.mem_cons, List.not_mem_nil, or_false]; tauto)]
    exact grantStep_of_live h.backed h.ctx rfl Iff.rfl fun _ h => absurd h hc

end Grantable

end Step

end Sys2Proof.Machine
end

section
/-! PROOFS. The whole pass behind a freed call, and the obligation (R12, R31, R124). -/

namespace Sys2Proof.Machine

/-- A freed call at a station whose laws hold: the state that the frame acts on, a member's, with one context for each call. -/
structure Freed (s : State) (x : Byte) (c : CallId) (k : Byte) (cmd : Instr) (kind : FrameKind) (cause : Option Byte) : Prop where
  frees : Frees s x c k cmd kind cause
  slot : SlotLaw s.smu
  path : PathLaw s
  member : s.member = true
  one : ∀ j l z w, s.ctx j = some z → s.ctx l = some w → z.cid = w.cid → j = l

/-- From the beginning of the pass to the state after the contexts below n have been visited: each keeps its call; those in CLEARING
stay there, those of the freed call go there, and the others do not. -/
structure GrantPass (s : State) (x : Byte) (c : CallId) (kind : FrameKind) (n : Nat) (t : State) : Prop where
  calm : Calm (s.freedPort c) t
  adds : Adds (fun k => k = .release) (s.freedPort c) t
  backed : t.EnablesBacked
  above : ∀ i : Ref, n ≤ i.val → t.ctx i = (s.freedPort c).ctx i ∧ t.path.record i = (s.freedPort c).path.record i
  cids : ∀ i y, t.ctx i = some y → ∃ z, s.ctx i = some z ∧ z.cid = y.cid
  inner : ∀ i, s.outsideClearing i = false → t.outsideClearing i = false
  ended : (kind = .release → x ≠ s.own) → ∀ i y, i.val < n → s.ctx i = some y → y.cid = c → t.outsideClearing i = false
  outer : ∀ i y, s.ctx i = some y → y.state ≠ .clearing → y.cid ≠ c ∨ n ≤ i.val → t.outsideClearing i = true

section Pass

variable {s t : State} {x : Byte} {c : CallId} {k : Byte} {cmd : Instr} {kind : FrameKind} {cause : Option Byte} {i : Ref} {y : Ctx}

theorem GrantPass.free (hm : GrantPass s x c kind i t) (hy : t.ctx i = none) : GrantPass s x c kind (i + 1) t :=
  { hm with
    above := fun j hj => hm.above j (by omega)
    ended := fun hf j z hj hz hc => by
      by_cases hji : j = i
      · subst hji
        simp [State.outsideClearing, hy]
      · have : j.val ≠ i.val := fun h => hji (Fin.ext h)
        exact hm.ended hf j z (by omega) hz hc
    outer := fun j z hz hst hor => hm.outer j z hz hst (hor.imp id fun h => by omega) }

variable (h : Freed s x c k cmd kind cause)
include h

theorem Freed.port : PortFreed s c (s.freedPort c) := portFreed h.path.enablesBacked h.slot

theorem Freed.muting_clearing (hy : s.ctx i = some y) (hi : i ∈ s.freedMuting c) : y.state = .clearing := by
  obtain ⟨r, hr, hst, -⟩ := mem_freedMuting.mp hi
  exact (h.path.mute_iff hy hr).1.mp hst

theorem Freed.start : GrantPass s x c kind 0 (s.freedPort c) where
  calm := Calm.refl _
  adds := Adds.refl _ _
  backed := h.port.backed
  above _ _ := ⟨rfl, rfl⟩
  cids i y hy := (h.port.same i y hy).imp fun _ hz => ⟨hz.1, hz.2.1⟩
  inner i hi := by
    cases hy : (s.freedPort c).ctx i with
    | none => simp [State.outsideClearing, hy]
    | some y =>
      obtain ⟨z, hz, -, hst⟩ := h.port.same i y hy
      rw [outsideClearing_of_live hz] at hi
      rw [outsideClearing_of_live hy, ← hst]
      exact hi
  ended _ i _ hi := absurd hi (Nat.not_lt_zero _)
  outer i y hy hst _ := by
    have hctx := (h.port.kept i fun hi => hst (h.muting_clearing hy hi)).trans hy
    rw [outsideClearing_of_live hctx, decide_eq_true hst]

/-- A context of another call comes to its visit as it stood at the taking. -/
theorem Freed.ctx_visit (hy : (s.freedPort c).ctx i = some y) (hc : y.cid ≠ c) : s.ctx i = some y := by
  obtain ⟨z, hz, hzc, -⟩ := h.port.same i y hy
  rw [← h.port.kept i fun hi => hc (hzc.symm.trans (h.port.muting i z hz hi)), hy]

theorem Freed.ctx_freedPort (hy : s.ctx i = some y) (hc : y.cid ≠ c) : (s.freedPort c).ctx i = some y :=
  (h.port.kept i fun hi => hc (h.port.muting i y hy hi)).trans hy

variable (hm : GrantPass s x c kind i t) (hy : t.ctx i = some y)
include hm hy

/-- The context of a grant may settle on it when the pass comes to it (R148). -/
theorem Freed.grantable (hc : y.cid ≠ c) {g : NewHold} (hg : g ∈ s.freedGrants c) (hgc : g.cid = y.cid) : Grantable t i y g := by
  have hsy := h.ctx_visit ((hm.above i (le_refl _)).1.symm.trans hy) hc
  have hsmu : t.smu = s.freedCopy c := hm.calm.smu.trans h.port.smu
  have hheld : t.smu.holdOf y.cid = some (s.newHold g.cid g.block) := by
    rw [hsmu, ← hgc]
    exact holdOf_freedCopy_of_grant h.slot hg
  refine ⟨hy, hm.backed, ⟨_, hheld, rfl⟩, ?_, fun hst => ?_⟩
  · refine settleMet_of_backed (hm.calm.member.trans ?_) hm.backed (hsmu ▸ heldOnce_freedCopy h.slot) (fun j z hz hj => ?_) hheld
    · unfold State.member
      rw [h.port.state]
      exact h.member
    · obtain ⟨w, hw, hwc⟩ := hm.cids j z hz
      exact fun hzc => hj (h.one j i w y hw hsy (hwc.trans hzc))
  · rw [(hm.above i (le_refl _)).2]
    refine h.port.bare i (h.path.record_none hsy ?_)
    rcases hst with h | h | h <;> rw [h] <;> decide

/-- The report at one more context. -/
theorem Freed.step : GrantStep (kind = .release → x ≠ s.own) c i y (State.reportAt (s.freedReport kind x c cause) t i y) := by
  by_cases hc : y.cid = c
  · refine grantStep_call h.frees hy hc hm.backed ?_
    rw [hm.calm.smu, h.port.smu]
    have hnone := freedCopy_has s c
    rw [Smu.has, Bool.or_eq_false_iff] at hnone
    simpa using hnone.1
  · cases hfind : (s.freedGrants c).find? (fun n => n.cid = y.cid) with
    | none =>
      rw [reportAt_ungranted hc hfind]
      exact grantStep_of_live hm.backed hy rfl Iff.rfl fun _ h => absurd h hc
    | some g =>
      rw [reportAt_grant hc hfind]
      exact (h.grantable hm hy hc (List.mem_of_find?_eq_some hfind) (of_decide_eq_true (List.find?_some hfind :))).grantStep hc

theorem Freed.next : GrantPass s x c kind (i + 1) (State.reportAt (s.freedReport kind x c cause) t i y) := by
  have hstep := h.step hm hy
  have hspare : ∀ j, j ≠ i → Spares (fun k => k = .release) j t (State.reportAt (s.freedReport kind x c cause) t i y) :=
    fun j hj => spares_reportAt hj _ t y
  obtain ⟨z, hz, hzc⟩ := hm.cids i y hy
  have hout : ∀ j, j ≠ i →
      (State.reportAt (s.freedReport kind x c cause) t i y).outsideClearing j = t.outsideClearing j := fun j hj => by
    unfold State.outsideClearing
    rw [(hspare j hj).ctx]
  refine ⟨hm.calm.trans ((Calm.refl t).reportAt _ i y), hm.adds.trans (adds_reportAt _ t i y), hstep.backed, fun j hj => ?_,
    fun j w hw => ?_, fun j hj => ?_, fun hf j w hj hw hwc => ?_, fun j w hw hst hor => ?_⟩
  · have hji : j ≠ i := by rintro rfl; omega
    obtain ⟨h1, h2⟩ := hm.above j (by omega)
    exact ⟨(hspare j hji).ctx.trans h1, (hspare j hji).record.trans h2⟩
  · by_cases hji : j = i
    · subst hji
      exact ⟨z, hz, hzc.trans (hstep.cid w hw).symm⟩
    · exact hm.cids j w ((hspare j hji).ctx.symm.trans hw)
  · by_cases hji : j = i
    · subst hji
      have hin := hm.inner j hj
      rw [outsideClearing_of_live hy] at hin
      exact hstep.inner (by simpa using hin)
    · rw [hout j hji]
      exact hm.inner j hj
  · by_cases hji : j = i
    · subst hji
      obtain rfl := Option.some.inj (hw.symm.trans hz)
      exact hstep.ended hf (hzc.symm.trans hwc)
    · have : j.val ≠ i.val := fun h => hji (Fin.ext h)
      rw [hout j hji]
      exact hm.ended hf j w (by omega) hw hwc
  · by_cases hji : j = i
    · subst hji
      obtain rfl := Option.some.inj (hw.symm.trans hz)
      have hwc : w.cid ≠ c := hor.resolve_right (by omega)
      have hyc : y.cid ≠ c := hzc ▸ hwc
      have hsy := h.ctx_visit ((hm.above j (le_refl _)).1.symm.trans hy) hyc
      obtain rfl := Option.some.inj (hw.symm.trans hsy)
      exact hstep.outer hyc hst
    · rw [hout j hji]
      exact hm.outer j w hw hst (hor.imp id fun h => by omega)

omit hm hy in
/-- The pass seen from one context. -/
theorem Freed.around (i : Ref) : ∃ a, GrantPass s x c kind i a ∧ Spares (fun k => k = .release) i (s.freedPort c) a
    ∧ Spares (fun k => k = .release) i (State.visit (State.reportAt (s.freedReport kind x c cause)) a i)
      ((s.freedPort c).eachCtx (State.reportAt (s.freedReport kind x c cause))) := by
  obtain ⟨a, hm, h1, -, h2⟩ := eachCtx_around (ks := fun k => k = .release)
    (f := State.reportAt (s.freedReport kind x c cause)) (M := GrantPass s x c kind) h.start (fun i t hm hy => hm.free hy)
    (fun i t y hm hy => ⟨h.next hm hy, fun j hj => spares_reportAt hj _ t y⟩) i
  exact ⟨a, hm, h1, h2⟩

end Pass

/-! ### A waiting call granted the freed block -/

/-- The visit of a context whose waiting call was granted a block: the state before it, and what follows it. -/
structure GrantVisit (s : State) (x : Byte) (c : CallId) (kind : FrameKind) (j : Ref) (z : Ctx) (n : NewHold) (a t : State) : Prop where
  pass : GrantPass s x c kind j a
  grant : Grantable a j z n
  after : Spares (fun _ => True) j (a.newHoldAt j z n) t

theorem Spares.weaken {ks ks' : FrameKind → Prop} {j : Ref} {a t : State} (h : Spares ks j a t) (hk : ∀ k, ks k → ks' k) :
    Spares ks' j a t := by
  obtain ⟨fs, hq, hfs⟩ := h.queue
  exact ⟨h.ctx, h.record, h.alerting, h.recalls, fs, hq, fun f hf => hk _ (hfs f hf)⟩

section Granted

variable {s t : State} {x : Byte} {c : CallId} {k : Byte} {cmd : Instr} {kind : FrameKind} {cause : Option Byte} {j : Ref} {z : Ctx}

/-- A call that waited and holds at the end was granted its hold in the pass. -/
theorem Freed.granted (h : Freed s x c k cmd kind cause)
    (hconc : Concludes ((s.freedPort c).eachCtx (State.reportAt (s.freedReport kind x c cause))) t) (hz : s.ctx j = some z)
    {e : WaitEntry} {g : Hold} (he : s.smu.waitOf z.cid = some e) (hg : t.smu.holdOf z.cid = some g) :
    z.cid ≠ c ∧ ∃ n a, n.block = (g.base, g.width) ∧ n.trimmed = decide (g.width < e.wanted) ∧ GrantVisit s x c kind j z n a t := by
  have hsmu : ((s.freedPort c).eachCtx (State.reportAt (s.freedReport kind x c cause))).smu = s.freedCopy c := by
    have := (Calm.refl (s.freedPort c)).eachCtx (f := State.reportAt (s.freedReport kind x c cause)) fun t i y ht => ht.reportAt _ i y
    exact this.smu.trans h.port.smu
  have hitems := hconc.items
  rw [hsmu] at hitems
  have hhold := hitems.holdOf z.cid
  rw [hg, Option.map_some] at hhold
  obtain ⟨g', hg', hsame⟩ := Option.map_eq_some_iff.mp hhold.symm
  simp only [Prod.mk.injEq] at hsame
  obtain ⟨-, hbase, hwidth, -⟩ := hsame
  obtain ⟨n, hfind, hn, hncid, hblock, htrim⟩ := granted_of_waiting h.slot he hg'
  rw [hbase, hwidth] at hblock
  rw [hwidth] at htrim
  obtain ⟨w, -, hwn, hwc, -⟩ := freedGrants_entry hn
  have hc : z.cid ≠ c := hncid ▸ hwn ▸ hwc
  obtain ⟨a, hm, hbefore, hafter⟩ := h.around j
  have ha : a.ctx j = some z := hbefore.ctx.trans (h.ctx_freedPort hz hc)
  rw [visit_live ha, reportAt_grant hc hfind] at hafter
  exact ⟨hc, n, a, hblock, htrim, hm, h.grantable hm ha hc hn hncid,
    (hafter.weaken fun _ _ => trivial).trans (hconc.spares j)⟩

variable {n : NewHold} {a : State} (v : GrantVisit s x c kind j z n a t)
include v

theorem GrantVisit.choosing (hst : z.state = .claiming ∨ z.state = .waiting) : SettlesOn j z n.block n.trimmed t := by
  have hafter := v.after
  rw [newHoldAt_choosing hst] at hafter
  exact (v.grant.settles (by tauto) n.trimmed).1.of_same hafter.ctx hafter.record

theorem GrantVisit.awaitPath (hst : z.state = .awaitPath) : SettlesOn j z n.block (decide (n.block.2 < z.wanted)) t := by
  have hafter := v.after
  rw [newHoldAt_awaitPath v.grant.ctx hst] at hafter
  exact (v.grant.settles (by tauto) _).1.of_same hafter.ctx hafter.record

theorem GrantVisit.clearing (hst : z.state = .clearing) (hr : z.reversible = false ∨ z.cause ≠ some .congested) :
    t.ctx j = some (z.record n.block) := by
  rw [v.after.ctx, newHoldAt_clearing v.grant.ctx hst hr, State.ctx_setCtx, if_pos rfl]

/-- The reversal that a grant asks, where it is allowed (R124). -/
theorem GrantVisit.reverses (hst : z.state = .clearing) (hr : z.reversible = true) (hcause : z.cause = some .congested)
    (hallow : a.role = .desk ∨ ∀ l, l ≠ j → a.outsideClearing l = false) :
    t.ctx j = some (z.record n.block)
      ∧ (a.queued ⟨.release, .call z.cid⟩ = true → t.recallOpen ⟨.release, .call z.cid⟩) := by
  have hafter := v.after
  rw [newHoldAt_reversible v.grant.ctx hst hr hcause, askReversal_allowed hallow] at hafter
  exact ⟨hafter.ctx.trans (by rw [ctx_askRecall, State.ctx_setCtx, if_pos rfl]),
    fun hq => hafter.adds.recallOpen (recallOpen_askRecall (s := a.setCtx j (some (z.record n.block))) hq)⟩

/-- The reversal that a grant may not ask, which makes the clearing final (R124). -/
theorem GrantVisit.refuses (hst : z.state = .clearing) (hr : z.reversible = true) (hcause : z.cause = some .congested)
    {l : Ref} (hrole : a.role ≠ .desk) (hl : l ≠ j) (hout : a.outsideClearing l = true) :
    t.ctx j = some { z.record n.block with reversible := false } := by
  rw [v.after.ctx, newHoldAt_reversible v.grant.ctx hst hr hcause, askReversal_refused hrole hl hout, State.ctx_setCtx, if_pos rfl]

omit v in
theorem Freed.role_visit (h : Freed s x c k cmd kind cause) (hm : GrantPass s x c kind j a) : a.role = s.role := by
  rw [hm.calm.role, State.role, h.port.config, State.role]

end Granted

/-! ### The obligation -/

/-- The laws at the taking are those of the state on which the frame acts. -/
theorem freed_takingBase {s : State} {x : Byte} {c : CallId} {k : Byte} {cmd : Instr} {kind : FrameKind} {cause : Option Byte}
    {f : Frame} (hF : Frees (s.takingBase x f) x c k cmd kind cause) (htake : s.takesFrame x f) (hl : SlotLaw s.smu) (hp : PathLaw s)
    (hone : ∀ j l z w, s.ctx j = some z → s.ctx l = some w → z.cid = w.cid → j = l) :
    Freed (s.takingBase x f) x c k cmd kind cause := by
  refine ⟨hF, by rwa [takingBase_smu], hp.congr (takingBase_path s x f) (ctx_takingBase s x f) (takingBase_now s x f)
    (takingBase_smu s x f), ?_, by simpa using hone⟩
  unfold State.member
  rw [takingBase_stc]
  exact takesFrame_member htake

theorem Frees.foreign_of {s : State} {x : Byte} {c : CallId} {k : Byte} {cmd : Instr} {kind : FrameKind} {cause : Option Byte}
    (h : Frees s x c k cmd kind cause) (ho : cmd = .releaseTaken x c k → x ≠ s.own) : kind = .release → x ≠ s.own := by
  rcases h with ⟨hcmd, -⟩ | ⟨-, rfl, -⟩
  · exact fun _ => ho hcmd
  · exact fun h => by cases h

end Sys2Proof.Machine
end

section
/-! PROOFS. The obligation: the three parts put together. -/

namespace Sys2Proof.Machine

/-- The block granted to a waiting call, at its context j: what the call's hold g and wait entry e settle (R12, R31, R124). -/
structure GrantedAt (s : State) (x : Byte) (c : CallId) (kind : FrameKind) (j : Ref) (z : Ctx) (g : Hold) (e : WaitEntry) (t : State) :
    Prop where
  choosing : z.state = .claiming ∨ z.state = .waiting → SettlesOn j z (g.base, g.width) (decide (g.width < e.wanted)) t
  awaiting : z.state = .awaitPath → SettlesOn j z (g.base, g.width) (decide (g.width < z.wanted)) t
  final : z.state = .clearing → z.reversible = false ∨ z.cause ≠ some .congested → t.ctx j = some (z.record (g.base, g.width))
  reverses : z.state = .clearing → z.reversible = true → z.cause = some .congested →
    (s.role = .desk ∨ ∀ l, l ≠ j → s.outsideClearing l = true →
      (kind = .release → x ≠ s.own) ∧ l < j ∧ ∃ w, s.ctx l = some w ∧ w.cid = c) →
    t.ctx j = some (z.record (g.base, g.width))
      ∧ (s.queued ⟨.release, .call z.cid⟩ = true → t.recallOpen ⟨.release, .call z.cid⟩)
  refuses : z.state = .clearing → z.reversible = true → z.cause = some .congested →
    ∀ l w, s.role ≠ .desk → l ≠ j → s.ctx l = some w → w.state ≠ .clearing → w.cid ≠ c ∨ j < l →
      t.ctx j = some { z.record (g.base, g.width) with reversible := false }

theorem Freed.grantedAt {s t : State} {x : Byte} {c : CallId} {k : Byte} {cmd : Instr} {kind : FrameKind} {cause : Option Byte}
    (h : Freed s x c k cmd kind cause)
    (hconc : Concludes ((s.freedPort c).eachCtx (State.reportAt (s.freedReport kind x c cause))) t) {j : Ref} {z : Ctx}
    (hz : s.ctx j = some z) {e : WaitEntry} {g : Hold} (he : s.smu.waitOf z.cid = some e) (hg : t.smu.holdOf z.cid = some g) :
    z.cid ≠ c ∧ GrantedAt s x c kind j z g e t := by
  obtain ⟨hc, n, a, hblock, htrim, v⟩ := h.granted hconc hz he hg
  have hrole := h.role_visit v.pass
  refine ⟨hc, fun hst => ?_, fun hst => ?_, fun hst hr => ?_, fun hst hr hcause hallow => ?_,
    fun hst hr hcause l w hdesk hl hw hws hor => ?_⟩
  · have := v.choosing hst
    rwa [hblock, htrim] at this
  · have := v.awaitPath hst
    rwa [hblock] at this
  · rw [← hblock]
    exact v.clearing hst hr
  · have hin : a.role = .desk ∨ ∀ l, l ≠ j → a.outsideClearing l = false := by
      refine hallow.imp (fun hd => hrole.trans hd) fun hothers l hl => ?_
      cases hout : s.outsideClearing l with
      | false => exact v.pass.inner l hout
      | true =>
        obtain ⟨hf, hlt, w, hw, hwc⟩ := hothers l hl hout
        exact v.pass.ended hf l w hlt hw hwc
    obtain ⟨h1, h2⟩ := v.reverses hst hr hcause hin
    rw [← hblock]
    exact ⟨h1, fun hq => h2 (v.pass.adds.queued_of ((adds_freedPort s c).queued_of hq))⟩
  · rw [← hblock]
    exact v.refuses hst hr hcause (by rwa [hrole]) hl (v.pass.outer l w hw hws (hor.imp id Fin.le_of_lt))

/-- Settles O22: the own RELEASE at its context; the named call's context in the pass; and a granted one, visited after those below
it. -/
theorem releaseEndsTheCall : Obligations.ReleaseEndsTheCall := by
  unfold Obligations.ReleaseEndsTheCall
  refine ⟨fun s c k i y => ownRelease_taken, fun s x c k cmd i y h _ hi hc hone => ?_, fun s x c k cmd h hl hp hone => ?_⟩
  · intro release cause freed mutes apart
    by_cases hfree : release ∨ s.smu.has c = true
    · obtain ⟨kind, rcause, f, t, hexec, hF⟩ := freeing_of_foreign h hfree
      have hcause : cause = endCause kind y k := by
        rcases hF.frees with ⟨hcmd, rfl, -⟩ | ⟨hcmd, rfl, -⟩
        · simp only [cause, hcmd, endCause, reduceCtorEq, if_false]
        · simp only [cause, hcmd, endCause, if_true]
      have hmutes : ∀ j, j ∈ (s.takingBase x f).freedMuting c ↔ mutes j := fun j => by
        rw [mem_freedMuting, takingBase_path, takingBase_smu]
      refine ⟨t, hexec, fun hr hh => absurd hfree (by simp [hr, hh]), fun _ => ⟨fun hst hm => ?_, fun hst hm => ?_,
        fun hst hann hm hcalls => ?_, fun hwaits hm => ?_⟩⟩
      · rw [hcause]
        exact hF.ended hi hc (mt (hmutes i).mp hm) hst
      · exact (hF.closed ((ctx_freedPort (mt (hmutes i).mp hm)).trans ((ctx_takingBase s x f i).trans hi)) hc hst).1
      · obtain ⟨h1, h2, h3⟩ := hF.muted hi hc ((hmutes i).mpr hm) hst hann hcalls
        refine ⟨h1, by rw [← hc]; exact h2, h3.trans ?_⟩
        cases hs : y.side <;> simp [Ctx.closed]
      · have hnone : (s.takingBase x f).freedMuting c = [] := List.eq_nil_iff_forall_not_mem.mpr fun j hj => hm j ((hmutes j).mp hj)
        have hconc := hF.alone hi hone hwaits hnone
        refine ⟨fun j hj => ?_, fun hst => ?_, fun b hb hrec => (hF.off hi hc hconc (Smu.blockOf_eq_some_iff.mpr hb) hrec).off⟩
        · rw [hconc.ctx, (spares_reportAt hj _ _ _).ctx, ctx_blockFreed, ctx_takingBase]
        · rw [hcause]
          have hy : ((s.takingBase x f).blockFreed c).ctx i = some y := (ctx_blockFreed i).trans ((ctx_takingBase s x f i).trans hi)
          have hsaid := (ended_endSide hy hst (endCause kind y k)).2
          rw [← reportAt_named hF.frees hF.foreign' hc hst] at hsaid
          exact (hsaid.from_sport (by simp)).mono hconc.posted
    · obtain ⟨hr, hh⟩ := not_or.mp hfree
      obtain ⟨rfl, htake⟩ := h.resolve_left fun h => hr h.1
      obtain ⟨t, hexec, hconc⟩ := reclaim_idle htake (Bool.not_eq_true _ ▸ hh)
      have hctx : ∀ j, t.ctx j = s.ctx j := fun j => (hconc.ctx j).trans (ctx_takingBase s x _ j)
      have hitems : SameItems s.smu t.smu := by simpa using hconc.items
      exact ⟨t, hexec, fun _ _ => ⟨(hctx i).trans hi, fun j _ => hctx j, hitems.snapHolds, hitems.snapWaits⟩,
        fun hf => absurd hf hfree⟩
  · intro others
    by_cases hfree : cmd = .releaseTaken x c k ∨ s.smu.has c = true
    · obtain ⟨f, kind, rcause, t, hid, htake, hF, hexec, hconc⟩ := freesCall_passes h hfree
      have hfreed := freed_takingBase hF htake hl hp hone
      refine ⟨t, hexec, fun j z g e hz he hg => ?_⟩
      obtain ⟨hzc, hat⟩ := hfreed.grantedAt hconc (j := j) (z := z) (by simpa using hz) (e := e) (by simpa using he) hg
      have hqueued : (s.takingBase x f).queued ⟨.release, .call z.cid⟩ = s.queued ⟨.release, .call z.cid⟩ :=
        queued_takingBase htake fun heq => hzc (FrameKey.call.inj (congrArg FrameId.key (hid.symm.trans heq))).symm
      have hrole : (s.takingBase x f).role = s.role := by simp [State.role]
      have hout : ∀ l, (s.takingBase x f).outsideClearing l = s.outsideClearing l := fun l => by
        simp [State.outsideClearing]
      refine ⟨hat.choosing, hat.awaiting, hat.final, fun hst hr hcause => ⟨fun hallow => ?_, fun l w hdesk hl' hw hws hor =>
        hat.refuses hst hr hcause l w (by rwa [hrole]) hl' (by simpa using hw) hws hor⟩⟩
      rw [← hqueued]
      refine hat.reverses hst hr hcause (hallow.imp (fun hd => hrole.trans hd) fun hothers l hlj hl' => ?_)
      obtain ⟨ho, hlt, w, hw, hwc⟩ := hothers l hlj (by rwa [hout] at hl')
      exact ⟨hF.foreign_of (by simpa using ho), hlt, w, by simpa using hw, hwc⟩
    · obtain ⟨hr, hh⟩ := not_or.mp hfree
      obtain ⟨rfl, htake⟩ := h.resolve_left fun h => hr h.1
      obtain ⟨t, hexec, hconc⟩ := reclaim_idle htake (Bool.not_eq_true _ ▸ hh)
      refine ⟨t, hexec, fun j z g e hz he hg => ?_⟩
      have hhold := hconc.items.holdOf z.cid
      rw [hg, takingBase_smu, Option.map_some] at hhold
      obtain ⟨g', hg', -⟩ := Option.map_eq_some_iff.mp hhold.symm
      exact (not_held_of_waiting hl he hg').elim

end Sys2Proof.Machine
end

section
/-! PROOFS. The law of the copy: what each change of the copy keeps of it (R1, R2, R24, R25, R30, R32). -/

namespace Sys2Proof.Machine

/-! ### The law, free channels apart -/

/-- The copy's law without its last clause, that no channel is free beside a wait entry, which a grant scan restores (R30, R32). -/
structure ItemsLaw (m : Smu) : Prop where
  aligned : ∀ h ∈ m.holds, h.Aligned
  apart : m.holds.Pairwise fun a b => a.base + a.width ≤ b.base
  once : (m.holds.map Hold.cid ++ m.waits.map WaitEntry.cid).Nodup
  room : m.waits.length ≤ Config.waitCap
  wanted : ∀ w ∈ m.waits, validWidth w.wanted = true

theorem slotLaw_iff {m : Smu} : SlotLaw m ↔ ItemsLaw m ∧ (m.waits = [] ∨ freeCount m.holds = 0) :=
  ⟨fun ⟨h1, h2, h3, h4, h5, h6⟩ => ⟨⟨h1, h2, h3, h4, h5⟩, h6⟩, fun ⟨⟨h1, h2, h3, h4, h5⟩, h6⟩ => ⟨h1, h2, h3, h4, h5, h6⟩⟩

theorem SlotLaw.items {m : Smu} (h : SlotLaw m) : ItemsLaw m := (slotLaw_iff.mp h).1

theorem SlotLaw.done {m : Smu} (h : SlotLaw m) : m.waits = [] ∨ freeCount m.holds = 0 := (slotLaw_iff.mp h).2

theorem slotLaw_empty : SlotLaw { holds := [], waits := [] } := by simp [SlotLaw]

/-- The law speaks of blocks, call ids and wanted widths, and of no age or audit. -/
theorem SlotLaw.of_sameItems {m m' : Smu} (h : SlotLaw m) (k : SameItems m m') : SlotLaw m' := by
  have hfree := k.freeCount
  obtain ⟨⟨f, hf, hkeep⟩, g, hg, hsame⟩ := k
  obtain ⟨⟨haligned, hapart, honce, hroom, hwanted⟩, hdone⟩ := slotLaw_iff.mp h
  have hcids : m'.holds.map Hold.cid ++ m'.waits.map WaitEntry.cid = m.holds.map Hold.cid ++ m.waits.map WaitEntry.cid := by
    simp [hf, hg, Function.comp_def, hkeep, hsame]
  refine slotLaw_iff.mpr ⟨⟨fun x hx => ?_, ?_, hcids ▸ honce, by simpa [hg] using hroom, fun w hw => ?_⟩, ?_⟩
  · rw [hf] at hx
    obtain ⟨y, hy, rfl⟩ := List.mem_map.mp hx
    obtain ⟨-, hb, hw, -⟩ := hkeep y
    have := haligned y hy
    unfold Hold.Aligned at this ⊢
    rwa [hb, hw]
  · rw [hf, List.pairwise_map]
    exact hapart.imp fun {a b} hab => by rw [(hkeep a).2.1, (hkeep a).2.2.1, (hkeep b).2.1]; exact hab
  · rw [hg] at hw
    obtain ⟨v, hv, rfl⟩ := List.mem_map.mp hw
    rw [(hsame v).2]
    exact hwanted v hv
  · rw [hfree, hg]
    exact hdone.imp (fun hn => by rw [hn, List.map_nil]) id

/-! ### A hold joins the records -/

theorem insertHold_perm (h : Hold) (hs : List Hold) : (insertHold h hs).Perm (h :: hs) := by
  induction hs with
  | nil => exact .refl _
  | cons x xs ih =>
    unfold insertHold
    split
    · exact .refl _
    · exact (ih.cons x).trans (.swap h x xs)

/-- A hold at a place that no other hold shares keeps the records in ascending base (R1). -/
theorem pairwise_insertHold {h : Hold} {hs : List Hold} (hp : hs.Pairwise fun a b => a.base + a.width ≤ b.base)
    (hw : ∀ x ∈ h :: hs, 0 < x.width) (hd : ∀ x ∈ hs, x.base + x.width ≤ h.base ∨ h.base + h.width ≤ x.base) :
    (insertHold h hs).Pairwise fun a b => a.base + a.width ≤ b.base := by
  have hh := hw h List.mem_cons_self
  induction hs with
  | nil => exact List.pairwise_singleton _ _
  | cons x xs ih =>
    obtain ⟨hx, hxs⟩ := List.pairwise_cons.mp hp
    have hxw := hw x (by simp)
    have hxd := hd x List.mem_cons_self
    unfold insertHold
    split
    next hlt =>
      refine List.pairwise_cons.mpr ⟨fun y hy => ?_, hp⟩
      rcases List.mem_cons.mp hy with rfl | hy
      · omega
      · have := hx y hy; omega
    next hge =>
      refine List.pairwise_cons.mpr ⟨fun y hy => ?_, ih hxs (fun y hy => hw y ?_) fun y hy => hd y (List.mem_cons_of_mem x hy)⟩
      · rcases mem_insertHold.mp hy with rfl | hy
        · omega
        · exact hx y hy
      · rcases List.mem_cons.mp hy with rfl | hy
        · simp
        · simp [hy]

/-- A free block lies beside every hold (R1). -/
theorem apart_of_blockFree {hs : List Hold} {b w : Nat} (hf : blockFree hs b w = true) (hw : 0 < w) {x : Hold} (hx : x ∈ hs)
    (hxw : 0 < x.width) : x.base + x.width ≤ b ∨ b + w ≤ x.base := by
  by_contra hn
  have hfree := channelFree_iff.mp (blockFree_iff.mp hf (max b x.base) (by omega) (by omega)) x hx
  rw [Hold.covers_iff.mpr ⟨by omega, by omega⟩] at hfree
  cases hfree

/-- Channels taken stay taken beside a further hold. -/
theorem freeCount_insertHold {h : Hold} {hs : List Hold} (hf : freeCount hs = 0) : freeCount (insertHold h hs) = 0 := by
  refine freeCount_eq_zero_iff.mpr fun n hn => ?_
  have hfalse := freeCount_eq_zero_iff.mp hf n hn
  rw [← Bool.not_eq_true, channelFree_iff] at hfalse ⊢
  exact fun hall => hfalse fun x hx => hall x (mem_insertHold.mpr (.inr hx))

/-- A hold on a free, aligned block joins the records, for a call id that has nothing else in the copy (R8, R30). -/
theorem ItemsLaw.insertHold {h : Hold} {hs : List Hold} {ws : List WaitEntry} (hl : ItemsLaw ⟨hs, ws⟩) (ha : h.Aligned)
    (hf : blockFree hs h.base h.width = true) (hn : h.cid ∉ hs.map Hold.cid ++ ws.map WaitEntry.cid) :
    ItemsLaw ⟨insertHold h hs, ws⟩ where
  aligned x hx := (mem_insertHold.mp hx).elim (fun he => he ▸ ha) (hl.aligned x)
  apart := by
    refine pairwise_insertHold hl.apart (fun x hx => ?_) fun x hx =>
      apart_of_blockFree hf ha.width_pos hx (hl.aligned x hx).width_pos
    rcases List.mem_cons.mp hx with rfl | hx
    · exact ha.width_pos
    · exact (hl.aligned x hx).width_pos
  once := by
    have hperm : ((Machine.insertHold h hs).map Hold.cid ++ ws.map WaitEntry.cid).Perm
        (h.cid :: (hs.map Hold.cid ++ ws.map WaitEntry.cid)) := ((insertHold_perm h hs).map Hold.cid).append_right _
    exact hperm.nodup_iff.mpr (List.nodup_cons.mpr ⟨hn, hl.once⟩)
  room := hl.room
  wanted := hl.wanted

/-! ### The grant scan -/

/-- A placed block is aligned (R2, R4). -/
theorem aligned_of_placement {hs : List Hold} {w : Nat} {h : Hold} (hp : placement hs w = some (h.base, h.width)) : h.Aligned := by
  obtain ⟨k, hk, -, hlow, -⟩ := placement_eq_some hp
  obtain ⟨hwidth, hmod, hle, -⟩ := lowestFree_eq_some hk hlow
  dsimp only at hwidth hmod hle
  exact ⟨validWidth_iff.mpr (hwidth ▸ hk), hwidth ▸ hmod, hwidth ▸ hle⟩

/-- The scan's grants move call ids from the wait list to the holds (R30). -/
theorem ItemsLaw.scanFrom {mk : CallId → Block → Hold} (hmk : ∀ c b, (mk c b).cid = c ∧ ((mk c b).base, (mk c b).width) = b)
    (ws : List WaitEntry) : ∀ hs : List Hold, ItemsLaw ⟨hs, ws⟩ →
      ItemsLaw ⟨(scanFrom mk hs ws).holds, (scanFrom mk hs ws).waits⟩ := by
  induction ws with
  | nil => exact fun hs hl => hl
  | cons w ws ih =>
    intro hs hl
    cases hp : placement hs w.wanted with
    | none => rw [scanFrom_stop hp]; exact hl
    | some b =>
      rw [scanFrom_grant hp]
      obtain ⟨hcid, hblock⟩ := hmk w.cid b
      have hb : placement hs w.wanted = some ((mk w.cid b).base, (mk w.cid b).width) := by rw [hblock, hp]
      have honce := hl.once
      rw [List.map_cons, List.nodup_middle, List.nodup_cons] at honce
      obtain ⟨hnew, honce⟩ := honce
      have htail : ItemsLaw ⟨hs, ws⟩ :=
        ⟨hl.aligned, hl.apart, honce, Nat.le_of_succ_le hl.room, fun v hv => hl.wanted v (List.mem_cons_of_mem w hv)⟩
      exact ih _ (htail.insertHold (aligned_of_placement hb) (blockFree_of_placement hb) (by rwa [hcid]))

/-- A grant scan gives the whole law (R30, R32). -/
theorem ItemsLaw.grantScan {s : State} (h : ItemsLaw s.smu) : SlotLaw s.grantScan.smu := by
  refine slotLaw_iff.mpr ⟨h.scanFrom (fun _ _ => ⟨rfl, rfl⟩) _ _, scanFrom_done _ _ fun w hw => ?_⟩
  have := validWidth_iff.mp (h.wanted w hw)
  omega

/-! ### A removal -/

theorem ItemsLaw.removeItem {s : State} (h : ItemsLaw s.smu) (c : CallId) : ItemsLaw (s.removeItem c).smu where
  aligned x hx := h.aligned x (List.mem_of_mem_filter hx)
  apart := h.apart.filter _
  once := h.once.sublist ((List.filter_sublist.map _).append (List.filter_sublist.map _))
  room := (List.length_filter_le _ _).trans h.room
  wanted w hw := h.wanted w (List.mem_of_mem_filter hw)

/-- The copy after a RELEASE or RECLAIM is lawful (R9, R30). -/
theorem SlotLaw.freedCopy {s : State} (h : SlotLaw s.smu) (c : CallId) : SlotLaw (s.freedCopy c) := by
  cases hc : s.smu.has c with
  | false => rwa [freedCopy_of_not_has hc]
  | true =>
    rw [State.freedCopy, if_pos hc]
    exact (h.items.removeItem c).grantScan

/-! ### A CLAIM and a WAIT -/

theorem not_mem_cids {m : Smu} {c : CallId} (h : m.has c = false) : c ∉ m.holds.map Hold.cid ++ m.waits.map WaitEntry.cid := by
  obtain ⟨hh, hw⟩ := Smu.has_eq_false_iff.mp h
  simpa using ⟨fun x hx => hh x hx, fun x hx => hw x hx⟩

/-- A claimed block is free and aligned, so no channel was free before nor is one after, where a call waits (R6, R8, R32). -/
theorem SlotLaw.claimCopy {s : State} (h : SlotLaw s.smu) (x : Byte) (c : CallId) (b w : Byte) :
    SlotLaw (s.claimCopy x c b.toNat w.toNat) := by
  unfold State.claimCopy
  split
  next ht =>
    obtain ⟨hhas, hfree, -, hle⟩ := claimTest_none ht
    have hwf : ¬ ClaimMalformed x c b.toNat w.toNat := fun hm => by rw [claimTest_of_malformed hm] at ht; cases ht
    simp only [ClaimMalformed, not_or, not_not] at hwf
    obtain ⟨hwidth, hmod, -⟩ := hwf
    have hw : w.toNat = 1 ∨ w.toNat = 2 ∨ w.toNat = 4 := by omega
    have ha : (s.newHold c (b.toNat, w.toNat)).Aligned := ⟨validWidth_iff.mpr hw, hmod, hle⟩
    refine slotLaw_iff.mpr ⟨h.items.insertHold ha hfree (not_mem_cids hhas), h.done.imp id freeCount_insertHold⟩
  next => exact h

/-- A WAIT's entry joins the list where its test finds a place, and the scan follows (R26, R27, R30). -/
theorem SlotLaw.waitCopy {s : State} (h : SlotLaw s.smu) (x : Byte) (c : CallId) (w : Nat) : SlotLaw (s.waitCopy x c w) := by
  unfold State.waitCopy
  split
  next ht =>
    have hwf : ¬ WaitMalformed x c w := fun hm => by rw [waitTest_of_malformed hm] at ht; cases ht
    rw [waitTest_of_wellFormed hwf] at ht
    simp only [WaitMalformed, not_or, not_not] at hwf
    have hhas : s.smu.has c = false := by cases hh : s.smu.has c <;> simp [hh] at ht ⊢
    have hroom : s.smu.waits.length < 16 := by by_contra hn; simp [hhas, Nat.le_of_not_lt hn] at ht
    refine ItemsLaw.grantScan (s := s.appendWait c w) ⟨h.items.aligned, h.items.apart, ?_, ?_, fun v hv => ?_⟩
    · rw [State.appendWait, List.map_append, ← List.append_assoc]
      exact List.nodup_append.mpr ⟨h.items.once, List.nodup_singleton c, fun a ha d hd hne => by
        obtain rfl : d = c := List.mem_singleton.mp hd
        exact not_mem_cids hhas (hne ▸ ha)⟩
    · rw [State.appendWait, List.length_append]
      exact hroom
    · rcases List.mem_append.mp hv with hv | hv
      · exact h.items.wanted v hv
      · have hw : w = 1 ∨ w = 2 ∨ w = 4 := by omega
        rw [List.mem_singleton.mp hv]
        exact validWidth_iff.mpr hw
  next => exact h

/-! ### An installed snapshot -/

/-- The channels of a snapshot's blocks, from `least` to `top`, are taken one for each unit of width, and so all of them where the
widths fill the range (R18). -/
theorem covered_of_full (hs : List SnapHold) : ∀ least, snapBlocksValid least hs = true →
    least + (hs.map fun h => h.width.toNat).sum ≤ max least Config.channels
      ∧ (least + (hs.map fun h => h.width.toNat).sum = Config.channels → ∀ n, least ≤ n → n < Config.channels →
        ∃ h ∈ hs, h.base.toNat ≤ n ∧ n < h.base.toNat + h.width.toNat) := by
  induction hs with
  | nil =>
    refine fun least _ => ⟨by simp, fun he n h1 h2 => ?_⟩
    simp only [List.map_nil, List.sum_nil, Nat.add_zero] at he
    omega
  | cons x xs ih =>
    intro least hv
    simp only [snapBlocksValid, Bool.and_eq_true, decide_eq_true_eq] at hv
    obtain ⟨⟨⟨-, hle⟩, hleast⟩, htail⟩ := hv
    obtain ⟨hbound, hfull⟩ := ih _ htail
    simp only [List.map_cons, List.sum_cons]
    refine ⟨by omega, fun he n h1 h2 => ?_⟩
    by_cases hn : n < x.base.toNat + x.width.toNat
    · exact ⟨x, List.mem_cons_self, by omega, hn⟩
    · obtain ⟨y, hy, hcover⟩ := hfull (by omega) n (by omega) h2
      exact ⟨y, List.mem_cons_of_mem x hy, hcover⟩

theorem aligned_of_snapBlocksValid (hs : List SnapHold) : ∀ least, snapBlocksValid least hs = true → ∀ h ∈ hs,
    validWidth h.width.toNat = true ∧ h.base.toNat % h.width.toNat = 0 ∧ h.base.toNat + h.width.toNat ≤ Config.channels := by
  induction hs with
  | nil => simp
  | cons x xs ih =>
    intro least hv y hy
    simp only [snapBlocksValid, Bool.and_eq_true, decide_eq_true_eq, beq_iff_eq] at hv
    obtain ⟨⟨⟨⟨hw, hmod⟩, hle⟩, -⟩, htail⟩ := hv
    rcases List.mem_cons.mp hy with rfl | hy
    · exact ⟨hw, hmod, hle⟩
    · exact ih _ htail y hy

/-- A valid snapshot of at most 16 wait entries installs a lawful copy (R18, R20, R32). -/
theorem slotLaw_installedCopy (s : State) {hs : List SnapHold} {ws : List SnapWait} (hv : snapValid hs ws = true)
    (hroom : ws.length ≤ Config.waitCap) : SlotLaw (s.installedCopy hs ws) := by
  simp only [snapValid, Bool.and_eq_true, decide_eq_true_eq, Bool.or_eq_true, beq_iff_eq, List.all_eq_true] at hv
  obtain ⟨⟨⟨⟨⟨hblocks, honce⟩, -⟩, -⟩, hwanted⟩, hfull⟩ := hv
  refine slotLaw_iff.mpr ⟨⟨fun h hh => ?_, ?_, (installedCopy_cids s hs ws).symm ▸ honce, ?_, fun w hw => ?_⟩, ?_⟩
  · obtain ⟨x, hx, rfl⟩ := List.mem_map.mp hh
    exact aligned_of_snapBlocksValid hs 0 hblocks x hx
  · show (hs.map fun h => s.newHold h.cid (h.base.toNat, h.width.toNat)).Pairwise _
    rw [List.pairwise_map]
    exact (pairwise_of_snapBlocksValid hs 0 hblocks).2
  · simpa [State.installedCopy, State.installCopy] using hroom
  · obtain ⟨x, hx, rfl⟩ := List.mem_map.mp hw
    exact hwanted x hx
  · rcases hfull with hempty | hsum
    · exact .inl (by simp [State.installedCopy, State.installCopy, List.isEmpty_iff.mp hempty])
    · refine .inr (freeCount_eq_zero_iff.mpr fun n hn => ?_)
      obtain ⟨x, hx, hcover⟩ := (covered_of_full hs 0 hblocks).2 (by rw [Nat.zero_add, hsum]) n (Nat.zero_le n) hn
      rw [← Bool.not_eq_true, channelFree_iff]
      intro hall
      have hmem : s.newHold x.cid (x.base.toNat, x.width.toNat) ∈ (s.installedCopy hs ws).holds :=
        List.mem_map_of_mem (f := fun h : SnapHold => s.newHold h.cid (h.base.toNat, h.width.toNat)) hx
      have hno := hall _ hmem
      rw [Hold.covers_iff.mpr hcover] at hno
      cases hno

end Sys2Proof.Machine
end

section
/-! PROOFS. Every command keeps the law of the copy, in the chain form of Laws/Keeps.lean: `Slotted t` (R25, R32). -/

namespace Sys2Proof.Machine

/-- The copy of a state is lawful (R1, R2, R24, R25, R32). -/
def Slotted (s : State) : Prop := SlotLaw s.smu

/-- A WAIT changes the copy, and then acts calmly (R26 to R28). -/
theorem calm_waitCopy (s : State) (x : Byte) (c : CallId) (w : Byte) :
    Calm { s with smu := s.waitCopy x c w.toNat } (s.waitTaken x c w) := by
  unfold State.waitTaken State.waitCopy
  cases waitTest s.smu x c w.toNat with
  | none => exact ((Calm.refl (s.appendWait c w.toNat).grantScan).waitOutcome _ _ _).changeReport _
  | some r => exact ((Calm.refl s).waitOutcome _ _ _).changeReport _

namespace Slotted

variable {s t : State}

/-- Calm operations leave the copy alone. -/
theorem calm (h : Slotted s) (k : Calm s t) : Slotted t := by
  unfold Slotted
  rw [k.smu]
  exact h

theorem of_calm (k : Calm s t) (h : Slotted s) : Slotted t := h.calm k

/-- A change of audits keeps the law (R35 to R37). -/
theorem of_sameItems (h : Slotted s) (k : SameItems s.smu t.smu) : Slotted t := SlotLaw.of_sameItems h k

theorem of_empty (h : s.smu = { holds := [], waits := [] }) : Slotted s := by
  unfold Slotted
  rw [h]
  exact slotLaw_empty

theorem nextOverdue (h : Slotted s) : Slotted s.nextOverdue := h.of_sameItems (sameItems_nextOverdue s)

theorem moveTo (h : Slotted s) (n : StationState) (r : StationReason) : Slotted (s.moveTo n r) :=
  calm (s := { s with stc := { s.stc with state := n, locked := n.locks } }) h ((Calm.refl _).post _)

/-! ### Frames that change the copy -/

theorem claimTaken (h : Slotted s) (x : Byte) (c : CallId) (b w : Byte) : Slotted (s.claimTaken x c b w) :=
  of_calm (calm_claimTaken s x c b w) (SlotLaw.claimCopy h x c b w)

theorem waitTaken (h : Slotted s) (x : Byte) (c : CallId) (w : Byte) : Slotted (s.waitTaken x c w) :=
  of_calm (calm_waitCopy s x c w) (SlotLaw.waitCopy h x c w.toNat)

theorem of_freesCopy {x : Byte} {c : CallId} (h : Slotted s) (k : FreesCopy s x c t) : Slotted t :=
  (SlotLaw.freedCopy h c).of_sameItems k.items

theorem releaseTaken (h : Slotted s) (x : Byte) (c : CallId) (k : Byte) : Slotted (s.releaseTaken x c k) :=
  h.of_freesCopy (freesCopy_releaseTaken s x c k)

theorem reclaimTaken (h : Slotted s) (x : Byte) (c : CallId) : Slotted (s.reclaimTaken x c) :=
  h.of_freesCopy (freesCopy_reclaimTaken s x c)

theorem install (s : State) {hs : List SnapHold} {ws : List SnapWait} (hv : snapValid hs ws = true)
    (hroom : ws.length ≤ Config.waitCap) : Slotted (s.install hs ws) :=
  calm (slotLaw_installedCopy s hv hroom) (calm_install s hs ws)

/-! ### The station controller -/

theorem offRiser (s : State) : Slotted s.offRiser := of_empty rfl

theorem enterIsolated (s : State) : Slotted s.enterIsolated := (offRiser s).moveTo _ _

theorem enterConfigured (s : State) (r : StationReason) : Slotted (s.enterConfigured r) :=
  moveTo (s := s.offRiser.purgeLines) (offRiser s) _ _

theorem conflict (s : State) : Slotted s.conflict :=
  (calm (s := s.offRiser.purgeLines) (offRiser s) ((Calm.refl _).post _)).moveTo _ _

theorem riserLost (h : Slotted s) : Slotted s.riserLost := by
  unfold State.riserLost
  split
  · exact enterIsolated s
  · exact enterIsolated s
  · exact enterConfigured s _
  · exact h

theorem enterLearning (s : State) (r : StationReason) : Slotted (s.enterLearning r) :=
  of_calm ((Calm.refl _).queueFrame _) (of_empty rfl)

theorem riserReturned (h : Slotted s) : Slotted s.riserReturned := by
  unfold State.riserReturned
  split
  · exact enterLearning s _
  · exact h

theorem learnRestart (s : State) (r : LearnReason) : Slotted (s.learnRestart r) := by
  have h1 : Slotted (((s.stopLearning).emptyCopy).setOutcome .none) := of_empty rfl
  unfold State.learnRestart
  dsimp only
  split
  · exact h1.calm ((Calm.refl _).post _)
  · exact h1.calm (((Calm.refl _).queueFrame _).post _)

theorem becomeJoined (h : Slotted s) (o : LearnOutcome) : Slotted (s.becomeJoined o) :=
  calm (s := s.learned o) (by unfold Slotted; rw [learned_smu]; exact h) (calm_becomeJoined s o)

theorem learnFrame (h : Slotted s) (x : Byte) (f : Frame) : Slotted (s.learnFrame x f) := by
  unfold State.learnFrame
  split
  · exact h
  · exact learnRestart s _

theorem applyBuffered (h : Slotted s) (x : Byte × Frame) : Slotted (s.applyBuffered x) := by
  obtain ⟨b, f⟩ := x
  have h1 : Slotted s.newEvent := h
  cases f with
  | claim c n w => exact h1.claimTaken b c n w
  | wait c w => exact h1.waitTaken b c w
  | release c k => exact h1.releaseTaken b c k
  | reclaim c => exact h1.reclaimTaken b c
  | offer u w =>
    show Slotted (s.newEvent.directoryOffer b u w)
    unfold State.directoryOffer
    split <;> exact h
  | _ => exact h

theorem learnExpires (h : Slotted s) : Slotted s.learnExpires := by
  refine becomeJoined ?_ _
  generalize s.stc.buffer = l
  induction l generalizing s with
  | nil => exact h
  | cons x l ih => exact ih (h.applyBuffered x)

theorem learnSnapshot (h : Slotted s) {hs : List SnapHold} {ws : List SnapWait} (hroom : ws.length ≤ Config.waitCap) :
    Slotted (s.learnSnapshot hs ws) := by
  unfold State.learnSnapshot
  split
  next hv => exact (install s hv hroom).becomeJoined _
  next => exact h

theorem snapshotTaken (h : Slotted s) (x : Byte) {hs : List SnapHold} {ws : List SnapWait} (hroom : ws.length ≤ Config.waitCap) :
    Slotted (s.snapshotTaken x hs ws) := by
  have h1 : Slotted s.compared := calm (s := s.stopStagger) h ((Calm.refl _).askRecall _)
  unfold State.snapshotTaken State.joinedSnapshot
  split
  · dsimp only
    split
    · exact h1
    next hv =>
      simp only [Bool.or_eq_true, Bool.not_eq_true', not_or, Bool.not_eq_false] at hv
      exact (install _ hv.1 hroom).calm (((Calm.refl _).eachCtx fun _ i c ht => ht.settleCtx i c).staleSelfRelease)
  · exact h

theorem leaveTaken (h : Slotted s) (x : Byte) : Slotted (s.leaveTaken x) := by
  unfold State.leaveTaken
  dsimp only
  split
  · exact enterConfigured _ _
  · exact h

theorem joinTaken (h : Slotted s) (x r : Byte) (u : UnitNum) (w : Byte) : Slotted (s.joinTaken x r u w) := by
  unfold State.joinTaken State.armStagger
  dsimp only
  repeat' split
  all_goals exact h

theorem offerTaken (h : Slotted s) (x : Byte) (u : UnitNum) (w : Byte) : Slotted (s.offerTaken x u w) := by
  have h1 : Slotted (s.directoryOffer x u w) := by
    unfold State.directoryOffer
    split <;> exact h
  unfold State.offerTaken
  dsimp only
  split
  · exact h1.calm (((Calm.refl _).setOffer _).handOut)
  · exact h1

theorem enterLeaving (h : Slotted s) : Slotted s.enterLeaving := by
  have h1 : Slotted ((((s.stopStagger).askRecall ⟨.snapshot, .bare⟩).askRecall s.joinFrame.ident).eachCtx State.restartCtx) :=
    calm (s := s.stopStagger) h ((((Calm.refl _).askRecall _).askRecall _).eachCtx fun _ i c ht => ht.restartCtx i c)
  unfold State.enterLeaving
  dsimp only
  split
  · exact (moveTo (calm h1 ((Calm.refl _).setOffer _)) _ _).calm (Calm.refl _).leaveCheck
  · exact (h1.moveTo _ _).calm (Calm.refl _).leaveCheck

/-! ### Taken frames -/

/-- A taken frame of a count in range acts on a lawful copy (R54, R60). -/
theorem taking (h : Slotted s) (x : Byte) (f : Frame) {learn act : State → State}
    (hl : f.suits = true → ∀ t, Slotted t → Slotted (learn t)) (ha : f.suits = true → ∀ t, Slotted t → Slotted (act t)) :
    Slotted (s.taking x f learn act) := by
  have hd : ∀ t, Slotted t → Slotted (t.deliver x f learn act) := fun t ht => by
    unfold State.deliver
    split
    · exact ht
    next hs =>
      simp only [Bool.not_eq_true, Bool.not_eq_false', Bool.and_eq_true] at hs
      split
      · exact hl hs.2 _ ht
      · exact (ha hs.2 t.newEvent ht).calm (Calm.refl _).leaveCheck
  unfold State.taking
  repeat' split
  · exact h
  · exact hd _ h
  · exact h
  · exact conflict s
  · exact hd _ h

theorem takes (h : Slotted s) (x : Byte) (f : Frame) {act : State → State} (ha : ∀ t, Slotted t → Slotted (act t)) :
    Slotted (s.takes x f act) :=
  h.taking x f (fun _ _ ht => ht.learnFrame x f) fun _ => ha

/-! ### Drops, recalls and timers -/

theorem frameDropped (h : Slotted s) (f : Frame) : Slotted (s.frameDropped f) := by
  cases f with
  | snapshot _ _ => exact h
  | reclaim c => exact (h.of_sameItems (sameItems_setAudit s c _)).nextOverdue
  | join _ _ _ =>
    show Slotted s.joinDropped
    unfold State.joinDropped
    split
    · exact learnRestart s _
    · exact h.calm ((Calm.refl _).queueFrame _)
    · exact h
  | leave => exact enterConfigured s _
  | seek u => exact h.calm ((Calm.refl _).seekDropped u)
  | offer _ _ => exact h.calm (((Calm.refl _).setOffer _).handOut)
  | ring c _ _ _ _ _ => exact h.calm ((Calm.refl _).atCall _ c fun _ i ht => ht.ringDropped i)
  | answer c _ => exact h.calm ((Calm.refl _).atCall _ c fun _ i ht => ht.answerDropped i)
  | refuse _ _ => exact h
  | claim c _ _ => exact h.calm ((Calm.refl _).atCall _ c fun _ i ht => ht.claimDropped i)
  | wait c _ => exact h.calm ((Calm.refl _).atCall _ c fun _ i ht => ht.waitDropped i)
  | release c _ => exact h.calm ((Calm.refl _).atParty c fun _ i ht => ht.releaseDropped i)
  | open_ c => exact h.calm ((Calm.refl _).atCall _ c fun _ i ht => ht.openDropped i)
  | opened _ _ => exact h

theorem ownSpoiled (h : Slotted s) (e : Entry) : Slotted (s.ownSpoiled e) := by
  unfold State.ownSpoiled
  repeat' split
  · exact h
  · exact h
  · exact frameDropped (s := s.dropCarrying.forgetOpenRecall e.frame.ident) h e.frame

theorem recallResult (h : Slotted s) (id : FrameId) (x : RecallAnswer) : Slotted (s.recallResult id x) := by
  unfold State.recallResult
  split
  · split
    · exact h.nextOverdue
    · exact h
  · split
    · exact h.calm (Calm.refl _).handOut
    · exact h
  · exact h.calm ((Calm.refl _).atCall _ _ fun _ i ht => ht.ringAnswer i x)
  · exact h.calm ((Calm.refl _).atCall _ _ fun _ i ht => ht.callFrameAnswer i x)
  · exact h.calm ((Calm.refl _).atCall _ _ fun _ i ht => ht.callFrameAnswer i x)
  · exact h.calm ((Calm.refl _).atCall _ _ fun _ i ht => ht.answerAnswer i)
  · exact h.calm ((Calm.refl _).atParty _ fun _ i ht => ht.releaseAnswer i x)
  · exact h

theorem deliverAnswer (h : Slotted s) (id : FrameId) (x : RecallAnswer) : Slotted (s.deliverAnswer id x) := by
  have h1 : Slotted (s.newEvent.forgetRecall id) := h
  unfold State.deliverAnswer
  dsimp only
  split
  · exact h1.calm (Calm.refl _).leaveCheck
  · exact (h1.recallResult id x).calm (Calm.refl _).leaveCheck

/-- An expiry moves the clock alone before it acts. -/
theorem expire (h : Slotted s) (e : Timer) {act : State → State} (ha : ∀ t, Slotted t → Slotted (act t)) :
    Slotted (s.expire e act) := by
  unfold State.expire
  split
  · exact ha _ h
  · exact h

theorem auditExpires (h : Slotted s) (c : CallId) : Slotted (s.auditExpires c) := by
  have h1 : Slotted (s.setAudit c .overdue) := h.of_sameItems (sameItems_setAudit s c _)
  unfold State.auditExpires State.queueReclaim
  split
  · exact (h1.calm ((Calm.refl _).queueFrame _)).of_sameItems (sameItems_setAudit _ c _)
  · exact h1

theorem modifyRec (h : Slotted s) (i : Ref) (f : PathRec → PathRec) : Slotted (s.modifyRec i f) := by
  unfold State.modifyRec
  split <;> exact h

theorem detectorChanges (h : Slotted s) (x : Half) (n : Channel) (b : Bool) : Slotted (s.detectorChanges x n b) := by
  have hr : ∀ (t : State) (i : Ref), Slotted t → Slotted (match t.path.record i with
      | some r => { t with path := t.path.setRec i (some (t.path.detectorAt t.sport.config.settle t.now x n b r)) }
      | none => t) := fun t i ht => by split <;> exact ht
  exact hr _ _ (hr _ _ (hr _ _ (hr _ _ h)))

theorem settleExpires (h : Slotted s) (i : Ref) : Slotted (s.settleExpires i) := by
  unfold State.settleExpires
  split
  · exact (h.modifyRec i _).calm ((Calm.refl _).reportClears i _ _)
  · exact h.modifyRec i _

theorem unmuteExpires (h : Slotted s) (i : Ref) : Slotted (s.unmuteExpires i) := by
  have h1 := h.modifyRec i fun r => { r with stage := .opened, unmuteTimer := none }
  exact of_calm (((Calm.refl _).pathUp i).postPath i _) h1

theorem carrierLost (h : Slotted s) (i : Ref) : Slotted (s.carrierLost i) :=
  (h.modifyRec i _).calm ((Calm.refl _).reportClears i _ _)

/-! ### Keys, faults and the station port -/

theorem debounceExpires (h : Slotted s) (k : Key) : Slotted (s.debounceExpires k) := by
  have hk : ∀ (t : State) (k : Key) (b : Bool), Slotted t → Slotted (t.keyEvent k b) := fun t k b ht => by
    unfold State.keyEvent
    split
    · exact ht.calm (Calm.refl _).offHook
    · exact ht.calm (Calm.refl _).onHook
    · exact ht.calm (Calm.refl _).doorPress
    · exact calm (s := t.newEvent) ht (Calm.refl _).deskPress
    · exact ht
  exact hk _ _ _ h

theorem sampleFault (h : Slotted s) (k : FaultKind) (b : Bool) : Slotted (s.sampleFault k b) := by
  unfold State.sampleFault State.qualify
  dsimp only
  repeat' split
  · exact h
  · exact h
  · exact of_calm ((Calm.refl _).post _) h
  · exact h

theorem respond (h : Slotted s) (st : Status) (fs : List Byte) (e : Tail) : Slotted (s.respond st fs e) := h

theorem reply (h : Slotted s) (st : Status) : Slotted (s.reply st) := h.respond st [] .nothing

theorem serve (h : Slotted s) (n : Nat) (fs : List Byte) {run : State → State} (hr : ∀ t, Slotted t → Slotted (run t)) :
    Slotted (s.serve n fs run) := by
  unfold State.serve
  split
  · exact hr _ h
  · exact h

theorem onContext (h : Slotted s) (fs : List Byte) {run : State → Ref → Ctx → State} (hr : ∀ i c, Slotted (run s i c)) :
    Slotted (s.onContext fs run) := by
  unfold State.onContext
  repeat' split
  · exact h
  · exact hr _ _
  · exact h
  · exact h

theorem acceptConfig (h : Slotted s) (r : ConfigRecord) : Slotted (s.acceptConfig r) := by
  unfold State.acceptConfig
  dsimp only
  split
  · exact of_calm ((Calm.refl _).post _) h
  · exact h

theorem dial (h : Slotted s) (u : UnitNum) (w : Byte) : Slotted (s.dial u w) := by
  unfold State.dial
  repeat' split
  · exact of_calm (s := s.newEvent) (t := s.newEvent.dialOpen _ u w) ((Calm.refl _).dialOpen _ _ _) h
  · exact h
  · exact h

end Slotted

end Sys2Proof.Machine
end

section
/-! PROOFS. The law of the copy through every command (R25, R32), and after reset. -/

namespace Sys2Proof.Machine

section Commands

variable {s : State}

theorem Slotted.execFrameSpoiled (h : Slotted s) (x : Byte) (r : List Byte) : ∃ t, Machine.execFrameSpoiled x r s = .next t ∧ Slotted t := by
  refine ⟨_, rfl, ?_⟩
  split
  · exact h
  · split
    next e _ => exact (Slotted.ownSpoiled (s := s.newEvent.setMark false) h e).calm (Calm.refl _).leaveCheck
    next => exact h

theorem Slotted.execRecallAnswered (h : Slotted s) (id : FrameId) : ∃ t, Machine.execRecallAnswered id s = .next t ∧ Slotted t := by
  refine ⟨_, rfl, ?_⟩
  split
  · exact h
  · split
    · split
      · split
        · exact h
        · exact Slotted.deliverAnswer (s := s.dropQueued id) h _ _
      · exact h.deliverAnswer _ _
    · exact h
    · exact h.deliverAnswer _ _

theorem Slotted.execOpenTaken (h : Slotted s) (x : Byte) (c : CallId) : ∃ t, Machine.execOpenTaken x c s = .next t ∧ Slotted t := by
  refine ⟨_, rfl, h.takes _ _ fun t ht => ?_⟩
  unfold State.openTaken
  dsimp only
  split
  · exact ht
  · refine Slotted.of_calm (((Calm.refl _).queueFrame _).post _) ?_
    split <;> exact ht

theorem Slotted.execConfigure (h : Slotted s) (fs : List Byte) : ∃ t, Machine.execConfigure fs s = .next t ∧ Slotted t := by
  refine ⟨_, rfl, h.serve _ _ fun t ht => ?_⟩
  repeat' split
  · exact ht.reply _
  · exact (ht.acceptConfig _).reply _
  · exact ht.reply _

theorem Slotted.execJoin (h : Slotted s) (fs : List Byte) : ∃ t, Machine.execJoin fs s = .next t ∧ Slotted t := by
  refine ⟨_, rfl, h.serve _ _ fun t ht => ?_⟩
  repeat' split
  · exact ht.reply _
  · exact (Slotted.enterLearning t _).reply _
  · exact (Slotted.enterIsolated t).reply _
  · exact ht.reply _
  · exact ht.reply _

theorem Slotted.execRestart (h : Slotted s) (fs : List Byte) : ∃ t, Machine.execRestart fs s = .next t ∧ Slotted t := by
  refine ⟨_, rfl, h.serve _ _ fun t ht => ?_⟩
  repeat' split
  · exact ht.reply _
  · exact ht.reply _
  · exact (Slotted.enterConfigured t _).reply _
  · exact (Slotted.enterConfigured t _).reply _
  · exact (ht.enterLeaving).reply _
  · exact ht.reply _

theorem Slotted.execSetDnd (h : Slotted s) (fs : List Byte) : ∃ t, Machine.execSetDnd fs s = .next t ∧ Slotted t := by
  refine ⟨_, rfl, h.serve _ _ fun t ht => ?_⟩
  repeat' split
  all_goals exact ht

theorem Slotted.execClearFault (h : Slotted s) (fs : List Byte) : ∃ t, Machine.execClearFault fs s = .next t ∧ Slotted t := by
  refine ⟨_, rfl, h.serve _ _ fun t ht => ?_⟩
  dsimp only
  repeat' split
  all_goals exact ht

theorem Slotted.execReadLine (h : Slotted s) (fs : List Byte) : ∃ t, Machine.execReadLine fs s = .next t ∧ Slotted t := by
  refine ⟨_, rfl, h.serve _ _ fun t ht => ?_⟩
  split <;> exact ht

theorem Slotted.execReadContext (h : Slotted s) (fs : List Byte) : ∃ t, Machine.execReadContext fs s = .next t ∧ Slotted t := by
  refine ⟨_, rfl, h.serve _ _ fun t ht => ?_⟩
  split <;> exact ht

theorem Slotted.execOpenDoor (h : Slotted s) (fs : List Byte) : ∃ t, Machine.execOpenDoor fs s = .next t ∧ Slotted t := by
  refine ⟨_, rfl, h.serve _ _ fun t ht => ht.onContext _ fun i c => ?_⟩
  split
  · exact (ht.calm ((Calm.refl _).requestDoor i _)).reply _
  · exact ht.reply _

theorem Slotted.execHangup (h : Slotted s) (fs : List Byte) : ∃ t, Machine.execHangup fs s = .next t ∧ Slotted t := by
  refine ⟨_, rfl, h.serve _ _ fun t ht => ht.onContext _ fun i c => ?_⟩
  split
  · exact (ht.calm ((Calm.refl _).hangUp i c)).reply _
  · exact ht.reply _

theorem Slotted.execDial (h : Slotted s) (fs : List Byte) : ∃ t, Machine.execDial fs s = .next t ∧ Slotted t := by
  refine ⟨_, rfl, h.serve _ _ fun t ht => ?_⟩
  split
  · exact ht.dial _ _
  · exact ht.reply _

theorem Slotted.execAnswer (h : Slotted s) (fs : List Byte) : ∃ t, Machine.execAnswer fs s = .next t ∧ Slotted t := by
  refine ⟨_, rfl, h.serve _ _ fun t ht => ht.onContext _ fun i c => ?_⟩
  split
  · exact (ht.calm ((Calm.refl _).acceptAnswer i)).reply _
  · exact ht.reply _

end Commands

theorem slotted_exec {s t : State} (c : Instr) (h : Slotted s) (ht : exec c s = .next t) : Slotted t := by
  suffices hs : ∃ t, exec c s = .next t ∧ Slotted t by
    obtain ⟨t', ht', hs⟩ := hs
    rw [ht] at ht'
    cases ht'
    exact hs
  cases c with
  | powerOnReset => exact ⟨_, rfl, .of_empty rfl⟩
  | supplyFalls =>
    refine ⟨_, rfl, ?_⟩
    split <;> exact h
  | supplyRises =>
    refine ⟨_, rfl, ?_⟩
    split <;> exact h
  | supplyLossTimerExpiry =>
    refine ⟨_, rfl, ?_⟩
    split
    next e _ => exact Slotted.riserLost (s := (s.at e).loseSupply) h
    next => exact h
  | returnTimerExpiry =>
    refine ⟨_, rfl, ?_⟩
    split
    next e _ => exact Slotted.riserReturned (s := (s.at e).regainSupply) h
    next => exact h
  | polarityFound b =>
    refine ⟨_, rfl, ?_⟩
    split <;> exact h
  | opening o n =>
    refine ⟨_, rfl, ?_⟩
    repeat' split
    all_goals exact h
  | readBackMismatch =>
    refine ⟨_, rfl, ?_⟩
    split
    · exact .conflict s
    · exact h
  | frameSpoiled x r => exact h.execFrameSpoiled x r
  | recallAnswered id => exact h.execRecallAnswered id
  | unsuitedFrameTaken x k b =>
    refine ⟨_, rfl, ?_⟩
    split
    · exact .conflict s
    · exact h
  | snapshotTaken x hs ws =>
    have hroom : (Frame.snapshot hs ws).suits = true → ws.length ≤ Config.waitCap := fun hf => by
      simp only [Frame.suits, Bool.and_eq_true, decide_eq_true_eq] at hf
      exact hf.2
    exact ⟨_, rfl, h.taking _ _ (fun hf _ ht => ht.learnSnapshot (hroom hf)) fun hf _ ht => ht.snapshotTaken x (hroom hf)⟩
  | reclaimTaken x c => exact ⟨_, rfl, h.takes _ _ fun _ ht => ht.reclaimTaken x c⟩
  | joinTaken x r u w => exact ⟨_, rfl, h.takes _ _ fun _ ht => ht.joinTaken x r u w⟩
  | leaveTaken x => exact ⟨_, rfl, h.takes _ _ fun _ ht => ht.leaveTaken x⟩
  | seekTaken x u => exact ⟨_, rfl, h.takes _ _ fun _ ht => ht.calm ((Calm.refl _).seekTaken x u)⟩
  | offerTaken x u w => exact ⟨_, rfl, h.takes _ _ fun _ ht => ht.offerTaken x u w⟩
  | ringTaken x c u w r p ms => exact ⟨_, rfl, h.takes _ _ fun _ ht => ht.calm ((Calm.refl _).ringAny x c u w r p ms)⟩
  | answerTaken x c w => exact ⟨_, rfl, h.takes _ _ fun _ ht => ht.calm ((Calm.refl _).answerTaken x c w)⟩
  | refuseTaken x c r => exact ⟨_, rfl, h.takes _ _ fun _ ht => ht.calm ((Calm.refl _).refuseTaken x c r)⟩
  | claimTaken x c b w => exact ⟨_, rfl, h.takes _ _ fun _ ht => ht.claimTaken x c b w⟩
  | waitTaken x c w => exact ⟨_, rfl, h.takes _ _ fun _ ht => ht.waitTaken x c w⟩
  | releaseTaken x c k => exact ⟨_, rfl, h.takes _ _ fun _ ht => ht.releaseTaken x c k⟩
  | openTaken x c => exact h.execOpenTaken x c
  | openedTaken x c r => exact ⟨_, rfl, h.takes _ _ fun _ ht => ht.calm ((Calm.refl _).openedTaken x c r)⟩
  | learnTimerExpiry => exact ⟨_, rfl, h.expire _ fun _ ht => ht.learnExpires⟩
  | staggerTimerExpiry =>
    refine ⟨_, rfl, h.expire _ fun t ht => ?_⟩
    unfold State.staggerExpires
    split
    · exact Slotted.of_calm ((Calm.refl _).queueFrame _) ht
    · exact ht
  | auditExpiry c => exact ⟨_, rfl, h.expire _ fun _ ht => ht.auditExpires c⟩
  | seekWindowExpiry u =>
    refine ⟨_, rfl, ?_⟩
    split
    · exact h.expire _ fun t ht => Slotted.calm (s := t.newEvent) ht ((Calm.refl _).endSeek _)
    · exact h
  | ringTimerExpiry i => exact ⟨_, rfl, h.expire _ fun t ht => Slotted.calm (s := t.newEvent) ht ((Calm.refl _).ringExpires i)⟩
  | waitTimerExpiry i => exact ⟨_, rfl, h.expire _ fun _ ht => ht.calm ((Calm.refl _).clearOrigin i _ _)⟩
  | talkTimerExpiry i => exact ⟨_, rfl, h.expire _ fun _ ht => ht.calm ((Calm.refl _).clearOrigin i _ _)⟩
  | alertLimitExpiry i => exact ⟨_, rfl, h.expire _ fun _ ht => ht.calm ((Calm.refl _).endNow i _)⟩
  | pathWaitExpiry i => exact ⟨_, rfl, h.expire _ fun _ ht => ht.calm ((Calm.refl _).clearAnswer i _)⟩
  | carrierDetectorChange x n b =>
    refine ⟨_, rfl, ?_⟩
    split
    · exact h
    · exact h.detectorChanges _ _ _
  | settleTimerExpiry i => exact ⟨_, rfl, h.expire _ fun _ ht => ht.settleExpires i⟩
  | unmuteTimerExpiry i => exact ⟨_, rfl, h.expire _ fun _ ht => ht.unmuteExpires i⟩
  | carrierLossTimerExpiry i n => exact ⟨_, rfl, h.expire _ fun _ ht => ht.carrierLost i⟩
  | muteTimerExpiry i => exact ⟨_, rfl, h.expire _ fun _ ht => ht.calm ((Calm.refl _).muteExpires i)⟩
  | keyInputChange k b => exact ⟨_, rfl, h⟩
  | debounceTimerExpiry k => exact ⟨_, rfl, h.expire _ fun _ ht => ht.debounceExpires k⟩
  | replyWaitExpiry i => exact ⟨_, rfl, h.expire _ fun _ ht => ht.calm ((Calm.refl _).replyExpires i)⟩
  | strikePulseExpiry => exact ⟨_, rfl, h.expire _ fun _ ht => ht⟩
  | ringerPhaseExpiry =>
    refine ⟨_, rfl, ?_⟩
    split
    · exact h
    · exact h.expire _ fun _ ht => ht
  | faultQualifies k =>
    refine ⟨_, rfl, ?_⟩
    split
    · exact h
    · exact h.sampleFault _ _
  | configure fs => exact h.execConfigure fs
  | join fs => exact h.execJoin fs
  | restart fs => exact h.execRestart fs
  | dial fs => exact h.execDial fs
  | answer fs => exact h.execAnswer fs
  | hangup fs => exact h.execHangup fs
  | openDoor fs => exact h.execOpenDoor fs
  | setDnd fs => exact h.execSetDnd fs
  | clearFault fs => exact h.execClearFault fs
  | purge fs => exact ⟨_, rfl, h.serve _ _ fun _ ht => ht⟩
  | readNotice fs => exact ⟨_, rfl, h.serve _ _ fun _ ht => ht⟩
  | noticeRemoved =>
    refine ⟨_, rfl, ?_⟩
    repeat' split
    all_goals exact h
  | readStatus fs => exact ⟨_, rfl, h.serve _ _ fun _ ht => ht⟩
  | overflowFlagCleared =>
    refine ⟨_, rfl, ?_⟩
    repeat' split
    all_goals exact h
  | readSlots fs => exact ⟨_, rfl, h.serve _ _ fun _ ht => ht⟩
  | readWaits fs => exact ⟨_, rfl, h.serve _ _ fun _ ht => ht⟩
  | readLine fs => exact h.execReadLine fs
  | readContext fs => exact h.execReadContext fs
  | unknownRequest c fs =>
    refine ⟨_, rfl, ?_⟩
    split <;> exact h
  | transactionDiscarded => exact ⟨_, rfl, h⟩
  | faultSample x y =>
    exact ⟨_, rfl, (Slotted.sampleFault (s := { s with now := s.now + 1 }) h .strike x).sampleFault .ringer y⟩

/-- Settles O55: every change of the copy is a claim, a wait with its scan, a removal with its scan, an installed snapshot, a
change of audits, or an emptying, and each keeps the law. -/
theorem slotLawIsKept : Obligations.SlotLawIsKept := by
  intro s t h hstep
  unfold step at hstep
  split at hstep
  · cases hstep
    exact h
  next c cs _ => exact slotted_exec (s := { s with pending := cs }) c h hstep

/-! ### Reset -/

/-- Settles O54: after reset nothing is held, queued, posted or live. -/
theorem resetIsLawful : Obligations.ResetIsLawful := by
  have hctx : ∀ i : Ref, State.reset.ctx i = none := by decide
  have hline : ∀ k, State.reset.udir.lineAt k = none := fun k => by simp [State.reset, Udir.lineAt]
  have hlive : State.reset.liveCount = 0 := liveCount_eq_zero_iff.mpr hctx
  have hidle : IdleLaw State.reset :=
    ⟨fun _ => ⟨hctx, rfl, by decide, fun n => by
      by_cases hn : n < 24 <;> simp [State.reset, Path.enable, hn], rfl, rfl⟩, fun _ => rfl⟩
  refine ⟨slotLaw_empty, ⟨fun k l hl => ?_, fun j k l m a hl => ?_⟩, ⟨fun k => Nat.zero_le _, by simp [State.reset], Nat.zero_le _⟩,
    ⟨Nat.zero_le _, rfl, rfl⟩, ⟨rfl, hidle, by rw [hlive]; exact Nat.zero_le _, fun _ => by decide⟩, fun i c hc => ?_,
    fun _ => rfl, ⟨fun _ => by decide, fun _ => rfl⟩, fun i => ?_, fun i hi => ?_⟩
  · rw [hline] at hl; cases hl
  · rw [hline] at hl; cases hl
  · rw [hctx] at hc; cases hc
  · have hoff : State.reset.oku.alerting[i] = false := by revert i; decide
    simp [hoff, hctx]
  · have hnone : State.reset.oku.door[i] = none := by revert i; decide
    exact absurd hnone hi

end Sys2Proof.Machine
end

section
/-! PROOFS. The stagger timer and the audits (R35, R36, R71). -/

namespace Sys2Proof.Machine

/-- A queue request, accepted or not, leaves RIF with the queue that the statements name (R47, R48). -/
theorem queueFrame_eq (s : State) (f : Frame) : s.queueFrame f = { s with rif := { s.rif with queue := s.queueWith f } } := by
  cases h : s.accepts f
  · rw [queueFrame_full h]
    simp [State.queueWith, h]
  · rw [queueFrame_accepted h]
    simp [State.queueWith, h, Entry.fresh]

/-- What RIF accepts depends on its queue and the station state (R48). -/
theorem accepts_congr {s t : State} (hq : t.rif.queue = s.rif.queue) (hs : t.stc.state = s.stc.state) (f : Frame) :
    t.accepts f = s.accepts f := by
  unfold State.accepts Rif.count
  rw [hq, hs]

theorem queueWith_congr {s t : State} (hq : t.rif.queue = s.rif.queue) (hs : t.stc.state = s.stc.state) (f : Frame) :
    t.queueWith f = s.queueWith f := by
  unfold State.queueWith
  rw [hq, accepts_congr hq hs]

/-- The RECLAIM slot is free where RIF accepts the RECLAIM and no "recalled" is on its way back (R35, R36). -/
theorem slotFree_iff {s : State} {c : CallId} :
    s.slotFree c = true ↔ s.accepts (.reclaim c) = true
      ∧ ∀ r ∈ s.rif.recalls, r.id.kind = .reclaim → r.status ≠ .answered .recalled := by
  simp [State.slotFree, State.placeHeld]

/-- The last setting of a call id's audit stands (R35). -/
theorem setAudit_setAudit (s : State) (c : CallId) (a b : Audit) : (s.setAudit c a).setAudit c b = s.setAudit c b := by
  unfold State.setAudit
  simp only [List.map_map]
  congr 2
  all_goals
    refine List.map_congr_left fun x _ => ?_
    simp only [Function.comp]
    by_cases h : x.cid = c <;> simp [h]

theorem setAudit_queueFrame (s : State) (c : CallId) (a : Audit) (f : Frame) :
    (s.setAudit c a).queueFrame f = (s.queueFrame f).setAudit c a := by
  rw [queueFrame_eq, queueFrame_eq]
  rfl

/-- The stagger timer's expiry (R71). -/
theorem staggerExpires_eq (s : State) :
    s.staggerExpires =
      { s with
        stc := { s.stc with stagger := none }
        rif := { s.rif with queue := if s.stc.state = .joined then s.queueWith (.snapshot [] []) else s.rif.queue } } := by
  unfold State.staggerExpires
  by_cases h : s.stc.state = .joined
  · rw [if_pos h, if_pos h, queueFrame_eq, queueWith_congr (s := s) rfl rfl]
    rfl
  · rw [if_neg h, if_neg h]
    rfl

/-- An audit's expiry where the slot is free (R35). -/
theorem auditExpires_free {s : State} {c : CallId} (h : s.slotFree c = true) :
    s.auditExpires c =
      { (s.setAudit c .reclaimQueued) with rif := { s.rif with queue := s.rif.queue ++ [Entry.fresh (.reclaim c)] } } := by
  have hfree : (s.setAudit c .overdue).slotFree c = true := h
  rw [State.auditExpires, State.queueReclaim, if_pos hfree, setAudit_queueFrame, setAudit_setAudit,
    queueFrame_accepted (slotFree_iff.mp h).1]
  rfl

/-- An audit's expiry where it is not (R35). -/
theorem auditExpires_taken {s : State} {c : CallId} (h : s.slotFree c = false) : s.auditExpires c = s.setAudit c .overdue := by
  have hfree : (s.setAudit c .overdue).slotFree c = false := h
  rw [State.auditExpires, State.queueReclaim, if_neg (by rw [hfree]; decide)]

/-- Settles O37. -/
theorem staggerAndAuditExpiries : Obligations.StaggerAndAuditExpiries := by
  refine fun s e => ⟨fun hs => ?_, fun c hc => ?_⟩
  · show Host.Outcome.next (s.expire s.stc.stagger State.staggerExpires) = _
    rw [hs, State.expire, staggerExpires_eq]
    rfl
  · intro free expired
    have hexec : exec (.auditExpiry c) s = .next ((s.at e).auditExpires c) := by
      show Host.Outcome.next (s.expire (s.smu.auditExpiry c) fun t => t.auditExpires c) = _
      rw [hc, State.expire]
    refine ⟨fun hf => ?_, fun hf => ?_⟩
    · show exec (.auditExpiry c) s = _
      rw [hexec, auditExpires_free (s := s.at e) (slotFree_iff.mpr hf)]
      rfl
    · show exec (.auditExpiry c) s = _
      rw [hexec, auditExpires_taken (s := s.at e) (Bool.eq_false_iff.mpr fun h => hf (slotFree_iff.mp h))]
      rfl

end Sys2Proof.Machine
end

section
/-! PROOFS. A final clearing of an ORIGIN context that has no path: its RELEASE queued, or its end (R121, R123). -/

namespace Sys2Proof.Machine

/-- A context in CLEARING with its queued frames recalled, before its RELEASE falls due (R121 steps 1 to 3). -/
def State.clearedAt (a : State) (i : Ref) (y : Ctx) (k : Cause) : State := (a.enterClearing i k true).recallCall y.cid

/-- The RELEASE of a clearing that found no cause before carries the clearing's (R119, R121). -/
theorem releaseFrame_cleared {y : Ctx} (hc : y.cause = none) (k : Cause) :
    (y.cleared k).releaseFrame = .release y.cid (causeByte (some k)) := by
  simp [Ctx.releaseFrame, Ctx.cleared, Ctx.firstCause, Ctx.stopTimers, hc]

section ClearedAt

variable {a : State} {i : Ref} {y : Ctx} (hy : a.ctx i = some y) (k : Cause)

@[simp] theorem clearedAt_smu : (a.clearedAt i y k).smu = a.smu := by simp [State.clearedAt]
@[simp] theorem clearedAt_stc : (a.clearedAt i y k).stc = a.stc := by simp [State.clearedAt]
@[simp] theorem clearedAt_queue : (a.clearedAt i y k).rif.queue = a.rif.queue := by simp [State.clearedAt]
@[simp] theorem clearedAt_path : (a.clearedAt i y k).path = a.path := by simp [State.clearedAt]

theorem queued_clearedAt (id : FrameId) : (a.clearedAt i y k).queued id = a.queued id := by
  unfold State.queued
  rw [clearedAt_queue]

include hy

theorem ctx_clearedAt : (a.clearedAt i y k).ctx i = some (y.cleared k) :=
  (ctx_recallCall _ _ i).trans (ctx_enterClearing k hy)

/-- The clearing's one notice is CALL_ENDED, with the first cause (R119, R121). -/
theorem posted_clearedAt (hp : y.endPosted = false) :
    Posted (.callEnded i y.cid (some (y.cause.getD k))) (a.clearedAt i y k) := by
  let z : Ctx := { (y.stopTimers).firstCause k with
    state := .clearing, reversible := false, forward := if y.forward = .seeking then .none else y.forward }
  have hz : ((a.modifyCtx i fun c => { (c.stopTimers).firstCause k with
      state := .clearing, reversible := !true, forward := if c.forward = .seeking then .none else c.forward }).dropDuties i).ctx i
        = some z := by simp [State.ctx_modifyCtx, hy, z]
  have hzp : z.endPosted = false := hp
  refine Posted.of_sport ?_ (recallCall_sport _ y.cid)
  rw [State.enterClearing, if_pos rfl, postEnd_eq hz, hzp]
  exact (posted_post _ _).of_sport rfl

/-- A call that was never announced, with no RING queued, sends no RELEASE: it ends (R121 step 5). -/
theorem sendRelease_clearedAt_frees (hann : y.announced = false) (hside : y.side = .origin)
    (hq : a.queued ⟨.ring, .call y.cid⟩ = false) : (a.clearedAt i y k).sendRelease i = (a.clearedAt i y k).freeCtx i := by
  have hq' : (a.clearedAt i y k).queued ⟨.ring, .call (y.cleared k).cid⟩ = false := (queued_clearedAt k _).trans hq
  have hn : ¬ ((y.cleared k).announced = true ∨ (y.cleared k).side = .answer) := by
    simp [Ctx.cleared, Ctx.firstCause, Ctx.stopTimers, hann, hside]
  simp only [State.sendRelease, ctx_clearedAt hy k, if_neg hn, hq', Bool.false_eq_true, if_false]

/-- A context that has posted CALL_ENDED is freed without a notice (R123). -/
theorem freeCtx_clearedAt : (a.clearedAt i y k).freeCtx i = (a.clearedAt i y k).setCtx i none := by
  rw [State.freeCtx, postEnd_eq (ctx_clearedAt hy k)]
  rfl

end ClearedAt

section ClearOrigin

variable {a : State} {i : Ref} {y : Ctx} (hy : a.ctx i = some y)
include hy

/-- CALL_ENDED is said by every final clearing (R121). -/
theorem endSaid_clearOrigin (k : Cause) : EndSaid i y k a (a.clearOrigin i k true) := by
  refine (endSaid_enterClearing hy k).mono (Calm.posted ?_)
  have h1 := (Calm.refl (a.enterClearing i k true)).recallCall y.cid
  simp only [State.clearOrigin, hy]
  split
  · exact h1.teardownThenRelease i
  · exact h1.sendRelease i

/-- Outside SETTLING and TALK no path is torn down, and the RELEASE falls due at once (R121). -/
theorem clearOrigin_bare (hbare : y.state ≠ .settling ∧ y.state ≠ .talk) (k : Cause) :
    a.clearOrigin i k true = (a.clearedAt i y k).sendRelease i := by
  simp only [State.clearOrigin, hy]
  exact if_neg fun h => h.elim hbare.1 hbare.2

/-- An announced call without a path clears with its RELEASE queued, where RIF has room (R121 step 5). -/
theorem clearOrigin_released (hbare : y.state ≠ .settling ∧ y.state ≠ .talk) (hann : y.announced = true) (k : Cause)
    (ha : a.accepts (y.cleared k).releaseFrame = true) :
    (a.clearOrigin i k true).ctx i = some { y.cleared k with awaits := .release }
      ∧ (a.clearOrigin i k true).rif.queue = a.rif.queue ++ [Entry.fresh (y.cleared k).releaseFrame] := by
  have ha' : (a.clearedAt i y k).accepts (y.cleared k).releaseFrame = true := by
    rw [accepts_congr (clearedAt_queue k) (by rw [clearedAt_stc])]
    exact ha
  rw [clearOrigin_bare hy hbare, sendRelease_accepted (ctx_clearedAt hy k) (.inl hann) ha', queueFrame_accepted ha']
  refine ⟨by rw [State.ctx_setCtx, if_pos rfl], ?_⟩
  rw [State.setCtx_rif]
  exact congrArg (· ++ [Entry.fresh (y.cleared k).releaseFrame]) (clearedAt_queue k)

/-- A call without a path whose RING was never taken and is not queued ends, its other frames recalled (R121). -/
theorem clearOrigin_ended (hbare : y.state ≠ .settling ∧ y.state ≠ .talk) (hann : y.announced = false) (hside : y.side = .origin)
    (hq : a.queued ⟨.ring, .call y.cid⟩ = false) (k : Cause) :
    a.clearOrigin i k true = (a.clearedAt i y k).setCtx i none := by
  rw [clearOrigin_bare hy hbare, sendRelease_clearedAt_frees hy k hann hside hq, freeCtx_clearedAt hy k]

end ClearOrigin

end Sys2Proof.Machine
end

section
/-! PROOFS. A taken WAIT (R26 to R28, R116, R117). -/

namespace Sys2Proof.Machine

/-! ### Outcome and report -/

theorem OtherCallsKept.waitOutcome {s a : State} {c : CallId} (h : OtherCallsKept c s a) (x : Byte) (r : WaitResult) :
    OtherCallsKept c s (a.waitOutcome x c r) := by
  refine h.eachCtx (ks := fun _ => True) (fun t i y hy => if_pos hy) fun t i y j hij => ?_
  have h := Spares.refl (ks := fun _ => True) j t
  repeat' split
  · exact h
  · exact h.outcomeAtAnswer hij y
  · exact h
  · exact h.enterWaiting hij _
  · exact h.clearOrigin trivial hij _ _
  · exact h.clearOrigin trivial hij _ _
  · exact h

/-- The report of a WAIT lists its grants and nothing else (R12, R28). -/
def waitReport (x own : Byte) (c : CallId) (gs : List NewHold) : Report :=
  { kind := .wait, cid := c, own := decide (x = own), newHolds := gs }

theorem reportAt_waitReport_nil (x own : Byte) (c : CallId) (s : State) (i : Ref) (y : Ctx) :
    State.reportAt (waitReport x own c []) s i y = s := by
  simp [State.reportAt, waitReport]

section WaitTaken

variable {s : State} {x : Byte} {c : CallId} {w : Byte}

theorem waitTaken_refused {r : WaitReason} (h : waitTest s.smu x c w.toNat = some r) :
    s.waitTaken x c w = (s.waitOutcome x c (.refused r)).changeReport (waitReport x s.own c []) := by
  simp only [State.waitTaken, h, waitReport]

/-- The state with the new entry in the list and the scan made (R27). -/
def State.waitScanned (s : State) (c : CallId) (w : Nat) : State := (s.appendWait c w).grantScan

theorem waitTaken_added (h : waitTest s.smu x c w.toNat = none) :
    s.waitTaken x c w =
      ((s.waitScanned c w.toNat).waitOutcome x c (.added (((s.waitScanned c w.toNat).smu.position c).getD 0))).changeReport
        (waitReport x s.own c (s.appendWait c w.toNat).grants) := by
  simp only [State.waitTaken, h, waitReport, State.waitScanned]

/-- With no channel free the new entry is last in the list, and nothing is granted (R27, R30). -/
theorem appendWait_full (hf : freeCount s.smu.holds = 0) :
    s.waitScanned c w.toNat = s.appendWait c w.toNat ∧ (s.appendWait c w.toNat).grants = [] := by
  have hfull := scanFrom_full (mk := (s.appendWait c w.toNat).newHold) (hs := (s.appendWait c w.toNat).smu.holds) hf
    (s.appendWait c w.toNat).smu.waits
  constructor
  · rw [State.waitScanned, State.grantScan, hfull]
  · rw [State.grants, hfull]

/-- With a channel free the list was empty, and the scan grants the new entry alone (R30, R32). -/
theorem appendWait_granted (hl : SlotLaw s.smu) {k : Block} (hk : placement s.smu.holds w.toNat = some k) :
    (s.waitScanned c w.toNat).smu = ⟨insertHold (s.newHold c k) s.smu.holds, []⟩
      ∧ (s.appendWait c w.toNat).grants = [⟨c, k, decide (k.2 < w.toNat)⟩] := by
  have hf : freeCount s.smu.holds ≠ 0 := fun h => by rw [placement_eq_none.mpr (.inl h)] at hk; cases hk
  have happend : (s.appendWait c w.toNat).smu = ⟨s.smu.holds, [⟨c, w.toNat, s.stamp, s.waitAudit⟩]⟩ := by
    simp [State.appendWait, hl.done.resolve_right hf]
  constructor
  · rw [State.waitScanned, State.grantScan, happend]
    simp only [scanFrom_grant (w := ⟨c, w.toNat, s.stamp, s.waitAudit⟩) hk, scanFrom_nil]
    rfl
  · rw [State.grants, happend]
    simp only [scanFrom_grant (w := ⟨c, w.toNat, s.stamp, s.waitAudit⟩) hk, scanFrom_nil]

/-- Only the WAIT's own call can be granted at its taking (R32). -/
theorem appendWait_grants_cid (hl : SlotLaw s.smu) {g : NewHold} (hg : g ∈ (s.appendWait c w.toNat).grants) : g.cid = c := by
  cases hk : placement s.smu.holds w.toNat with
  | some k =>
    rw [(appendWait_granted hl hk).2, List.mem_singleton] at hg
    rw [hg]
  | none =>
    rcases placement_eq_none.mp hk with hf | hw
    · rw [(appendWait_full hf).2] at hg
      cases hg
    · have hnone : ∀ hs, placement hs 0 = none := fun hs => placement_eq_none.mpr (.inr rfl)
      rcases hl.done with hempty | hf
      · rw [State.grants, State.appendWait, hempty, hw, List.nil_append, scanFrom_stop (hnone _)] at hg
        cases hg
      · rw [(appendWait_full hf).2] at hg
        cases hg

theorem otherCallsKept_waitTaken (hl : SlotLaw s.smu) : OtherCallsKept c s (s.waitTaken x c w) := by
  cases h : waitTest s.smu x c w.toNat with
  | none =>
    rw [waitTaken_added h]
    refine OtherCallsKept.changeReport (OtherCallsKept.waitOutcome ?_ _ _) rfl rfl fun g hg => appendWait_grants_cid hl hg
    exact OtherCallsKept.of_ctxs (OtherCallsKept.refl c s) fun _ => rfl
  | some r =>
    rw [waitTaken_refused h]
    exact ((OtherCallsKept.refl c s).waitOutcome _ _).changeReport rfl rfl (by simp [waitReport])

end WaitTaken

/-! ### The own WAIT at its context -/

/-- What the outcome of the own WAIT does at its CLAIMING context (R28, R116). -/
def State.ownWait (s : State) (i : Ref) : WaitResult → State
  | .added 0 => s
  | .added p => s.enterWaiting i p
  | .refused .full => s.clearOrigin i .congested true
  | .refused _ => s.clearOrigin i .pathFault true

section OwnWait

variable {a : State} {i : Ref} {y : Ctx} (hi : a.ctx i = some y) (hside : y.side = .origin) (hstate : y.state = .claiming)
  (hone : ∀ j z, a.ctx j = some z → j ≠ i → z.cid ≠ y.cid)

theorem spares_ownWait {j : Ref} (hj : j ≠ i) (r : WaitResult) : Spares (fun _ => True) j a (a.ownWait i r) := by
  have h := Spares.refl (ks := fun _ => True) j a
  unfold State.ownWait
  split
  · exact h
  · exact h.enterWaiting hj _
  · exact h.clearOrigin trivial hj _ _
  · exact h.clearOrigin trivial hj _ _

include hi hside hstate hone

/-- The outcome of the own WAIT acts at its context, and touches no other (R28). -/
theorem waitOutcome_own (r : WaitResult) : a.waitOutcome a.own y.cid r = a.ownWait i r := by
  refine (eachCtx_only hi (fun j z t hj hz => if_pos (hone j z hz hj)) fun j hj => ?_).trans ?_
  · simp only [ne_eq, not_true_eq_false, if_false, hside, hstate, and_self, if_true]
    exact (spares_ownWait hj r).ctx
  · simp only [ne_eq, not_true_eq_false, if_false, hside, hstate, and_self, if_true]
    rfl

end OwnWait

end Sys2Proof.Machine
end

section
/-! PROOFS. The own WAIT refused, appended or granted (R26 to R28, R30, R116, R117). -/

namespace Sys2Proof.Machine

/-- The cause with which a refused WAIT clears its call (R116). -/
def WaitReason.cause (r : WaitReason) : Cause := if r = .full then .congested else .pathFault

/-- A new entry stands behind the others (R24, R27). -/
theorem position_appendWait {s : State} {c : CallId} (h : ∀ v ∈ s.smu.waits, v.cid ≠ c) (w : Nat) :
    (s.appendWait c w).smu.position c = some (s.smu.waits.length + 1) := by
  have hnone : s.smu.waits.findIdx? (fun v => decide (v.cid = c)) = none := by simpa [List.findIdx?_eq_none_iff] using h
  simp [State.appendWait, Smu.position, List.findIdx?_append, hnone]

theorem waitTest_none_has {m : Smu} {x : Byte} {c : CallId} {w : Nat} (h : waitTest m x c w = none) : m.has c = false := by
  have hwf : ¬ WaitMalformed x c w := fun hm => by rw [waitTest_of_malformed hm] at h; cases h
  rw [waitTest_of_wellFormed hwf] at h
  cases hh : m.has c with
  | false => rfl
  | true => simp [hh] at h

section OwnWaitTaken

variable {s : State} {w : Byte} {i : Ref} {y : Ctx} (hi : s.ctx i = some y) (hside : y.side = .origin)
  (hstate : y.state = .claiming) (hone : ∀ j z, s.ctx j = some z → j ≠ i → z.cid ≠ y.cid)
include hi hside hstate hone

/-- The own WAIT refused: a final clearing, and the owner re-reckoned (R28, R116). -/
theorem waitTaken_own_refused {r : WaitReason} (ht : waitTest s.smu s.own y.cid w.toNat = some r) :
    s.waitTaken s.own y.cid w = (s.clearOrigin i r.cause true).reckonOwner := by
  have hact : s.ownWait i (.refused r) = s.clearOrigin i r.cause true := by cases r <;> rfl
  rw [waitTaken_refused ht, waitOutcome_own hi hside hstate hone, hact]
  exact changeReport_idle rfl fun j z _ => reportAt_waitReport_nil _ _ _ _ _ _

/-- The own WAIT added and not granted: its context waits at the end of the list (R28, R116). -/
theorem waitTaken_own_full (ht : waitTest s.smu s.own y.cid w.toNat = none) (hf : freeCount s.smu.holds = 0) :
    s.waitTaken s.own y.cid w =
      ((s.appendWait y.cid w.toNat).enterWaiting i (s.smu.waits.length + 1)).reckonOwner := by
  obtain ⟨hscan, hgrants⟩ := appendWait_full (c := y.cid) (w := w) hf
  have hpos := position_appendWait (Smu.has_eq_false_iff.mp (waitTest_none_has ht)).2 w.toNat
  rw [waitTaken_added ht, hscan, hgrants, hpos, Option.getD_some]
  have hout : (s.appendWait y.cid w.toNat).waitOutcome s.own y.cid (.added (s.smu.waits.length + 1))
      = (s.appendWait y.cid w.toNat).enterWaiting i (s.smu.waits.length + 1) :=
    waitOutcome_own (a := s.appendWait y.cid w.toNat) hi hside hstate hone _
  rw [hout]
  exact changeReport_idle rfl fun j z _ => reportAt_waitReport_nil _ _ _ _ _ _

/-- The own WAIT granted at once: its context settles on the block by the report of the grant (R14, R28, R30). -/
theorem waitTaken_own_granted (hl : SlotLaw s.smu) (ht : waitTest s.smu s.own y.cid w.toNat = none) {k : Block}
    (hk : placement s.smu.holds w.toNat = some k) :
    s.waitTaken s.own y.cid w =
      ((s.waitScanned y.cid w.toNat).enterSettling i k (decide (k.2 < w.toNat))).reckonOwner := by
  obtain ⟨hscan, hgrants⟩ := appendWait_granted (c := y.cid) hl hk
  let scanned := s.waitScanned y.cid w.toNat
  have hpos : (s.waitScanned y.cid w.toNat).smu.position y.cid = none := by rw [hscan]; rfl
  have hout : scanned.waitOutcome s.own y.cid (.added 0) = scanned :=
    waitOutcome_own (a := scanned) hi hside hstate hone _
  have hat : State.reportAt (waitReport s.own s.own y.cid [⟨y.cid, k, decide (k.2 < w.toNat)⟩]) scanned i y
      = scanned.enterSettling i k (decide (k.2 < w.toNat)) := by
    simp [State.reportAt, waitReport, State.newHoldAt, hstate]
  rw [waitTaken_added ht, hgrants, hpos, Option.getD_none, hout, changeReport_of_freed_none rfl,
    eachCtx_only (s := scanned) hi (fun j z t hj hz => ?_) fun j hj => ?_, hat]
  · exact reportAt_of_other (hone j z hz hj) (by simpa [waitReport] using fun h => hone j z hz hj h.symm) t j
  · rw [hat]
    exact ((Spares.refl (ks := fun _ => True) j scanned).enterSettling trivial hj k _).ctx

end OwnWaitTaken

/-- The block granted is off, and the copy holds it for the call: the settle command is met (R148, R149). -/
theorem settleMet_waitScanned {s : State} {w : Byte} {i : Ref} {y : Ctx} (hi : s.ctx i = some y) (hstate : y.state = .claiming) (hl : SlotLaw s.smu) (hp : PathLaw s) (hm : s.member = true)
    (ht : waitTest s.smu s.own y.cid w.toNat = none) {k : Block} (hk : placement s.smu.holds w.toNat = some k) :
    (s.waitScanned y.cid w.toNat).path.record i = none ∧ (s.waitScanned y.cid w.toNat).settleMet i y.cid k = true := by
  obtain ⟨hscan, -⟩ := appendWait_granted (c := y.cid) hl hk
  have hnew := (Smu.has_eq_false_iff.mp (waitTest_none_has ht)).1
  refine ⟨hp.record_none hi (by simp [hstate]), settleMet_iff.mpr ⟨hm, ⟨s.newHold y.cid k, ?_, rfl⟩, fun n h1 h2 e he => ?_⟩⟩
  · rw [hscan]
    exact holdOf_insertHold (h := s.newHold y.cid k) hnew []
  · have hoff := hp.enablesBacked.enable_of_free (blockFree_iff.mp (blockFree_of_placement hk) n h1 h2)
    rw [show s.path.enable n = some e from he] at hoff
    cases hoff

/-- Settles O20: the copy by the test and the scan, and the own WAIT at its context by the three outcomes. -/
theorem waitTakenAppendsOrIsGranted : Obligations.WaitTakenAppendsOrIsGranted := by
  refine ⟨fun s x c w h hl => ?_, fun s c w i y he hl hp hi hside hcid hstate hone => ?_⟩
  · have hexec : exec (.waitTaken x c w) s =
        .next (((s.takingBase x (.wait c w)).waitTaken x c w).leaveCheck) := congrArg _ (taking_of_takesFrame h _ _)
    have hlb : SlotLaw (s.takingBase x (.wait c w)).smu := by rw [takingBase_smu]; exact hl
    have hcalm := (calm_waitCopy (s.takingBase x (.wait c w)) x c w).leaveCheck
    refine ⟨_, hexec, sameFixtures_of_taken hcalm, sameStation_of_taken hcalm, fun i hi => ?_, fun hr => ?_, fun ht hf => ?_,
      fun ht hf => ?_⟩
    · rw [ctx_leaveCheck, otherCallsKept_waitTaken hlb i (by simpa using hi), ctx_takingBase]
    · rw [hcalm.smu]
      simpa using waitCopy_refused (s := s.takingBase x (.wait c w)) (by simpa using hr)
    · rw [hcalm.smu, waitCopy_full (by simpa using ht) (by simpa using hf)]
      simp [State.appendWait, State.waitAudit, State.stamp, Config.waitAuditMs, Config.auditStaggerMs]
    · obtain ⟨k, hk, hcopy⟩ := waitCopy_granted (s := s.takingBase x (.wait c w)) (x := x) (c := c) (w := w.toNat) hlb
        (by simpa using ht) (by simpa using hf)
      rw [hcalm.smu, hcopy]
      refine ⟨rfl, k, by simpa using hk, ?_⟩
      simp [State.newHold, State.holdAudit, State.stamp, Config.holdAuditMs, Config.auditStaggerMs]
  · subst hcid
    intro base
    have hexec : exec (.waitTaken s.own y.cid w) s = .next ((base.waitTaken base.own y.cid w).leaveCheck) :=
      congrArg _ (taking_of_echoes he _ _)
    have hbi : base.ctx i = some y := hi
    refine ⟨_, hexec, fun j hj => ?_, fun ht hf => ?_, fun ht k hk => ?_, fun r ht hcause hann => ?_⟩
    · rw [ctx_leaveCheck]
      exact otherCallsKept_waitTaken (s := base) hl j fun z hz => hone j z hz hj
    · let waiting := y.waitUntil (s.now + 1000 * s.sport.config.waitLimit)
      let notice := Notice.callState i y.cid (.waiting (s.smu.waits.length + 1))
      let t := ((base.appendWait y.cid w.toNat).post notice).setCtx i (some waiting)
      have hbest : t.path.bestOwner = t.path.owner := by
        rw [show t.path = s.path from State.post_path _ _]
        exact hp.2.2.1.symm
      have hlive : t.ctx i = some waiting := (State.ctx_setCtx _ _ _ _).trans (if_pos rfl)
      have htaken : base.waitTaken base.own y.cid w = t :=
        (waitTaken_own_full (s := base) hbi hside hstate hone ht hf).trans
          ((congrArg State.reckonOwner (enterWaiting_eq (a := base.appendWait y.cid w.toNat) hbi _)).trans
            (reckonOwner_of_best hbest))
      rw [htaken, leaveCheck_of_live hlive]
      exact ⟨congrArg Rif.queue (State.post_rif _ _), hlive, (posted_post _ _).of_sport rfl⟩
    · obtain ⟨hrec, hmet⟩ := settleMet_waitScanned (s := base) hbi hstate hl hp he.1 ht hk
      have hsettles := settlesOn_enterSettling (s := base.waitScanned y.cid w.toNat) (trimmed := decide (k.2 < w.toNat)) hbi hrec hmet
      have hlive := (ctx_reckonOwner _ i).trans hsettles.1
      rw [waitTaken_own_granted (s := base) hbi hside hstate hone hl ht hk, leaveCheck_of_live hlive]
      refine ⟨?_, hsettles.of_same (ctx_reckonOwner _ i) (State.record_reckonOwner _ i)⟩
      rw [reckonOwner_rif, enterSettling_met_rif (s := base.waitScanned y.cid w.toNat) hbi hrec hmet]
      rfl
    · intro k
      have htaken : base.waitTaken base.own y.cid w = (base.clearOrigin i k true).reckonOwner :=
        waitTaken_own_refused (s := base) hbi hside hstate hone ht
      rw [htaken]
      refine ⟨?_, fun hacc => ?_⟩
      · exact ((endSaid_clearOrigin (a := base) hbi k).mono ((Calm.refl _).reckonOwner.leaveCheck).posted).from_sport rfl
      · rw [← releaseFrame_cleared hcause] at hacc ⊢
        obtain ⟨hctx, hqueue⟩ := clearOrigin_released (a := base) hbi (by simp [hstate]) hann k hacc
        have hlive := (ctx_reckonOwner _ i).trans hctx
        have hclear := clearing_cleared (k := k) y .release
        rw [hcause] at hclear
        rw [leaveCheck_of_live hlive]
        exact ⟨⟨_, hlive, hclear, rfl⟩, (congrArg Rif.queue (reckonOwner_rif _)).trans hqueue⟩

end Sys2Proof.Machine
end

section
/-! PROOFS. The places of the queue that pass on: the RECLAIM slot to the oldest overdue item (R36) and the shared place to the pending
OFFER or the oldest pending seek (R93); and the LEAVE that does not fall due (R77). -/

namespace Sys2Proof.Machine

/-! ### The oldest overdue item -/

theorem oldestOf_mem {l : List (CallId × Stamp)} {z : CallId × Stamp} (h : oldestOf l = some z) : z ∈ l := by
  induction l with
  | nil => cases h
  | cons x xs ih =>
    rw [oldestOf] at h
    cases ho : oldestOf xs with
    | none => simp_all
    | some y =>
      simp only [ho] at h
      split at h
      · exact List.mem_cons_of_mem _ (ih (ho.trans h))
      · rw [← Option.some.inj h]; exact List.mem_cons_self

theorem oldestOf_ne_none {x : CallId × Stamp} {xs : List (CallId × Stamp)} : oldestOf (x :: xs) ≠ none := by
  rw [oldestOf]
  split
  · split <;> simp
  · simp

/-- An item older than every other one is the oldest (R35). -/
theorem oldestOf_eq {l : List (CallId × Stamp)} {z : CallId × Stamp} (hz : z ∈ l) (hold : ∀ y ∈ l, y = z ∨ z.2.older y.2 = true) :
    oldestOf l = some z := by
  induction l with
  | nil => cases hz
  | cons x xs ih =>
    have hxs : ∀ y ∈ xs, y = z ∨ z.2.older y.2 = true := fun y hy => hold y (List.mem_cons_of_mem _ hy)
    rw [oldestOf]
    cases ho : oldestOf xs with
    | none =>
      cases xs with
      | nil => rw [List.mem_singleton.mp hz]
      | cons y ys => exact absurd ho oldestOf_ne_none
    | some y =>
      rcases hold x List.mem_cons_self with rfl | hx
      · have hyx : y.2.older x.2 = false := by
          rcases hxs y (oldestOf_mem ho) with rfl | hy
          · exact Stamp.not_older_self _
          · exact Stamp.not_older_of_older hy
        simp [hyx]
      · have hmem : z ∈ xs := by
          rcases List.mem_cons.mp hz with rfl | hm
          · rw [Stamp.not_older_self] at hx; cases hx
          · exact hm
        have hy : y = z := Option.some.inj (ho.symm.trans (ih hmem hxs))
        subst hy
        simp [hx]

/-! ### The RECLAIM slot -/

theorem nextOverdue_idle {s : State} (h : s.smu.overdue = []) : s.nextOverdue = s := by
  rw [State.nextOverdue, h]; rfl

/-- The free slot goes to the oldest overdue item (R36). -/
theorem nextOverdue_oldest {s : State} {d : CallId} {g : Stamp} (ho : oldestOf s.smu.overdue = some (d, g))
    (ha : s.accepts (.reclaim d) = true) (hp : s.placeHeld .reclaim = false) :
    s.nextOverdue = (s.queueFrame (.reclaim d)).setAudit d .reclaimQueued := by
  have hfree : s.slotFree d = true := by rw [State.slotFree, ha, hp]; rfl
  simp only [State.nextOverdue, ho, State.queueReclaim, hfree, if_true]

/-! ### The shared place -/

theorem queueFirstPending_append {old : List Seek} (ho : ∀ x ∈ old, x.state ≠ .pending) {r : Seek} (hr : r.state = .pending)
    (new : List Seek) : queueFirstPending (old ++ r :: new) = old ++ { r with state := .queued } :: new := by
  induction old with
  | nil => simp [queueFirstPending, hr]
  | cons x xs ih =>
    obtain ⟨hx, hxs⟩ := List.forall_mem_cons.mp ho
    simp [queueFirstPending, hx, ih hxs]

theorem find_firstPending {old : List Seek} (ho : ∀ x ∈ old, x.state ≠ .pending) {r : Seek} (hr : r.state = .pending)
    (new : List Seek) : ((old ++ r :: new).find? fun x => x.state = .pending) = some r := by
  have hnone : (old.find? fun x => decide (x.state = .pending)) = none := by simpa using ho
  simp [List.find?_append, hnone, hr]

section HandOut

variable {s : State} (hp : s.placeHeld .seek = false)
include hp

/-- The pending OFFER comes first (R93). -/
theorem handOut_offer (ho : s.udir.offer = .pending)
    (ha : s.accepts (.offer s.sport.config.unit s.sport.config.capability) = true) :
    s.handOut = { s.queueFrame (.offer s.sport.config.unit s.sport.config.capability) with
      udir := { s.udir with offer := .queued } } := by
  simp [State.handOut, hp, ho, ha]

theorem handOut_none (ho : s.udir.offer ≠ .pending) (hs : ∀ r ∈ s.udir.seeks, r.state ≠ .pending) : s.handOut = s := by
  have hnone : (s.udir.seeks.find? fun r => decide (r.state = .pending)) = none := by simpa using hs
  simp [State.handOut, hp, ho, hnone]

/-- With no pending OFFER the oldest pending record is next (R93). -/
theorem handOut_seek {old : List Seek} {r : Seek} {new : List Seek} (ho : s.udir.offer ≠ .pending)
    (hs : s.udir.seeks = old ++ r :: new) (hold : ∀ x ∈ old, x.state ≠ .pending) (hr : r.state = .pending)
    (ha : s.accepts (.seek r.unit) = true) :
    s.handOut = { s.queueFrame (.seek r.unit) with udir := { s.udir with seeks := old ++ { r with state := .queued } :: new } } := by
  simp [State.handOut, hp, ho, ha, hs, find_firstPending hold hr, queueFirstPending_append hold hr]

end HandOut

/-! ### No LEAVE falls due -/

/-- While an own JOIN or LEAVE is queued, no other LEAVE is (R77). -/
theorem leaveCheck_of_queued {s : State} (h : s.stc.state = .leaving → s.kindQueued .join = true ∨ s.kindQueued .leave = true) :
    s.leaveCheck = s := by
  by_cases hst : s.stc.state = .leaving
  · rcases h hst with hk | hk <;> simp [State.leaveCheck, hk]
  · exact leaveCheck_of_state hst

theorem leaveCheck_of_noLeaveDue {s : State} (h : s.noLeaveDue) : s.leaveCheck = s := by
  by_cases hst : s.stc.state = .leaving
  · rcases h hst with hk | hk | hk <;> simp [State.leaveCheck, hk]
  · exact leaveCheck_of_state hst

theorem kindQueued_mono {s t : State} (h : s.rif.queue <+: t.rif.queue) {k : FrameKind} (hk : s.kindQueued k = true) :
    t.kindQueued k = true := by
  obtain ⟨e, he, hek⟩ := List.any_eq_true.mp hk
  exact List.any_eq_true.mpr ⟨e, h.subset he, hek⟩

/-- Nor does it after a calm operation, which takes nothing from the queue. -/
theorem Calm.leaveCheck_idle {a t : State} (h : Calm a t)
    (ha : a.stc.state = .leaving → a.kindQueued .join = true ∨ a.kindQueued .leave = true) : t.leaveCheck = t :=
  leaveCheck_of_queued fun hst => (ha (h.state ▸ hst)).imp (kindQueued_mono h.queued) (kindQueued_mono h.queued)

/-! ### The context a call id finds -/

theorem findCall_some {s : State} {c : CallId} {i : Ref} (h : s.findCall c = some i) : ∃ x, s.ctx i = some x ∧ x.cid = c := by
  have hi := List.find?_some h
  cases hx : s.ctx i with
  | none => simp [hx] at hi
  | some x => exact ⟨x, rfl, by simpa [hx] using hi⟩

theorem atCall_found {s : State} {side : Side} {c : CallId} {i : Ref} (h : s.findCtx side c = some i) (f : State → Ref → State) :
    s.atCall side c f = f s i := by rw [State.atCall, h]

theorem atParty_found {s : State} {c : CallId} {i : Ref} (h : s.findCall c = some i) (f : State → Ref → State) :
    s.atParty c f = f s i := by rw [State.atParty, h]

/-- A freed context is free, and nothing else of the contexts or of RIF changes. -/
theorem freeCtx_frees (s : State) (i : Ref) :
    (s.freeCtx i).ctx i = none ∧ OtherContextsKept i s (s.freeCtx i) ∧ (s.freeCtx i).rif = s.rif :=
  ⟨ctx_freeCtx s i, fun j hj => ((Spares.refl (ks := fun _ => False) j s).freeCtx hj).ctx, freeCtx_rif s i⟩

end Sys2Proof.Machine
end

section
/-! PROOFS. What each block does with the answer to a recall (R36, R56, R93, R112, R113, R120, R121, R140). -/

namespace Sys2Proof.Machine

/-! ### The answer reaches its block -/

/-- The blocks answer calmly, on the copy in which the RECLAIM slot may have passed on. -/
theorem calm_recallResult (s : State) (id : FrameId) (a : RecallAnswer) : ∃ m, Calm { s with smu := m } (s.recallResult id a) := by
  unfold State.recallResult
  split
  · cases a with
    | recalled => exact ⟨_, calm_nextOverdue s⟩
    | tooLate => exact ⟨s.smu, Calm.refl s⟩
  · cases a with
    | recalled => exact ⟨s.smu, (Calm.refl s).handOut⟩
    | tooLate => exact ⟨s.smu, Calm.refl s⟩
  · exact ⟨s.smu, (Calm.refl s).atCall _ _ fun _ i h => h.ringAnswer i a⟩
  · exact ⟨s.smu, (Calm.refl s).atCall _ _ fun _ i h => h.callFrameAnswer i a⟩
  · exact ⟨s.smu, (Calm.refl s).atCall _ _ fun _ i h => h.callFrameAnswer i a⟩
  · exact ⟨s.smu, (Calm.refl s).atCall _ _ fun _ i h => h.answerAnswer i⟩
  · exact ⟨s.smu, (Calm.refl s).atParty _ fun _ i h => h.releaseAnswer i a⟩
  · exact ⟨s.smu, Calm.refl s⟩

/-- After "too late" the blocks of a RECLAIM, SEEK, RING or RELEASE, and of the frames without a recall of their own, change nothing. -/
theorem recallResult_tooLate_idle (s : State) {id : FrameId} (hc : id.kind ≠ .claim) (hw : id.kind ≠ .wait) (ha : id.kind ≠ .answer) :
    s.recallResult id .tooLate = s := by
  obtain ⟨k, key⟩ := id
  unfold State.recallResult
  split
  · rfl
  · rfl
  · simp only [State.atCall, State.ringAnswer]; split <;> [split <;> rfl; rfl]
  · exact absurd ‹_› hc
  · exact absurd ‹_› hw
  · exact absurd ‹_› ha
  · simp only [State.atParty, State.releaseAnswer]; split <;> [split <;> rfl; rfl]
  · rfl

/-- The frames no block acts on when their recall is answered. -/
theorem recallResult_unheard (s : State) {id : FrameId} (a : RecallAnswer)
    (h : id.kind ∈ [FrameKind.snapshot, .join, .leave, .offer, .refuse, .open_, .opened]) : s.recallResult id a = s := by
  obtain ⟨k, key⟩ := id
  simp only [List.mem_cons, List.not_mem_nil, or_false] at h
  rcases h with rfl | rfl | rfl | rfl | rfl | rfl | rfl <;> rfl

/-- The event in which an answer reaches its block changes no more than the clock's event number, the queue and the list of recalls. -/
theorem exec_recallAnswered_brings {s : State} {id : FrameId} {a : RecallAnswer} {base : State} (h : s.BringsAnswer id a base)
    (hl : s.stc.state = .leaving → base.kindQueued .join = true ∨ base.kindQueued .leave = true) :
    exec (.recallAnswered id) s = .next (if base.recallOut id then base else base.recallResult id a) := by
  obtain ⟨r, q, hr, rfl, hcase⟩ := h
  set base : State := { s with
    eventNo := s.eventNo + 1
    rif := { s.rif with queue := q, recalls := s.rif.recalls.eraseP fun r => r.id = id } } with hbase
  have hexec : exec (.recallAnswered id) s
      = .next ((if base.recallOut id then base else base.recallResult id a).leaveCheck) := by
    change execRecallAnswered id s = _
    rw [execRecallAnswered, hr]
    rcases hcase with ⟨hst, rfl⟩ | ⟨hst, hq, rfl, rfl⟩ | ⟨hst, rfl, rfl, e, he, hcar⟩
    · simp only [hst]; rfl
    · have hnone : (s.rif.queue.find? fun e => decide (e.frame.ident = id)) = none := by
        rw [State.queued, List.any_eq_false] at hq
        exact List.find?_eq_none.mpr hq
      simp only [hst, hnone]; rfl
    · simp only [hst, he, hcar]; rfl
  rw [hexec]
  congr 1
  split
  · exact leaveCheck_of_queued hl
  · obtain ⟨m, hm⟩ := calm_recallResult base id a
    exact hm.leaveCheck_idle hl

/-! ### The recalled frames of a call -/

section AtCall

variable {b : State} {c : CallId} {i : Ref} {x : Ctx} (hx : b.ctx i = some x)

theorem recallResult_callFrame {k : FrameKind} (hk : k = .claim ∨ k = .wait) (hf : b.findCtx .origin c = some i) (a : RecallAnswer) :
    b.recallResult ⟨k, .call c⟩ a = b.callFrameAnswer i a := by
  rcases hk with rfl | rfl <;> exact atCall_found hf fun t j => t.callFrameAnswer j a

include hx

theorem recallResult_ring (hf : b.findCtx .origin c = some i) : b.recallResult ⟨.ring, .call c⟩ .recalled = b.ringGone i x := by
  simp only [State.recallResult, atCall_found hf, State.ringAnswer, hx]

theorem recallResult_answer (hf : b.findCtx .answer c = some i) (a : RecallAnswer) :
    b.recallResult ⟨.answer, .call c⟩ a = if x.state = .clearing ∧ x.awaits = .answerRecall then b.freeCtx i else b := by
  simp only [State.recallResult, atCall_found hf, State.answerAnswer, hx]

theorem recallResult_release (hf : b.findCall c = some i) (hst : x.state = .clearing) (haw : x.awaits = .release) :
    b.recallResult ⟨.release, .call c⟩ .recalled = b.releaseRecalled i := by
  simp only [State.recallResult, atParty_found hf, State.releaseAnswer, hx, hst, haw, and_self, if_true]

/-- A CLAIM or WAIT whose fate no clearing awaits (R120, R121). -/
theorem recallResult_callFrame_idle {k : FrameKind} (hk : k = .claim ∨ k = .wait) (hf : b.findCtx .origin c = some i)
    (a : RecallAnswer) (hn : x.state ≠ .clearing ∨ x.awaits ≠ .frameRecall) : b.recallResult ⟨k, .call c⟩ a = b := by
  have hcond : ¬ (x.state = .clearing ∧ x.awaits = .frameRecall) := fun h => hn.elim (· h.1) (· h.2)
  simp only [recallResult_callFrame hk hf, State.callFrameAnswer, hx]
  cases a with
  | recalled => simp only [State.callFrameGone, if_neg hcond]
  | tooLate => simp only [State.callFrameTaken, if_neg hcond]

/-- A CLAIM or WAIT that gave the clearing call nothing frees it (R120). -/
theorem recallResult_callFrame_frees {k : FrameKind} (hk : k = .claim ∨ k = .wait) (hf : b.findCtx .origin c = some i)
    {a : RecallAnswer} (hst : x.state = .clearing) (haw : x.awaits = .frameRecall) (ha : a = .recalled ∨ b.smu.has c = false) :
    b.recallResult ⟨k, .call c⟩ a = b.freeCtx i := by
  have hcid : x.cid = c := by
    obtain ⟨y, hy, -, hc⟩ := findCtx_some hf
    rwa [← Option.some.inj (hx.symm.trans hy)] at hc
  simp only [recallResult_callFrame hk hf, State.callFrameAnswer, hx]
  cases a with
  | recalled => simp only [State.callFrameGone, hst, haw, and_self, if_true]
  | tooLate =>
    have hhas : b.smu.has c = false := ha.resolve_left (by decide)
    simp [State.callFrameTaken, hst, haw, hcid, hhas]

/-- A context in CLEARING queues its RELEASE, and awaits it. -/
theorem queueRelease_queues (ha : b.accepts (.release x.cid (causeByte x.cause)) = true) :
    (b.queueRelease i).ctx i = some { x with awaits := .release } ∧ OtherContextsKept i b (b.queueRelease i)
      ∧ (b.queueRelease i).rif.queue = b.rif.queue ++ [Entry.fresh (.release x.cid (causeByte x.cause))]
      ∧ (b.queueRelease i).sport = b.sport := by
  rw [queueRelease_accepted hx ha, queueFrame_accepted (f := x.releaseFrame) ha]
  refine ⟨by simp, fun j hj => ?_, rfl, rfl⟩
  rw [State.ctx_setCtx, if_neg hj]; rfl

/-- What a CLAIM or WAIT taken after all gave the clearing call is released (R120). -/
theorem recallResult_callFrame_releases {k : FrameKind} (hk : k = .claim ∨ k = .wait) (hf : b.findCtx .origin c = some i)
    (hst : x.state = .clearing) (haw : x.awaits = .frameRecall) (hhas : b.smu.has c = true)
    (ha : b.accepts (.release c (causeByte x.cause)) = true) :
    let t := b.recallResult ⟨k, .call c⟩ .tooLate
    t.ctx i = some { x with awaits := .release } ∧ OtherContextsKept i b t
      ∧ t.rif.queue = b.rif.queue ++ [Entry.fresh (.release c (causeByte x.cause))] ∧ t.sport = b.sport := by
  obtain ⟨y, hy, -, hc⟩ := findCtx_some hf
  obtain rfl : x = y := Option.some.inj (hx.symm.trans hy)
  subst hc
  have ht : b.recallResult ⟨k, .call x.cid⟩ .tooLate = b.queueRelease i := by
    simp [recallResult_callFrame hk hf, State.callFrameAnswer, hx, State.callFrameTaken, hst, haw, hhas]
  rw [ht]
  exact queueRelease_queues hx ha

end AtCall

/-! ### A recalled RELEASE -/

section ReleaseRecalled

variable {b : State} {i : Ref} {x : Ctx} (hx : b.ctx i = some x) (hst : x.state = .clearing) (haw : x.awaits = .release)
include hx haw

/-- A clearing that is final, or becomes so by the role limit, queues its RELEASE again (R113). -/
theorem releaseRecalled_final (hfin : x.reversible = false ∨ b.reversalAllowed i = false)
    (ha : b.accepts (.release x.cid (causeByte x.cause)) = true) :
    (b.releaseRecalled i).ctx i = some { x with reversible := false } ∧ OtherContextsKept i b (b.releaseRecalled i)
      ∧ (b.releaseRecalled i).rif.queue = b.rif.queue ++ [Entry.fresh (.release x.cid (causeByte x.cause))]
      ∧ (b.releaseRecalled i).sport = b.sport := by
  have hcond : (x.reversible && b.reversalAllowed i) = false := by rcases hfin with h | h <;> simp [h]
  have hrel : b.releaseRecalled i = (b.setCtx i (some { x with reversible := false })).queueRelease i := by
    simp only [State.releaseRecalled, hx, hcond, State.makeFinal, modifyCtx_live hx, Bool.false_eq_true, if_false]
  obtain ⟨hi, hother, hq, hsport⟩ := queueRelease_queues (b := b.setCtx i (some { x with reversible := false })) (i := i)
    (x := { x with reversible := false }) (by simp) ha
  rw [hrel]
  refine ⟨?_, fun j hj => ?_, hq, hsport⟩
  · rw [hi]
    obtain ⟨⟩ := x
    cases haw
    rfl
  · rw [hother j hj, State.ctx_setCtx, if_neg hj]

omit haw in
/-- After NO_ANSWER the call claims again (R113, R114). -/
theorem releaseRecalled_claims (hrev : x.reversible = true) (hal : b.reversalAllowed i = true) (hcause : x.cause = some .noAnswer)
    (hhas : b.smu.has x.cid = false) {k : Block} (hk : placement b.smu.holds x.wanted = some k)
    (ha : b.accepts (.claim x.cid (byte k.1) (byte k.2)) = true) :
    OtherContextsKept i b (b.releaseRecalled i)
      ∧ (b.releaseRecalled i).ctx i = some { x with state := .claiming, reversible := false, cause := none, awaits := .nothing }
      ∧ (b.releaseRecalled i).rif.queue = b.rif.queue ++ [Entry.fresh (.claim x.cid (byte k.1) (byte k.2))] := by
  set z : Ctx := { x with state := .claiming, reversible := false, cause := none, awaits := .nothing } with hz
  set n : Notice := .callState i x.cid (.claiming (x.answerer.getD 0#8) x.wanted) with hn
  have hrel : b.releaseRecalled i = ((b.setCtx i (some z)).post n).choose i := by
    simp only [State.releaseRecalled, hx, hrev, hal, hcause, Bool.and_self, if_true, State.callState, State.ctx_setCtx]
    rfl
  have hctx : ((b.setCtx i (some z)).post n).ctx i = some z := by simp
  have hacc : ((b.setCtx i (some z)).post n).accepts (.claim z.cid (byte k.1) (byte k.2)) = true := by
    rw [accepts_congr (s := b) (by simp) (by simp)]; exact ha
  have hq := choose_placed hctx (by simpa using hhas) (b := k) (by simpa using hk) hacc
  rw [hrel, hq]
  refine ⟨fun j hj => by simp [hj], by simp, ?_⟩
  rw [queueFrame_accepted hacc]
  simp [hz, Entry.fresh]

omit haw in
/-- After CONGESTED the call settles on the block of its path (R113, R118). -/
theorem releaseRecalled_settles (hrev : x.reversible = true) (hal : b.reversalAllowed i = true) (hcause : x.cause = some .congested)
    {k : Block} (hk : x.path = some k) (hm : b.member = true) (hh : ∃ h, b.smu.holdOf x.cid = some h ∧ (h.base, h.width) = k)
    (hrec : b.path.record i = none) (hen : ∀ n, k.1 ≤ n → n < k.1 + k.2 → b.path.enable n = none) :
    OtherContextsKept i b (b.releaseRecalled i) ∧ (b.releaseRecalled i).rif = b.rif
      ∧ SettlesOn i { x with reversible := false, cause := none, awaits := .nothing } k x.trimmed (b.releaseRecalled i) := by
  set z : Ctx := { x with reversible := false, cause := none, awaits := .nothing } with hz
  have hrel : b.releaseRecalled i = (b.setCtx i (some z)).enterSettling i k x.trimmed := by
    simp only [State.releaseRecalled, hx, hrev, hal, hcause, hk, Bool.and_self, if_true, hz]
  have hctx : (b.setCtx i (some z)).ctx i = some z := by simp
  have hmet : (b.setCtx i (some z)).settleMet i z.cid k = true :=
    settleMet_iff.mpr ⟨hm, hh, fun n h1 h2 e he => by rw [State.setCtx_path, hen n h1 h2] at he; cases he⟩
  rw [hrel]
  refine ⟨fun j hj => ?_, enterSettling_met_rif hctx hrec hmet, settlesOn_enterSettling hctx hrec hmet⟩
  rw [((Spares.refl (ks := fun _ => True) j (b.setCtx i (some z))).enterSettling trivial hj k x.trimmed).ctx,
    State.ctx_setCtx, if_neg hj]

end ReleaseRecalled

end Sys2Proof.Machine
end

section
/-! PROOFS. RECALL_ANSWERED as a whole: what RIF does with the entry, and what the block does with the answer (R56, O12). -/

namespace Sys2Proof.Machine

/-! ### An asked recall reaches RIF -/

section Asked

variable {s : State} {id : FrameId} (hr : (s.rif.recalls.find? fun r => r.id = id) = some ⟨id, .asked⟩)
include hr

/-- A WAITING entry is removed, and its block answers behind the rest of the queue. -/
theorem exec_recallAnswered_waiting {e : Entry} (he : (s.rif.queue.find? fun e => e.frame.ident = id) = some e)
    (hw : e.carriage = .waiting) :
    ∃ t more, exec (.recallAnswered id) s = .next t ∧ t.rif.queue = (s.rif.queue.eraseP fun e => e.frame.ident = id) ++ more
      ∧ SameFixtures s t ∧ SameStation s t := by
  set base : State := (s.dropQueued id).newEvent.forgetRecall id with hbase
  have hexec : exec (.recallAnswered id) s
      = .next (if base.recallOut id then base else base.recallResult id .recalled).leaveCheck := by
    change execRecallAnswered id s = _
    simp only [execRecallAnswered, hr, he, hw]
    rfl
  obtain ⟨m, hm⟩ : ∃ m, Calm { base with smu := m }
      (if base.recallOut id then base else base.recallResult id .recalled).leaveCheck := by
    split
    · exact ⟨base.smu, (Calm.refl base).leaveCheck⟩
    · obtain ⟨m, hm⟩ := calm_recallResult base id .recalled
      exact ⟨m, hm.leaveCheck⟩
  obtain ⟨more, hmore⟩ := hm.queued
  exact ⟨_, more, hexec, hmore.symm, hm.sameFixtures, hm.sameStation⟩

/-- While the entry is CARRYING the recall is held. -/
theorem exec_recallAnswered_carrying {e : Entry} (he : (s.rif.queue.find? fun e => e.frame.ident = id) = some e)
    (hc : e.carriage = .carrying) : exec (.recallAnswered id) s = .next (s.markRecall id .held) := by
  change execRecallAnswered id s = _
  simp only [execRecallAnswered, hr, he, hc, if_true]

/-- A frame already taken is asked nothing more. -/
theorem exec_recallAnswered_gone (hc : id.kind ≠ .claim) (hw : id.kind ≠ .wait) (ha : id.kind ≠ .answer) (hl : s.noLeaveDue)
    (hq : s.queued id = false) :
    exec (.recallAnswered id) s = .next
      { s with eventNo := s.eventNo + 1, rif := { s.rif with recalls := s.rif.recalls.eraseP fun r => r.id = id } } := by
  set base : State := s.newEvent.forgetRecall id with hbase
  have hnone : (s.rif.queue.find? fun e => decide (e.frame.ident = id)) = none := by
    rw [State.queued, List.any_eq_false] at hq
    exact List.find?_eq_none.mpr hq
  have hexec : exec (.recallAnswered id) s = .next (s.deliverAnswer id .tooLate) := by
    change execRecallAnswered id s = _
    simp only [execRecallAnswered, hr, hnone]
  have hbody : (if base.recallOut id then base else base.recallResult id .tooLate) = base := by
    rw [recallResult_tooLate_idle base hc hw ha, ite_self]
  rw [hexec, State.deliverAnswer, ← hbase, hbody, leaveCheck_of_noLeaveDue (s := base) hl]
  rfl

end Asked

/-! ### The answer acts -/

/-- The RECLAIM slot a recalled RECLAIM leaves goes to the oldest overdue item (R36). -/
theorem recallResult_reclaim_oldest {b : State} {c d : CallId} {g : Stamp} (hacc : b.accepts (.reclaim c) = true)
    (hp : b.placeHeld .reclaim = false) (hd : (d, g) ∈ b.smu.overdue)
    (hold : ∀ y ∈ b.smu.overdue, y.1 ≠ d → g.older y.2 = true) (hone : ∀ y ∈ b.smu.overdue, y.1 = d → y.2 = g) :
    let t := b.recallResult ⟨.reclaim, .call c⟩ .recalled
    t.rif.queue = b.rif.queue ++ [Entry.fresh (.reclaim d)] ∧ t.ctxs = b.ctxs ∧ t.smu.snapHolds = b.smu.snapHolds
      ∧ t.smu.snapWaits = b.smu.snapWaits := by
  have holdest : oldestOf b.smu.overdue = some (d, g) := oldestOf_eq hd fun y hy => by
    by_cases hyd : y.1 = d
    · exact .inl (Prod.ext hyd (hone y hy hyd))
    · exact .inr (hold y hy hyd)
  have hacc' : b.accepts (.reclaim d) = true := hacc
  have ht : b.recallResult ⟨.reclaim, .call c⟩ .recalled = (b.queueFrame (.reclaim d)).setAudit d .reclaimQueued :=
    nextOverdue_oldest holdest hacc' hp
  have hitems := sameItems_setAudit (b.queueFrame (.reclaim d)) d .reclaimQueued
  rw [State.queueFrame_smu] at hitems
  rw [ht]
  refine ⟨?_, (b.queueFrame_ctxs _), hitems.snapHolds, hitems.snapWaits⟩
  rw [queueFrame_accepted hacc']
  rfl

/-- The shared place a recalled SEEK leaves (R93, R96). -/
theorem recallResult_seek {b : State} {u : UnitNum} (hacc : b.accepts (.seek u) = true) (hp : b.placeHeld .seek = false) :
    let t := b.recallResult ⟨.seek, .unit u⟩ .recalled
    (b.udir.offer = .pending →
      t.udir = { b.udir with offer := .queued } ∧ t.ctxs = b.ctxs
        ∧ t.rif.queue = b.rif.queue ++ [Entry.fresh (.offer b.sport.config.unit b.sport.config.capability)])
    ∧ (b.udir.offer ≠ .pending → (∀ r ∈ b.udir.seeks, r.state ≠ .pending) → t = b)
    ∧ (∀ old r new, b.udir.offer ≠ .pending → b.udir.seeks = old ++ r :: new → (∀ x ∈ old, x.state ≠ .pending) →
        r.state = .pending →
      t.udir.seeks = old ++ { r with state := .queued } :: new ∧ t.ctxs = b.ctxs
        ∧ t.rif.queue = b.rif.queue ++ [Entry.fresh (.seek r.unit)]) := by
  intro t
  have ht : t = b.handOut := rfl
  rw [ht]
  refine ⟨fun ho => ?_, fun ho hs => handOut_none hp ho hs, fun old r new ho hs hold hr => ?_⟩
  · have ha : b.accepts (.offer b.sport.config.unit b.sport.config.capability) = true := hacc
    rw [handOut_offer hp ho ha, queueFrame_accepted ha]
    exact ⟨rfl, rfl, rfl⟩
  · have ha : b.accepts (.seek r.unit) = true := hacc
    rw [handOut_seek hp ho hs hold hr ha, queueFrame_accepted ha]
    exact ⟨rfl, rfl, rfl⟩

/-- Settles O12: each answer acts at its block in the state the entry's removal leaves, and no LEAVE falls due behind it. -/
theorem recallAnswersByTheEntry : Obligations.RecallAnswersByTheEntry := by
  unfold Obligations.RecallAnswersByTheEntry
  refine ⟨fun s id hr => ⟨fun e he => exec_recallAnswered_waiting hr he, fun e he => exec_recallAnswered_carrying hr he,
    fun hc hw ha hl => exec_recallAnswered_gone hr hc hw ha hl⟩, fun s id a base hb hl => ?_⟩
  have hexec := exec_recallAnswered_brings hb hl
  obtain ⟨-, q, -, rfl, -⟩ := hb
  set base : State := { s with
    eventNo := s.eventNo + 1
    rif := { s.rif with queue := q, recalls := s.rif.recalls.eraseP fun r => r.id = id } } with hbase
  intro allowed
  have hout : base.recallOut id = true ↔ ∃ r ∈ base.rif.recalls, r.id = id := by simp [State.recallOut]
  refine ⟨fun h => by rw [hexec, if_pos (hout.mpr h)], fun hnone => ?_⟩
  have hacts : exec (.recallAnswered id) s = .next (base.recallResult id a) := by
    rw [hexec, if_neg fun h => ?_]
    obtain ⟨r, hr, hid⟩ := hout.mp h
    exact hnone r hr hid
  refine ⟨?kinds, ?origin, ?answer, ?release, ?reclaim, ?seek⟩
  case kinds =>
    rintro (hk | ⟨rfl, hk⟩)
    · rw [hacts, recallResult_unheard base a hk]
    · rw [hacts, recallResult_tooLate_idle base] <;> (intro h; simp [h] at hk)
  case origin =>
    intro c i x hf hx
    refine ⟨?_, fun hid => ?_⟩
    · rintro rfl rfl
      rw [recallResult_ring (b := base) hx hf, State.ringGone] at hacts
      refine ⟨fun hn => ?_, fun hst haw => ?_⟩
      · rw [hacts, if_neg fun h => hn.elim (· h.1) (· h.2)]
      · rw [if_pos ⟨hst, haw⟩] at hacts
        exact ⟨_, hacts, freeCtx_frees base i⟩
    · obtain ⟨k, hk, rfl⟩ : ∃ k, (k = .claim ∨ k = .wait) ∧ id = ⟨k, .call c⟩ :=
        hid.elim (fun h => ⟨.claim, .inl rfl, h⟩) fun h => ⟨.wait, .inr rfl, h⟩
      refine ⟨fun hn => ?_, fun hst haw ha => ?_, fun hst haw ha hhas hacc => ?_⟩
      · rw [hacts, recallResult_callFrame_idle (b := base) hx hk hf a hn]
      · rw [recallResult_callFrame_frees (b := base) hx hk hf hst haw ha] at hacts
        exact ⟨_, hacts, freeCtx_frees base i⟩
      · subst ha
        exact ⟨_, hacts, recallResult_callFrame_releases (b := base) hx hk hf hst haw hhas hacc⟩
  case answer =>
    rintro c i x hf hx rfl
    rw [recallResult_answer (b := base) hx hf a] at hacts
    refine ⟨fun hn => ?_, fun hst haw => ?_⟩
    · rw [hacts, if_neg fun h => hn.elim (· h.1) (· h.2)]
    · rw [if_pos ⟨hst, haw⟩] at hacts
      exact ⟨_, hacts, freeCtx_frees base i⟩
  case release =>
    rintro c i x hf hx rfl rfl hst haw
    obtain rfl : x.cid = c := by
      obtain ⟨y, hy, hc⟩ := findCall_some hf
      rwa [← Option.some.inj (hx.symm.trans hy)] at hc
    rw [recallResult_release (b := base) hx hf hst haw] at hacts
    have hallowed : base.reversalAllowed i = true ↔ allowed i := reversalAllowed_iff
    refine ⟨fun hrev hacc => ?_, fun hrev hal hacc => ?_, fun hrev hcause hal hhas k hk hacc => ?_,
      fun k hrev hcause hk hal hm hhold hlive hrec hen => ?_⟩
    · obtain ⟨hi, hrest⟩ := releaseRecalled_final (b := base) hx haw (.inl hrev) hacc
      exact ⟨_, hacts, by rw [hi, ← hrev], hrest⟩
    · have hnot : base.reversalAllowed i = false := Bool.eq_false_iff.mpr fun h => hal (hallowed.mp h)
      exact ⟨_, hacts, releaseRecalled_final (b := base) hx haw (.inr hnot) hacc⟩
    · exact ⟨_, hacts, releaseRecalled_claims (b := base) hx hrev (hallowed.mpr hal) hcause hhas hk hacc⟩
    · obtain ⟨h, hh⟩ := Option.isSome_iff_exists.mp hlive
      exact ⟨_, hacts, releaseRecalled_settles (b := base) hx hrev (hallowed.mpr hal) hcause hk hm ⟨h, hh, hhold h hh⟩ hrec hen⟩
  case reclaim =>
    rintro c rfl rfl hacc hp
    refine ⟨fun hnil => ?_, fun d g hd hold hone => ?_⟩
    · rw [hacts]
      exact congrArg _ (nextOverdue_idle (s := base) hnil)
    · exact ⟨_, hacts, recallResult_reclaim_oldest (b := base) hacc hp hd hold hone⟩
  case seek =>
    rintro u rfl rfl hacc hp
    obtain ⟨hoffer, hidle, hseek⟩ := recallResult_seek (b := base) hacc hp
    exact ⟨fun ho => ⟨_, hacts, hoffer ho⟩, fun ho hs => by rw [hacts, hidle ho hs],
      fun old r new ho hs hold hr => ⟨_, hacts, hseek old r new ho hs hold hr⟩⟩

end Sys2Proof.Machine
end

section
/-! PROOFS. The sixteenth spoiled attempt: the state in which the queuing block is told of the drop (R53), and what a drop leaves alone
at the other contexts and in the queue. -/

namespace Sys2Proof.Machine

/-! ### The entry leaves the queue -/

/-- The state in which a dropped frame's block acts: the entry and the open recall of its frame are gone, and no spoil mark was
driven (R52, R53, R56). -/
def State.spoiledOut (s : State) (pre post : List Entry) (e : Entry) : State :=
  { s with
    eventNo := s.eventNo + 1
    rif := { s.rif with
      queue := pre ++ post
      recalls := s.rif.recalls.eraseP fun r => r.opens e.frame.ident
      spoilMark := false } }

section Spoiled

variable {s : State} {pre post : List Entry} {e : Entry} (hq : s.rif.queue = pre ++ e :: post) (hc : e.carriage = .carrying)
  (hw : ∀ x ∈ pre ++ post, x.carriage = .waiting)
include hq hc hw

theorem carrying_of_split : s.carrying = some e := by
  have hnone : (pre.find? fun x => decide (x.carriage = .carrying)) = none := by
    simpa using fun x hx => by simp [hw x (List.mem_append_left _ hx)]
  simp [State.carrying, hq, List.find?_append, hnone, hc]

theorem dropCarrying_of_split : s.rif.queue.eraseP (fun x => decide (x.carriage = .carrying)) = pre ++ post := by
  rw [hq, List.eraseP_append_right _ fun x hx => by simp [hw x (List.mem_append_left _ hx)],
    List.eraseP_cons_of_pos (by simpa using hc)]

/-- The sixteenth spoiled attempt tells the block of the drop, and then LEAVE may fall due (R53, R77). -/
theorem exec_sixteenthSpoil (hr : s.onRiser = true) (hh : s.recallHeld e.frame.ident = false) (ha : e.attempts = 15) (a : Byte)
    (received : List Byte) :
    exec (.frameSpoiled a received) s = .next ((s.spoiledOut pre post e).frameDropped e.frame).leaveCheck := by
  have hheld : ((s.newEvent).setMark false).recallHeld e.frame.ident = false := hh
  have hbase : (((s.newEvent).setMark false).dropCarrying).forgetOpenRecall e.frame.ident = s.spoiledOut pre post e := by
    simp only [State.newEvent, State.setMark, State.dropCarrying, State.forgetOpenRecall, State.spoiledOut,
      dropCarrying_of_split hq hc hw]
  change execFrameSpoiled a received s = _
  simp only [execFrameSpoiled, hr, carrying_of_split hq hc hw, State.ownSpoiled, hheld, ha, Config.dropAttempts, hbase]
  rfl

omit hc hw in
/-- A category whose allowance held has room for one frame less after the drop (R48). -/
theorem count_spoiledOut (k : Category) :
    (s.spoiledOut pre post e).rif.count k + (if frameCategory e.frame = k then 1 else 0) = s.rif.count k := by
  simp only [Rif.count, State.spoiledOut, hq, List.countP_append, List.countP_cons, decide_eq_true_eq]
  omega

omit hc hw in
theorem room_spoiledOut {k : Category} (hl : QueueLaw s) (hk : frameCategory e.frame = k) :
    (s.spoiledOut pre post e).rif.count k < k.allowance := by
  have hcount := count_spoiledOut hq k
  rw [if_pos hk] at hcount
  have := hl.1 k
  omega

omit hc hw in
/-- What RIF took before the drop it takes after. -/
theorem accepts_spoiledOut {f : Frame} (h : s.accepts f = true) : (s.spoiledOut pre post e).accepts f = true := by
  have hcount := count_spoiledOut hq (frameCategory f)
  simp only [State.accepts, Bool.and_eq_true, decide_eq_true_eq] at h ⊢
  exact ⟨h.1, by omega⟩

omit hc hw in
/-- A frame of another identity is queued after the drop as before. -/
theorem queued_spoiledOut {id : FrameId} (hid : e.frame.ident ≠ id) : (s.spoiledOut pre post e).queued id = s.queued id := by
  simp [State.queued, State.spoiledOut, hq, hid]

end Spoiled

theorem sends_of_onRiser {s : State} (h : s.onRiser = true) : s.stc.state.sends = true := by
  unfold State.onRiser at h
  cases hs : s.stc.state <;> simp_all [StationState.sends]

/-! ### Other contexts -/

theorem otherContextsKept_of_spares {ks : FrameKind → Prop} {i : Ref} {a t : State} (h : ∀ j, j ≠ i → Spares ks j a t) :
    OtherContextsKept i a t := fun j hj => (h j hj).ctx

theorem OtherContextsKept.leaveCheck {i : Ref} {s t : State} (h : OtherContextsKept i s t) : OtherContextsKept i s t.leaveCheck :=
  fun j hj => (ctx_leaveCheck t j).trans (h j hj)

section Drops

variable {b : State} {i j : Ref} (hj : j ≠ i)
include hj

theorem spares_callFrameGone (x : Ctx) : Spares (fun _ => True) j b (b.callFrameGone i x) := by
  unfold State.callFrameGone; split
  · exact (Spares.refl j b).freeCtx hj
  · exact Spares.refl j b

theorem spares_ringDropped : Spares (fun _ => True) j b (b.ringDropped i) := by
  have h := Spares.refl (ks := fun _ => True) j b
  unfold State.ringDropped State.ringGone
  cases b.ctx i with
  | none => exact h
  | some x =>
    dsimp only; repeat' split
    · exact h.freeCtx hj
    · exact h.setCtx hj _
    · exact h.endNow hj _
    · exact (h.setCtx hj _).clearOrigin trivial hj _ _

theorem spares_claimDropped : Spares (fun _ => True) j b (b.claimDropped i) := by
  unfold State.claimDropped
  cases b.ctx i with
  | none => exact Spares.refl j b
  | some x =>
    dsimp only; split
    · exact (Spares.refl j b).claimFailed trivial trivial trivial hj _
    · exact spares_callFrameGone hj x

theorem spares_waitDropped : Spares (fun _ => True) j b (b.waitDropped i) := by
  unfold State.waitDropped
  cases b.ctx i with
  | none => exact Spares.refl j b
  | some x =>
    dsimp only; split
    · exact (Spares.refl j b).clearOrigin trivial hj _ _
    · exact spares_callFrameGone hj x

theorem spares_answerDropped : Spares (fun _ => True) j b (b.answerDropped i) := by
  unfold State.answerDropped
  cases b.ctx i with
  | none => exact Spares.refl j b
  | some x =>
    dsimp only; repeat' split
    · exact (Spares.refl j b).endNow hj _
    · exact (Spares.refl j b).freeCtx hj
    · exact Spares.refl j b

theorem spares_releaseDropped : Spares (fun _ => True) j b (b.releaseDropped i) := by
  unfold State.releaseDropped
  cases b.ctx i with
  | none => exact Spares.refl j b
  | some x =>
    dsimp only; split
    · exact ((Spares.refl j b).post _).freeCtx hj
    · exact Spares.refl j b

omit hj in
theorem spares_openDropped : Spares (fun _ => True) j b (b.openDropped i) := by
  unfold State.openDropped
  cases b.ctx i with
  | none => exact Spares.refl j b
  | some x =>
    dsimp only; split
    · exact ((Spares.refl j b).setDoor i none).post _
    · exact Spares.refl j b

theorem spares_startRinging (ms : List Byte) : Spares (fun _ => True) j b (b.startRinging i ms) := by
  unfold State.startRinging
  cases b.ctx i with
  | none => exact Spares.refl j b
  | some x =>
    have h := ((Spares.refl (ks := fun _ => True) j b).setCtx hj (some { x with state := .ringing, members := ms })).callState i
      (.ringing 0 ms.length false)
    dsimp only; split
    · exact h.queueFrame _ trivial
    · exact h.endNow hj _

theorem spares_queueForward (ms : List Byte) : Spares (fun _ => True) j b (b.queueForward i ms) := by
  have h := Spares.refl (ks := fun _ => True) j b
  unfold State.queueForward
  cases b.ctx i with
  | none => exact h
  | some x =>
    dsimp only; split
    · exact (h.queueFrame _ trivial).setCtx hj _
    · exact (h.setCtx hj _).clearOrigin trivial hj _ _

theorem spares_seekResult (r : Option (List Byte)) : Spares (fun _ => True) j b (State.seekResult r b i) := by
  have h := Spares.refl (ks := fun _ => True) j b
  unfold State.seekResult
  cases b.ctx i with
  | none => exact h
  | some x =>
    dsimp only; split
    · cases r with
      | some ms => exact spares_startRinging hj ms
      | none => exact h.endNow hj _
    · split
      · cases r with
        | none => exact (h.modifyCtx hj _).clearOrigin trivial hj _ _
        | some ms => exact spares_queueForward hj ms
      · exact h

end Drops

/-! ### The queue -/

/-- The shared place passes on by a frame queued, with its mark in UDIR (R93). -/
theorem handOut_cases (s : State) :
    s.handOut = s
      ∨ (∃ f, s.udir.offer = .pending ∧ s.handOut = { s.queueFrame f with udir := { s.udir with offer := .queued } })
      ∨ (∃ f, s.udir.offer ≠ .pending
          ∧ s.handOut = { s.queueFrame f with udir := { s.udir with seeks := queueFirstPending s.udir.seeks } }) := by
  unfold State.handOut
  split
  · exact .inl rfl
  · split
    · rename_i ho
      dsimp only; split
      · exact .inr (.inl ⟨_, ho, rfl⟩)
      · exact .inl rfl
    · rename_i ho
      split
      · split
        · exact .inr (.inr ⟨_, ho, rfl⟩)
        · exact .inl rfl
      · exact .inl rfl

theorem handOut_eq (s : State) : s.handOut = s ∨ ∃ f d, s.handOut = { s.queueFrame f with udir := d } := by
  rcases handOut_cases s with h | ⟨f, -, h⟩ | ⟨f, -, h⟩
  · exact .inl h
  · exact .inr ⟨f, _, h⟩
  · exact .inr ⟨f, _, h⟩

theorem Adds.queueFrame (s : State) (f : Frame) : Adds (fun _ => True) s (s.queueFrame f) :=
  ((Spares.refl 0 s).queueFrame f trivial).adds

theorem adds_handOut (s : State) : Adds (fun _ => True) s s.handOut := by
  rcases handOut_eq s with h | ⟨f, d, h⟩
  · rw [h]; exact Adds.refl _ s
  · rw [h]; exact (Adds.queueFrame s f).trans (Adds.of_rif rfl)

theorem adds_nextOverdue (s : State) : Adds (fun _ => True) s s.nextOverdue := by
  rcases nextOverdue_eq s with h | ⟨c, h⟩
  · rw [h]; exact Adds.refl _ s
  · rw [h]; exact (Adds.queueFrame s _).trans (Adds.of_rif rfl)

theorem adds_leaveCheck (s : State) : Adds (fun _ => True) s s.leaveCheck := by
  rcases leaveCheck_eq s with h | h
  · rw [h]; exact Adds.refl _ s
  · rw [h]; exact Adds.queueFrame s _

theorem adds_endSeek (s : State) (r : Seek) : Adds (fun _ => True) s (s.endSeek r) :=
  (Adds.of_rif (s := s) (t := s.removeSeek r.unit) rfl).trans
    (Adds.foldl (fun _ i => Adds.of_spares (i := i) fun _ hj => spares_seekResult hj (s.lookup r.unit)) _ _)

theorem adds_seekDropped (s : State) (u : UnitNum) : Adds (fun _ => True) s (s.seekDropped u) := by
  unfold State.seekDropped
  repeat' split
  · exact (adds_endSeek s _).trans (adds_handOut _)
  · exact adds_handOut s
  · exact adds_handOut s

theorem adds_learnRestart (s : State) (r : LearnReason) : Adds (fun _ => True) s (s.learnRestart r) := by
  set s1 : State := ((s.stopLearning).emptyCopy).setOutcome .none with hs1
  have h1 : Adds (fun _ => True) s s1 := Adds.of_rif rfl
  have h2 : Adds (fun _ => True) s1 (if s1.kindQueued .join then s1 else s1.queueFrame s1.joinFrame) := by
    split
    · exact Adds.refl _ s1
    · exact Adds.queueFrame s1 _
  exact (h1.trans h2).trans (Adds.of_rif (State.post_rif _ _))

theorem adds_joinDropped (s : State) : Adds (fun _ => True) s s.joinDropped := by
  unfold State.joinDropped
  split
  · exact adds_learnRestart s _
  · exact Adds.queueFrame s _
  · exact Adds.refl _ s

theorem adds_atCall {f : State → Ref → State} (s : State) (hf : ∀ i j, j ≠ i → Spares (fun _ => True) j s (f s i)) (side : Side)
    (c : CallId) : Adds (fun _ => True) s (s.atCall side c f) := by
  unfold State.atCall
  split
  · exact Adds.of_spares fun j hj => hf _ j hj
  · exact Adds.refl _ s

theorem adds_atParty {f : State → Ref → State} (s : State) (hf : ∀ i j, j ≠ i → Spares (fun _ => True) j s (f s i)) (c : CallId) :
    Adds (fun _ => True) s (s.atParty c f) := by
  unfold State.atParty
  split
  · exact Adds.of_spares fun j hj => hf _ j hj
  · exact Adds.refl _ s

/-- Only new frames join the queue at a drop other than that of LEAVE (R53). -/
theorem adds_frameDropped (s : State) {f : Frame} (hf : f ≠ .leave) : Adds (fun _ => True) s (s.frameDropped f) := by
  cases f with
  | leave => exact absurd rfl hf
  | snapshot _ _ => exact Adds.refl _ s
  | refuse _ _ => exact Adds.refl _ s
  | opened _ _ => exact Adds.refl _ s
  | reclaim c => exact (Adds.of_rif (s := s) (t := s.rearm c) rfl).trans (adds_nextOverdue _)
  | join _ _ _ => exact adds_joinDropped s
  | seek u => exact adds_seekDropped s u
  | offer _ _ => exact (Adds.of_rif (s := s) (t := s.setOffer .none) rfl).trans (adds_handOut _)
  | ring c _ _ _ _ _ => exact adds_atCall s (fun _ _ hj => spares_ringDropped hj) .origin c
  | answer c _ => exact adds_atCall s (fun _ _ hj => spares_answerDropped hj) .answer c
  | claim c _ _ => exact adds_atCall s (fun _ _ hj => spares_claimDropped hj) .origin c
  | wait c _ => exact adds_atCall s (fun _ _ hj => spares_waitDropped hj) .origin c
  | release c _ => exact adds_atParty s (fun _ _ hj => spares_releaseDropped hj) c
  | open_ c => exact adds_atCall s (fun _ _ _ => spares_openDropped) .answer c

/-- Frames added stand behind the queue, unspoiled and waiting. -/
theorem Adds.freshBehind {ks : FrameKind → Prop} {a t : State} (h : Adds ks a t) :
    ∃ more, t.rif.queue = a.rif.queue ++ more ∧ ∀ x ∈ more, x.attempts = 0 ∧ x.carriage = .waiting := by
  obtain ⟨fs, hq, -⟩ := h.queue
  refine ⟨_, hq, fun x hx => ?_⟩
  obtain ⟨f, -, rfl⟩ := List.mem_map.mp hx
  exact ⟨rfl, rfl⟩

end Sys2Proof.Machine
end

section
/-! PROOFS. A dropped frame of a call at its context (R53, R111, R115, R116, R123, R124, R142, R166). -/

namespace Sys2Proof.Machine

/-! ### How a context fares -/

/-- Context i is freed, and nothing else of the contexts or the copy changes. -/
def FreedAt (i : Ref) (s t : State) : Prop := t.ctx i = none ∧ OtherContextsKept i s t ∧ t.smu = s.smu

/-- Context i ends with its CALL_ENDED notice, and nothing else of the contexts or the copy changes. -/
def EndedAt (i : Ref) (c : CallId) (k : Cause) (s t : State) : Prop :=
  t.ctx i = none ∧ OtherContextsKept i s t ∧ Posted (.callEnded i c (some k)) t ∧ t.smu = s.smu

/-- Context i stands in CLEARING with SEND_FAILED, its RELEASE queued behind `q`. -/
def SendFailsAt (i : Ref) (x : Ctx) (q : List Entry) (s t : State) : Prop :=
  ∃ z, t.ctx i = some z ∧ Clearing x .sendFailed false z ∧ z.awaits = .release
    ∧ t.rif.queue = q ++ [Entry.fresh (.release x.cid 15#8)] ∧ OtherContextsKept i s t ∧ t.smu = s.smu

theorem FreedAt.leaveCheck {i : Ref} {s t : State} (h : FreedAt i s t) : FreedAt i s t.leaveCheck := by
  obtain ⟨hi, hother, hsmu⟩ := h
  exact ⟨(ctx_leaveCheck t i).trans hi, hother.leaveCheck, (leaveCheck_smu t).trans hsmu⟩

theorem EndedAt.leaveCheck {i : Ref} {c : CallId} {k : Cause} {s t : State} (h : EndedAt i c k s t) : EndedAt i c k s t.leaveCheck := by
  obtain ⟨hi, hother, hposted, hsmu⟩ := h
  exact ⟨(ctx_leaveCheck t i).trans hi, hother.leaveCheck, hposted.of_sport (leaveCheck_sport t), (leaveCheck_smu t).trans hsmu⟩

theorem SendFailsAt.leaveCheck {i : Ref} {x : Ctx} {q : List Entry} {s t : State} (h : SendFailsAt i x q s t) :
    SendFailsAt i x q s t.leaveCheck := by
  obtain ⟨z, hz, -⟩ := id h
  rwa [leaveCheck_of_live hz]

/-- What context i itself was before plays no part. -/
theorem OtherContextsKept.of_setCtx {i : Ref} {c : Option Ctx} {s t : State} (h : OtherContextsKept i (s.setCtx i c) t) :
    OtherContextsKept i s t := fun j hj => by rw [h j hj, State.ctx_setCtx, if_neg hj]

theorem State.recallOpen.of_rif {s t : State} {id : FrameId} (h : s.recallOpen id) (ht : t.rif = s.rif) : t.recallOpen id := by
  unfold State.recallOpen; rwa [ht]

theorem freed_freeCtx (s : State) (i : Ref) : FreedAt i s (s.freeCtx i) :=
  ⟨ctx_freeCtx s i, (freeCtx_frees s i).2.1, freeCtx_smu s i⟩

/-! ### Ending and clearing -/

section AtContext

variable {a : State} {i : Ref} {y : Ctx} (hy : a.ctx i = some y)
include hy

/-- A context that ends at once posts CALL_ENDED with its first cause (R119, R123). -/
theorem posted_endNow (hp : y.endPosted = false) (k : Cause) :
    Posted (.callEnded i y.cid (some (y.cause.getD k))) (a.endNow i k) := by
  have hz : ((a.modifyCtx i fun c => (c.stopTimers).firstCause k).dropDuties i).ctx i = some ((y.stopTimers).firstCause k) := by
    simp [State.ctx_modifyCtx, hy]
  have hzp : ((y.stopTimers).firstCause k).endPosted = false := hp
  rw [State.endNow, State.freeCtx, postEnd_eq hz, hzp]
  exact (posted_post _ _).of_sport rfl

theorem endNow_ended (hp : y.endPosted = false) (hc : y.cause = none) (k : Cause) : EndedAt i y.cid k a (a.endNow i k) := by
  have hposted := posted_endNow hy hp k
  rw [hc, Option.getD_none] at hposted
  exact ⟨ctx_endNow .., otherContextsKept_of_spares (ks := fun _ => True) fun j hj => (Spares.refl j a).endNow hj k, hposted,
    endNow_smu ..⟩

omit hy in
theorem clearOrigin_smu (k : Cause) (f : Bool) : (a.clearOrigin i k f).smu = a.smu := ((Calm.refl a).clearOrigin i k f).smu

omit hy in
theorem clearOrigin_others (k : Cause) (f : Bool) : OtherContextsKept i a (a.clearOrigin i k f) :=
  otherContextsKept_of_spares (ks := fun _ => True) fun j hj => (Spares.refl j a).clearOrigin trivial hj k f

/-- An announced call without a path clears with SEND_FAILED (R121). -/
theorem clearOrigin_sendFails (hbare : y.state ≠ .settling ∧ y.state ≠ .talk) (hann : y.announced = true) (hc : y.cause = none)
    (ha : a.accepts (.release y.cid 15#8) = true) : SendFailsAt i y a.rif.queue a (a.clearOrigin i .sendFailed true) := by
  have hframe : (y.cleared .sendFailed).releaseFrame = .release y.cid 15#8 := releaseFrame_cleared hc _
  obtain ⟨hi, hq⟩ := clearOrigin_released hy hbare hann .sendFailed (by rwa [hframe])
  have hclear := clearing_cleared .sendFailed y .release
  rw [hc, Option.getD_none] at hclear
  exact ⟨_, hi, hclear, rfl, by rw [hq, hframe], clearOrigin_others _ _, clearOrigin_smu _ _⟩

/-- A call never announced, with no RING queued, ends; its CLAIM and WAIT are recalled (R121). -/
theorem clearOrigin_ends (hbare : y.state ≠ .settling ∧ y.state ≠ .talk) (hann : y.announced = false) (hside : y.side = .origin)
    (hp : y.endPosted = false) (hc : y.cause = none) (hq : a.queued ⟨.ring, .call y.cid⟩ = false) (k : Cause) :
    EndedAt i y.cid k a (a.clearOrigin i k true)
      ∧ ∀ f ∈ [FrameKind.claim, .wait], a.queued ⟨f, .call y.cid⟩ = true → (a.clearOrigin i k true).recallOpen ⟨f, .call y.cid⟩ := by
  have hended := clearOrigin_ended hy hbare hann hside hq k
  have hposted := posted_clearedAt hy k hp
  rw [hc, Option.getD_none] at hposted
  refine ⟨⟨?_, clearOrigin_others _ _, ?_, clearOrigin_smu _ _⟩, fun f hf hfq => ?_⟩
  · rw [hended, State.ctx_setCtx, if_pos rfl]
  · rw [hended]; exact hposted.of_sport (State.setCtx_sport ..)
  · have hopen : (a.clearedAt i y k).recallOpen ⟨f, .call y.cid⟩ :=
      recallOpen_recallCall (List.mem_cons_of_mem _ hf) (by rwa [queued_enterClearing])
    rw [hended]
    exact hopen.of_rif (State.setCtx_rif ..)

omit hy in
theorem teardown_ctxs (s : State) (i : Ref) : (s.teardown i).ctxs = s.ctxs := by
  unfold State.teardown
  split
  · dsimp only; split
    · exact (reckonOwner_ctxs _).trans rfl
    · exact (reckonOwner_ctxs _).trans rfl
  · rfl

omit hy in
theorem teardown_rif (s : State) (i : Ref) : (s.teardown i).rif = s.rif := by
  unfold State.teardown
  split
  · dsimp only; split
    · exact (reckonOwner_rif _).trans rfl
    · exact (reckonOwner_rif _).trans rfl
  · rfl

omit hy in
theorem teardownThenRelease_lit {s : State} {i : Ref} (h : s.path.lit i = true) :
    s.teardownThenRelease i = (s.teardown i).setAwaits i .pathOff := by
  simp [State.teardownThenRelease, State.pathDark, h]

/-- A call on a lit path waits in CLEARING for its transmitters to be off, its RELEASE not yet due (R121 step 4, R156). -/
theorem clearOrigin_mutes (hst : y.state = .settling ∨ y.state = .talk) (hc : y.cause = none) (hl : a.path.lit i = true) :
    (a.clearOrigin i .sendFailed true).rif.queue = a.rif.queue
      ∧ ∃ z, (a.clearOrigin i .sendFailed true).ctx i = some z ∧ Clearing y .sendFailed false z ∧ z.awaits = .pathOff := by
  have hlit : (a.clearedAt i y .sendFailed).path.lit i = true := by rw [clearedAt_path, hl]
  have heq : a.clearOrigin i .sendFailed true = ((a.clearedAt i y .sendFailed).teardown i).setAwaits i .pathOff := by
    simp only [State.clearOrigin, hy]
    exact (if_pos hst).trans (teardownThenRelease_lit hlit)
  have hctx : ((a.clearedAt i y .sendFailed).teardown i).ctx i = some (y.cleared .sendFailed) :=
    (State.ctx_congr (teardown_ctxs _ i) i).trans (ctx_clearedAt hy _)
  have hclear := clearing_cleared .sendFailed y .pathOff
  rw [hc, Option.getD_none] at hclear
  rw [heq, State.setAwaits, modifyCtx_live hctx]
  refine ⟨?_, _, by rw [State.ctx_setCtx, if_pos rfl], hclear, rfl⟩
  rw [State.setCtx_rif, teardown_rif, clearedAt_queue]

/-! ### RING -/

/-- A direct RING in RINGING ends its call (R124). -/
theorem ringDropped_direct (hst : y.state = .ringing) (hf : y.forward ≠ .queued) : a.ringDropped i = a.endNow i .sendFailed := by
  simp [State.ringDropped, hy, hst, hf]

theorem ringDropped_fate (hst : y.state = .clearing) (haw : y.awaits = .ringFate) : a.ringDropped i = a.freeCtx i := by
  simp [State.ringDropped, State.ringGone, hy, hst, haw]

/-- Any other RING clears its call, forward NONE (R111, R112). -/
theorem ringDropped_clears (hst : y.state ≠ .clearing) (hf : ¬ (y.state = .ringing ∧ y.forward ≠ .queued)) :
    a.ringDropped i = (a.setCtx i (some { y with forward := .none })).clearOrigin i .sendFailed true := by
  simp only [State.ringDropped, hy, if_neg hst, if_neg hf]

/-! ### CLAIM, WAIT, ANSWER, RELEASE and OPEN -/

theorem claimDropped_fails (hst : y.state = .claiming) : a.claimDropped i = a.claimFailed i .dropped := by
  simp [State.claimDropped, hy, hst]

theorem claimDropped_fate (hst : y.state = .clearing) (haw : y.awaits = .frameRecall) : a.claimDropped i = a.freeCtx i := by
  simp [State.claimDropped, State.callFrameGone, hy, hst, haw]

theorem waitDropped_clears (hst : y.state = .claiming) : a.waitDropped i = a.clearOrigin i .sendFailed true := by
  simp [State.waitDropped, hy, hst]

theorem waitDropped_fate (hst : y.state = .clearing) (haw : y.awaits = .frameRecall) : a.waitDropped i = a.freeCtx i := by
  simp [State.waitDropped, State.callFrameGone, hy, hst, haw]

theorem answerDropped_answering (hst : y.state = .answering) : a.answerDropped i = a.endNow i .sendFailed := by
  simp [State.answerDropped, hy, hst]

theorem answerDropped_fate (hst : y.state = .clearing) (haw : y.awaits = .answerRecall) : a.answerDropped i = a.freeCtx i := by
  simp [State.answerDropped, hy, hst, haw]

/-- A dropped RELEASE posts SEND_FAILED and frees its context (R123, R142). -/
theorem releaseDropped_frees (hst : y.state = .clearing) (haw : y.awaits = .release) (hp : y.endPosted = true) :
    a.releaseDropped i = (a.post (.sendFailed i y.cid .release)).setCtx i none := by
  have hpost : (a.post (.sendFailed i y.cid .release)).ctx i = some y := by simp [hy]
  simp only [State.releaseDropped, hy, if_pos (And.intro hst haw), State.freeCtx, postEnd_eq hpost, if_pos hp]

theorem releaseDropped_freed (hst : y.state = .clearing) (haw : y.awaits = .release) (hp : y.endPosted = true) :
    FreedAt i a (a.releaseDropped i) ∧ Posted (.sendFailed i y.cid .release) (a.releaseDropped i) := by
  have heq := releaseDropped_frees hy hst haw hp
  refine ⟨⟨?_, otherContextsKept_of_spares fun j hj => spares_releaseDropped hj, ?_⟩, ?_⟩
  · rw [heq, State.ctx_setCtx, if_pos rfl]
  · rw [heq, State.setCtx_smu, State.post_smu]
  · rw [heq]; exact (posted_post _ _).of_sport (State.setCtx_sport ..)

/-- A dropped OPEN ends the door request with NO_REPLY (R166). -/
theorem openDropped_ends {d : Nat} (hd : a.oku.door[i] = some d) :
    (a.openDropped i).oku.door[i] = none ∧ (a.openDropped i).ctxs = a.ctxs
      ∧ Posted (.door (some i) y.cid .noReply 0#8) (a.openDropped i) := by
  have heq : a.openDropped i = (a.setDoor i none).post (.door (some i) y.cid .noReply 0#8) := by
    simp only [State.openDropped, hy, State.doorPending, hd, Option.isSome_some, if_true]
    rfl
  rw [heq]
  refine ⟨?_, by simp, posted_post _ _⟩
  rw [State.post_oku]
  simp [State.setDoor]

/-! ### The failed CLAIM -/

section ClaimFailed

variable (hs : a.stc.state.sends = true) (hr : a.rif.count .call < 8)
include hs hr

/-- At the fourth failure, or with no channel free, WAIT is queued (R115). -/
theorem claimFailed_waits (hh : a.smu.has y.cid = false) (hw : 4 ≤ y.attempts + 1 ∨ placement a.smu.holds y.wanted = none) :
    a.claimFailed i .dropped = (a.setCtx i (some (y.failClaim .dropped))).queueFrame (.wait y.cid (byte y.wanted)) := by
  have hctx : (a.setCtx i (some (y.failClaim .dropped))).ctx i = some (y.failClaim .dropped) := by simp
  have hwait := queueWait_accepted hctx ((accepts_call rfl).mpr ⟨hs, hr⟩)
  by_cases h4 : 4 ≤ y.attempts + 1
  · rw [claimFailed_fourth hy _ h4, hwait]
    rfl
  · rw [claimFailed_below hy _ (not_le.mp h4), choose_unplaced hctx hh (hw.resolve_left h4), hwait]
    rfl

/-- Below the fourth the next CLAIM is queued on the lowest free block (R114, R115). -/
theorem claimFailed_claims (hh : a.smu.has y.cid = false) (h4 : y.attempts + 1 < 4) {k : Block}
    (hk : placement a.smu.holds y.wanted = some k) :
    a.claimFailed i .dropped =
      (a.setCtx i (some (y.failClaim .dropped))).queueFrame (.claim y.cid (byte k.1) (byte k.2)) := by
  have hctx : (a.setCtx i (some (y.failClaim .dropped))).ctx i = some (y.failClaim .dropped) := by simp
  rw [claimFailed_below hy _ h4, choose_placed hctx hh hk ((accepts_call rfl).mpr ⟨hs, hr⟩)]
  rfl

omit hy in
theorem queue_setCtx_queueFrame {f : Frame} (hf : frameCategory f = .call) (c : Option Ctx) :
    ((a.setCtx i c).queueFrame f).rif.queue = a.rif.queue ++ [Entry.fresh f] := by
  rw [queueFrame_accepted (s := a.setCtx i c) ((accepts_call hf).mpr ⟨hs, hr⟩)]
  rfl

end ClaimFailed

end AtContext

end Sys2Proof.Machine
end

section
/-! PROOFS. A dropped frame of the copy, of the station controller and of the directory (R37, R53, R66, R69, R77, R96, R97). -/

namespace Sys2Proof.Machine

/-! ### RECLAIM -/

theorem holdOf_setAudit (s : State) (c d : CallId) (a : Audit) :
    (s.setAudit c a).smu.holdOf d = (s.smu.holdOf d).map fun h => if h.cid = c then { h with audit := a } else h := by
  have hcid : ((fun h : Hold => decide (h.cid = d)) ∘ fun h => if h.cid = c then { h with audit := a } else h)
      = fun h => decide (h.cid = d) := by
    funext h
    simp only [Function.comp_apply]
    split <;> rfl
  simp only [Smu.holdOf, State.setAudit, List.find?_map, hcid]

theorem waitOf_setAudit (s : State) (c d : CallId) (a : Audit) :
    (s.setAudit c a).smu.waitOf d = (s.smu.waitOf d).map fun w => if w.cid = c then { w with audit := a } else w := by
  have hcid : ((fun w : WaitEntry => decide (w.cid = d)) ∘ fun w => if w.cid = c then { w with audit := a } else w)
      = fun w => decide (w.cid = d) := by
    funext w
    simp only [Function.comp_apply]
    split <;> rfl
  simp only [Smu.waitOf, State.setAudit, List.find?_map, hcid]

section SetAudit

variable {s : State} {c : CallId}

theorem holdOf_setAudit_self {h : Hold} (hh : s.smu.holdOf c = some h) (a : Audit) :
    (s.setAudit c a).smu.holdOf c = some { h with audit := a } := by
  simp [holdOf_setAudit, hh, (holdOf_some hh).2]

theorem waitOf_setAudit_self {w : WaitEntry} (hw : s.smu.waitOf c = some w) (a : Audit) :
    (s.setAudit c a).smu.waitOf c = some { w with audit := a } := by
  simp [waitOf_setAudit, hw, (waitOf_some hw).2]

theorem holdOf_setAudit_ne {d : CallId} (hd : d ≠ c) (a : Audit) : (s.setAudit c a).smu.holdOf d = s.smu.holdOf d := by
  cases hh : s.smu.holdOf d with
  | none => simp [holdOf_setAudit, hh]
  | some h => simp [holdOf_setAudit, hh, (holdOf_some hh).2, hd]

theorem waitOf_setAudit_ne {d : CallId} (hd : d ≠ c) (a : Audit) : (s.setAudit c a).smu.waitOf d = s.smu.waitOf d := by
  cases hw : s.smu.waitOf d with
  | none => simp [waitOf_setAudit, hw]
  | some w => simp [waitOf_setAudit, hw, (waitOf_some hw).2, hd]

end SetAudit

/-- An entry changed at an item outside a filter, and to one outside it, leaves what the filter keeps. -/
theorem filter_map_of_outside {α : Type} {p : α → Bool} {f : α → α} {l : List α} (h : ∀ x ∈ l, f x = x ∨ (p x = false ∧ p (f x) = false)) :
    (l.map f).filter p = l.filter p := by
  induction l with
  | nil => rfl
  | cons x xs ih =>
    obtain ⟨hx, hxs⟩ := List.forall_mem_cons.mp h
    rw [List.map_cons, List.filter_cons, List.filter_cons, ih hxs]
    rcases hx with hx | ⟨hp, hpf⟩
    · rw [hx]
    · simp [hp, hpf]

/-- A re-armed item that was not overdue leaves the overdue ones (R37). -/
theorem overdue_rearm {s : State} {c : CallId} (h : ∀ y ∈ s.smu.overdue, y.1 ≠ c) : (s.rearm c).smu.overdue = s.smu.overdue := by
  have hholds : ∀ x ∈ s.smu.holds, x.cid = c → decide (x.audit = .overdue) = false := fun x hx hc => by
    refine decide_eq_false fun ha => h (x.cid, x.age) (List.mem_append_left _ (List.mem_map.mpr ⟨x, ?_, rfl⟩)) hc
    exact List.mem_filter.mpr ⟨hx, decide_eq_true ha⟩
  have hwaits : ∀ x ∈ s.smu.waits, x.cid = c → decide (x.audit = .overdue) = false := fun x hx hc => by
    refine decide_eq_false fun ha => h (x.cid, x.age) (List.mem_append_right _ (List.mem_map.mpr ⟨x, ?_, rfl⟩)) hc
    exact List.mem_filter.mpr ⟨hx, decide_eq_true ha⟩
  simp only [Smu.overdue, State.rearm, State.setAudit]
  rw [filter_map_of_outside fun x hx => ?_, filter_map_of_outside fun x hx => ?_]
  · by_cases hc : x.cid = c
    · exact .inr ⟨hwaits x hx hc, by simp [hc]⟩
    · exact .inl (if_neg hc)
  · by_cases hc : x.cid = c
    · exact .inr ⟨hholds x hx hc, by simp [hc]⟩
    · exact .inl (if_neg hc)

/-- In a lawful copy a call id is overdue with one age (R32). -/
theorem overdue_unique {m : Smu} (hl : SlotLaw m) {d : CallId} {g : Stamp} (hd : (d, g) ∈ m.overdue) {y : CallId × Stamp}
    (hy : y ∈ m.overdue) (hyd : y.1 = d) : y = (d, g) := by
  have hsub : (m.overdue.map Prod.fst).Sublist (m.holds.map Hold.cid ++ m.waits.map WaitEntry.cid) := by
    simp only [Smu.overdue, List.map_append, List.map_map]
    exact (List.filter_sublist.map Hold.cid).append (List.filter_sublist.map WaitEntry.cid)
  exact List.inj_on_of_nodup_map (hl.items.once.sublist hsub) hy hd hyd

theorem frameDropped_reclaim_idle {b : State} {c : CallId} (h : b.smu.overdue = []) :
    b.frameDropped (.reclaim c) = b.setAudit c (.armed (b.now + 100 * b.own.toNat)) :=
  nextOverdue_idle ((overdue_rearm (by simp [h])).trans h)

/-- The slot of a dropped RECLAIM goes to the oldest overdue item (R36, R37). -/
theorem frameDropped_reclaim_oldest {b : State} {c d : CallId} {g : Stamp} (hl : SlotLaw b.smu) (hd : (d, g) ∈ b.smu.overdue)
    (hc : ∀ y ∈ b.smu.overdue, y.1 ≠ c) (hold : ∀ y ∈ b.smu.overdue, y.1 ≠ d → g.older y.2 = true)
    (hp : b.placeHeld .reclaim = false) (ha : b.accepts (.reclaim d) = true) :
    let t := b.frameDropped (.reclaim c)
    Entry.fresh (.reclaim d) ∈ t.rif.queue ∧ t.ctxs = b.ctxs
      ∧ (∀ h, b.smu.holdOf d = some h → t.smu.holdOf d = some { h with audit := .reclaimQueued })
      ∧ (∀ w, b.smu.waitOf d = some w → t.smu.waitOf d = some { w with audit := .reclaimQueued }) := by
  have hdc : d ≠ c := hc (d, g) hd
  have holdest : oldestOf (b.rearm c).smu.overdue = some (d, g) := by
    rw [overdue_rearm hc]
    refine oldestOf_eq hd fun y hy => ?_
    by_cases hyd : y.1 = d
    · exact .inl (overdue_unique hl hd hy hyd)
    · exact .inr (hold y hy hyd)
  have ht : b.frameDropped (.reclaim c) = ((b.rearm c).queueFrame (.reclaim d)).setAudit d .reclaimQueued :=
    nextOverdue_oldest holdest ha hp
  rw [ht]
  refine ⟨?_, State.queueFrame_ctxs .., fun h hh => ?_, fun w hw => ?_⟩
  · rw [State.setAudit_rif, queueFrame_accepted (s := b.rearm c) ha]
    exact List.mem_append_right _ (List.mem_singleton.mpr rfl)
  · refine holdOf_setAudit_self ?_ _
    rw [State.queueFrame_smu]
    exact (holdOf_setAudit_ne hdc _).trans hh
  · refine waitOf_setAudit_self ?_ _
    rw [State.queueFrame_smu]
    exact (waitOf_setAudit_ne hdc _).trans hw

/-! ### JOIN -/

theorem frameCategory_stc {f : Frame} : frameCategory f = .stc ↔ f.kind = .join ∨ f.kind = .leave := by
  unfold frameCategory
  cases f.kind <;> simp

section Join

variable {b : State} (hs : b.stc.state.sends = true) (hr : b.rif.count .stc = 0)
include hs hr

theorem accepts_joinFrame : b.accepts b.joinFrame = true := by
  have hcat : frameCategory b.joinFrame = .stc := rfl
  simp [State.accepts, hs, hcat, hr, Category.allowance]

/-- Learning restarts, with JOIN queued afresh (R66). -/
theorem learnRestart_rejoins (r : LearnReason) :
    (b.learnRestart r).rif.queue = b.rif.queue ++ [Entry.fresh b.joinFrame]
      ∧ (b.learnRestart r).stc = { b.stc with buffer := [], learn := none, stagger := none, outcome := .none }
      ∧ (b.learnRestart r).smu = { holds := [], waits := [] } ∧ Posted (.learnRestart r) (b.learnRestart r) := by
  set s1 : State := ((b.stopLearning).emptyCopy).setOutcome .none with hs1
  have hnone : s1.kindQueued .join = false := by
    refine List.any_eq_false.mpr fun e he hk => ?_
    exact List.countP_eq_zero.mp hr e he (decide_eq_true (frameCategory_stc.mpr (.inl (of_decide_eq_true hk))))
  have hacc : s1.accepts s1.joinFrame = true := accepts_joinFrame (b := s1) hs hr
  have heq : b.learnRestart r = (s1.queueFrame s1.joinFrame).post (.learnRestart r) := by
    rw [State.learnRestart, ← hs1]
    simp only [hnone, Bool.false_eq_true, if_false]
  rw [heq]
  refine ⟨?_, ?_, ?_, posted_post _ _⟩
  · rw [State.post_rif, queueFrame_accepted hacc]; rfl
  · rw [State.post_stc, State.queueFrame_stc]; rfl
  · rw [State.post_smu, State.queueFrame_smu]; rfl

end Join

/-! ### LEAVE -/

theorem endAll_ctx (s : State) (i : Ref) : s.endAll.ctx i = none := by
  obtain ⟨a, -, -, -, hafter⟩ := eachCtx_around (ks := fun _ => True) (f := fun t i _ => State.endNow t i .isolated)
    (M := fun _ _ => True) (s := s) trivial (fun _ _ _ _ => trivial)
    (fun i t _ _ _ => ⟨trivial, fun j hj => (Spares.refl j t).endNow hj _⟩) i
  rw [State.endAll, hafter.ctx]
  cases ha : a.ctx i with
  | none => rw [visit_free ha, ha]
  | some y => rw [visit_live ha, ctx_endNow]

/-- What every way off the riser does behind the ended contexts (R77, R78). -/
theorem offTheRiser_emptied {u : State} (h : ∀ i, u.ctx i = none) :
    ((((u.clearPath).emptyQueue).emptyCopy.stopLearning).closeSeeks).offTheRiser := by
  refine ⟨h, rfl, rfl, fun i => ?_, fun n => ?_, rfl, rfl, rfl, rfl, rfl, rfl, rfl, rfl⟩
  · change u.path.clear.record i = none
    simp [Path.record, Path.clear]
  · change u.path.clear.enable n = none
    unfold Path.enable Path.clear
    split
    · rename_i e he
      rw [Vector.getElem?_replicate] at he
      split at he
      · exact (Option.some.inj he).symm
      · cases he
    · rfl

theorem offTheRiser_offRiser (s : State) : s.offRiser.offTheRiser := offTheRiser_emptied (endAll_ctx s)

theorem offRiser_state (s : State) : s.offRiser.stc.state = s.stc.state := by
  have hrest : ∀ u : State, ((((u.clearPath).emptyQueue).emptyCopy.stopLearning).closeSeeks).stc.state = u.stc.state := fun _ => rfl
  have hcalm : Calm s s.endAll := (Calm.refl s).eachCtx fun _ i _ h => h.endNow i .isolated
  exact (hrest _).trans hcalm.state

theorem State.offTheRiser.post {t : State} (h : t.offTheRiser) (n : Notice) : (t.post n).offTheRiser := by
  simpa only [State.offTheRiser, State.ctx, State.post_ctxs, State.post_smu, State.post_rif, State.post_path, State.post_stc,
    State.post_udir] using h

theorem nowConfigured_moveTo {u : State} (h : u.offTheRiser) (r : StationReason) :
    (u.purgeLines.moveTo .configured r).nowConfigured u.stc.state r := by
  have hoff : State.offTheRiser { u.purgeLines with stc := { u.stc with state := .configured, locked := false } } := h
  refine ⟨by simp [State.moveTo], by simp [State.moveTo, StationState.locks], hoff.post _, fun k => ?_, posted_post _ _⟩
  rw [State.moveTo, State.post_udir]
  simp [Udir.lineAt, State.purgeLines]

/-- The leave completes: the station stands in CONFIGURED, off the riser (R77). -/
theorem enterConfigured_nowConfigured (s : State) (r : StationReason) : (s.enterConfigured r).nowConfigured s.stc.state r := by
  rw [← offRiser_state s]
  exact nowConfigured_moveTo (offTheRiser_offRiser s) r

end Sys2Proof.Machine
end

section
/-! PROOFS. A dropped SEEK or OFFER: the record's end with its results, and the shared place (R93, R95, R96, R97). -/

namespace Sys2Proof.Machine

/-! ### The records of a unit -/

/-- No seek record of a unit is left. -/
def State.seeksNot (u : UnitNum) (t : State) : Prop := ∀ y ∈ t.udir.seeks, y.unit ≠ u

theorem queueFirstPending_units {l : List Seek} {y : Seek} (h : y ∈ queueFirstPending l) : ∃ z ∈ l, z.unit = y.unit := by
  induction l with
  | nil => cases h
  | cons r rs ih =>
    rw [queueFirstPending] at h
    split at h
    · rcases List.mem_cons.mp h with rfl | h
      · exact ⟨r, List.mem_cons_self, rfl⟩
      · exact ⟨y, List.mem_cons_of_mem _ h, rfl⟩
    · rcases List.mem_cons.mp h with rfl | h
      · exact ⟨y, List.mem_cons_self, rfl⟩
      · obtain ⟨z, hz, hu⟩ := ih h
        exact ⟨z, List.mem_cons_of_mem _ hz, hu⟩

theorem dropDuties_udir (s : State) (i : Ref) : (s.dropDuties i).udir = (s.leaveSeek i).udir := by simp [State.dropDuties]

section SeeksNot

variable {u : UnitNum} {s : State} (h : s.seeksNot u)
include h

theorem State.seeksNot.of_udir {t : State} (ht : t.udir = s.udir) : t.seeksNot u := by unfold State.seeksNot; rwa [ht]

theorem State.seeksNot.leaveSeek (i : Ref) : (s.leaveSeek i).seeksNot u := by
  unfold State.leaveSeek
  split
  · have hfilter : ∀ r : Seek,
        State.seeksNot u { s with udir := { s.udir with seeks := s.udir.seeks.filter fun x => x.unit ≠ r.unit } } :=
      fun r y hy => h y (List.mem_of_mem_filter hy)
    dsimp only; repeat' split
    · exact (hfilter _).of_udir (State.askRecall_udir ..)
    · exact hfilter _
    · intro y hy
      obtain ⟨z, hz, rfl⟩ := List.mem_map.mp hy
      have := h z hz
      split <;> exact this
  · exact h

theorem State.seeksNot.handOut : s.handOut.seeksNot u := by
  rcases handOut_cases s with hs | ⟨f, -, hs⟩ | ⟨f, -, hs⟩
  · rwa [hs]
  · rw [hs]; exact h
  · rw [hs]
    intro y hy
    obtain ⟨z, hz, hu⟩ := queueFirstPending_units hy
    rw [← hu]
    exact h z hz

theorem State.seeksNot.freeCtx (i : Ref) : (s.freeCtx i).seeksNot u := by
  obtain hp | ⟨n, c, hp⟩ := postEnd_cases s i
  · rw [State.freeCtx, hp]; exact h
  · rw [State.freeCtx, hp]; exact h.of_udir (State.post_udir ..)

theorem State.seeksNot.endNow (i : Ref) (k : Cause) : (s.endNow i k).seeksNot u := by
  have hm := h.of_udir (State.modifyCtx_udir (s := s) i fun c => (c.stopTimers).firstCause k)
  have hd := (hm.leaveSeek i).of_udir (dropDuties_udir _ i)
  exact hd.freeCtx i

theorem State.seeksNot.leaveCheck : s.leaveCheck.seeksNot u := by
  rcases leaveCheck_eq s with hs | hs
  · rwa [hs]
  · rw [hs]; exact h.of_udir (State.queueFrame_udir ..)

end SeeksNot

/-! ### The shared place -/

section HandOut

variable (s : State)

@[simp] theorem handOut_ctxs : s.handOut.ctxs = s.ctxs := by rcases handOut_eq s with h | ⟨f, d, h⟩ <;> simp [h]
@[simp] theorem handOut_smu : s.handOut.smu = s.smu := by rcases handOut_eq s with h | ⟨f, d, h⟩ <;> simp [h]
@[simp] theorem handOut_sport : s.handOut.sport = s.sport := by rcases handOut_eq s with h | ⟨f, d, h⟩ <;> simp [h]
@[simp] theorem ctx_handOut (i : Ref) : s.handOut.ctx i = s.ctx i := State.ctx_congr (handOut_ctxs s) i

end HandOut

theorem leaveCheck_offer (s : State) : s.leaveCheck.udir.offer = s.udir.offer := by
  rcases leaveCheck_eq s with h | h <;> simp [h]

/-- A dropped OFFER is owed no more (R97). -/
theorem frameDropped_offer (b : State) (u : UnitNum) (w : Byte) :
    (b.frameDropped (.offer u w)).udir.offer = .none ∧ (b.frameDropped (.offer u w)).ctxs = b.ctxs
      ∧ (b.frameDropped (.offer u w)).smu = b.smu := by
  have heq : b.frameDropped (.offer u w) = (b.setOffer .none).handOut := rfl
  rw [heq]
  refine ⟨?_, handOut_ctxs _, handOut_smu _⟩
  rcases handOut_cases (b.setOffer .none) with h | ⟨f, ho, -⟩ | ⟨f, -, h⟩
  · rw [h]; rfl
  · cases ho
  · rw [h]; rfl

/-! ### The results of a dropped SEEK -/

theorem EndedAt.handOut {i : Ref} {c : CallId} {k : Cause} {s t : State} (h : EndedAt i c k s t) : EndedAt i c k s t.handOut := by
  obtain ⟨hi, hother, hposted, hsmu⟩ := h
  exact ⟨(ctx_handOut t i).trans hi, fun j hj => (ctx_handOut t j).trans (hother j hj), hposted.of_sport (handOut_sport t),
    (handOut_smu t).trans hsmu⟩

/-- A context whose seek is over rings the members found, where RIF has room for the RING (R104, R106). -/
theorem startRinging_accepted {b : State} {i : Ref} {x : Ctx} (hx : b.ctx i = some x) {ms : List Byte}
    (ha : b.accepts (b.ringFrame x 0 ms) = true) :
    b.startRinging i ms =
      ((b.setCtx i (some { x with state := .ringing, members := ms })).post (.callState i x.cid (.ringing 0 ms.length false))).queueFrame
        (b.ringFrame x 0 ms) := by
  set z : Ctx := { x with state := .ringing, members := ms } with hz
  have hctx : (b.setCtx i (some z)).ctx i = some z := by simp
  have hstate : (b.setCtx i (some z)).callState i (.ringing 0 ms.length false)
      = (b.setCtx i (some z)).post (.callState i x.cid (.ringing 0 ms.length false)) := by
    simp only [State.callState, hctx]
    rfl
  have hacc : ((b.setCtx i (some z)).post (.callState i x.cid (.ringing 0 ms.length false))).accepts (b.ringFrame x 0 ms) = true := by
    rw [accepts_congr (s := b) (by simp) (by simp)]
    exact ha
  simp only [State.startRinging, hx, ← hz, hstate, hacc, if_true]

section SeekDropped

variable {b : State} {u : UnitNum} {r : Seek} {i : Ref} {x : Ctx} (hseek : b.udir.seekOf u = some r) (hstate : r.state = .queued)
  (hrefs : r.refs = [i]) (hx : b.ctx i = some x) (hst : x.state = .seeking)
include hseek

theorem seekOf_unit : r.unit = u := by simpa using List.find?_some hseek

include hstate hrefs hx hst

/-- The one context of the record has its result, and the shared place passes on (R96). -/
theorem seekDropped_rings {ms : List Byte} (hl : b.lookup u = some ms) :
    b.seekDropped u = ((b.removeSeek u).startRinging i ms).handOut := by
  have hx' : (b.removeSeek u).ctx i = some x := hx
  simp only [State.seekDropped, hseek, hstate, if_true, State.endSeek, hrefs, List.foldl_cons, List.foldl_nil, seekOf_unit hseek,
    State.seekResult, hx', hst, hl]

theorem seekDropped_unknown (hl : b.lookup u = none) :
    b.seekDropped u = ((b.removeSeek u).endNow i .unknownUnit).handOut := by
  have hx' : (b.removeSeek u).ctx i = some x := hx
  simp only [State.seekDropped, hseek, hstate, if_true, State.endSeek, hrefs, List.foldl_cons, List.foldl_nil, seekOf_unit hseek,
    State.seekResult, hx', hst, hl]

theorem seekDropped_seeksNot : (b.seekDropped u).seeksNot u := by
  have hremoved : (b.removeSeek u).seeksNot u := fun y hy => of_decide_eq_true (List.mem_filter.mp hy).2
  cases hl : b.lookup u with
  | none =>
    rw [seekDropped_unknown hseek hstate hrefs hx hst hl]
    exact (hremoved.endNow i _).handOut
  | some ms =>
    have hx' : (b.removeSeek u).ctx i = some x := hx
    have hs1 : State.seeksNot u (((b.removeSeek u).setCtx i (some { x with state := .ringing, members := ms })).callState i
        (.ringing 0 ms.length false)) := by
      unfold State.callState
      split
      · exact hremoved.of_udir (State.post_udir ..)
      · exact hremoved
    rw [seekDropped_rings hseek hstate hrefs hx hst hl]
    refine State.seeksNot.handOut ?_
    simp only [State.startRinging, hx']
    split
    · exact hs1.of_udir (State.queueFrame_udir ..)
    · exact hs1.endNow i _

/-- On a hit the context rings (R95). -/
theorem seekDropped_hit {ms : List Byte} (hl : b.lookup u = some ms) (ha : b.accepts (b.ringFrame x 0 ms) = true) :
    (b.seekDropped u).ctx i = some { x with state := .ringing, members := ms } ∧ OtherContextsKept i b (b.seekDropped u)
      ∧ Posted (.callState i x.cid (.ringing 0 ms.length false)) (b.seekDropped u) := by
  rw [seekDropped_rings hseek hstate hrefs hx hst hl,
    startRinging_accepted (b := b.removeSeek u) (i := i) (x := x) hx (ms := ms) ha]
  refine ⟨by simp, fun j hj => ?_, (posted_post _ _).of_sport ((handOut_sport _).trans (State.queueFrame_sport ..))⟩
  rw [ctx_handOut, ctx_queueFrame, ctx_post, State.ctx_setCtx, if_neg hj]
  rfl

/-- On a miss it ends with UNKNOWN_UNIT (R95). -/
theorem seekDropped_miss (hl : b.lookup u = none) (hp : x.endPosted = false) (hc : x.cause = none) :
    EndedAt i x.cid .unknownUnit b (b.seekDropped u) := by
  rw [seekDropped_unknown hseek hstate hrefs hx hst hl]
  exact (endNow_ended (a := b.removeSeek u) hx hp hc .unknownUnit).handOut

end SeekDropped

end Sys2Proof.Machine
end

section
/-! PROOFS. The sixteenth spoiled attempt, kind by kind (R53, O11). -/

namespace Sys2Proof.Machine

/-! ### A dropped RING, CLAIM or WAIT at its ORIGIN context -/

section AtOrigin

variable {b : State} {c : CallId} {i : Ref} {x : Ctx} (hf : b.findCtx .origin c = some i) (hx : b.ctx i = some x)
include hf

theorem frameDropped_ring (u : UnitNum) (w r p : Byte) (ms : List Byte) :
    b.frameDropped (.ring c u w r p ms) = b.ringDropped i := atCall_found hf _

theorem frameDropped_claim (k w : Byte) : b.frameDropped (.claim c k w) = b.claimDropped i := atCall_found hf _

theorem frameDropped_wait (w : Byte) : b.frameDropped (.wait c w) = b.waitDropped i := atCall_found hf _

include hx

theorem side_and_cid : x.side = .origin ∧ x.cid = c := by
  obtain ⟨y, hy, hside, hcid⟩ := findCtx_some hf
  rw [Option.some.inj (hx.symm.trans hy)]
  exact ⟨hside, hcid⟩

omit hf in
/-- A RING outside RINGING, or a forward one, clears an announced call (R111, R112). -/
theorem ringDropped_sendFails (hacc : b.accepts (.release x.cid 15#8) = true) (hc : x.cause = none) (hann : x.announced = true)
    (hst : (x.state = .ringing ∧ x.forward = .queued) ∨ x.state = .claiming ∨ x.state = .waiting) :
    SendFailsAt i x b.rif.queue b (b.ringDropped i) := by
  have hn : x.state ≠ .clearing := by rcases hst with ⟨h, -⟩ | h | h <;> simp [h]
  have hr : ¬ (x.state = .ringing ∧ x.forward ≠ .queued) := by rcases hst with ⟨-, h⟩ | h | h <;> simp [h]
  have hbare : x.state ≠ .settling ∧ x.state ≠ .talk := by rcases hst with ⟨h, -⟩ | h | h <;> simp [h]
  rw [ringDropped_clears hx hn hr]
  obtain ⟨z, hz, hclear, haw, hq, hother, hsmu⟩ :=
    clearOrigin_sendFails (a := b.setCtx i (some { x with forward := .none })) (i := i) (y := { x with forward := .none })
      (by simp) hbare hann hc hacc
  exact ⟨z, hz, hclear, haw, hq, hother.of_setCtx, hsmu⟩

/-- The call whose RING was never taken ends (R121, log 41). -/
theorem ringDropped_ends (hc : x.cause = none) (hann : x.announced = false) (hp : x.endPosted = false)
    (hst : x.state = .claiming ∨ x.state = .waiting) (hq : b.queued ⟨.ring, .call x.cid⟩ = false) :
    EndedAt i x.cid .sendFailed b (b.ringDropped i)
      ∧ ∀ k ∈ [FrameKind.claim, .wait], b.queued ⟨k, .call x.cid⟩ = true → (b.ringDropped i).recallOpen ⟨k, .call x.cid⟩ := by
  have hn : x.state ≠ .clearing := by rcases hst with h | h <;> simp [h]
  have hr : ¬ (x.state = .ringing ∧ x.forward ≠ .queued) := by rcases hst with h | h <;> simp [h]
  have hbare : x.state ≠ .settling ∧ x.state ≠ .talk := by rcases hst with h | h <;> simp [h]
  rw [ringDropped_clears hx hn hr]
  obtain ⟨⟨hi, hother, hposted, hsmu⟩, hrecalls⟩ :=
    clearOrigin_ends (a := b.setCtx i (some { x with forward := .none })) (i := i) (y := { x with forward := .none })
      (by simp) hbare hann (side_and_cid hf hx).1 hp hc hq .sendFailed
  exact ⟨⟨hi, hother.of_setCtx, hposted, hsmu⟩, hrecalls⟩

omit hf in
/-- A call with its transmitters on waits for them to be off (R121 step 4). -/
theorem ringDropped_mutes (hc : x.cause = none) (hst : x.state = .settling ∨ x.state = .talk) (hl : b.path.lit i = true) :
    (b.ringDropped i).rif.queue = b.rif.queue
      ∧ ∃ z, (b.ringDropped i).ctx i = some z ∧ Clearing x .sendFailed false z ∧ z.awaits = .pathOff := by
  have hn : x.state ≠ .clearing := by rcases hst with h | h <;> simp [h]
  have hr : ¬ (x.state = .ringing ∧ x.forward ≠ .queued) := by rcases hst with h | h <;> simp [h]
  rw [ringDropped_clears hx hn hr]
  exact clearOrigin_mutes (a := b.setCtx i (some { x with forward := .none })) (i := i) (y := { x with forward := .none })
    (by simp) hst hc hl

omit hf in
/-- A failed attempt, counted with reason DROPPED, and the frame that follows it (R114, R115). -/
theorem claimDropped_next (hst : x.state = .claiming) (hh : b.smu.has x.cid = false) (hs : b.stc.state.sends = true)
    (hr : b.rif.count .call < 8) :
    (b.claimDropped i).ctx i = some (x.failClaim .dropped) ∧ OtherContextsKept i b (b.claimDropped i)
      ∧ (b.claimDropped i).smu = b.smu
      ∧ (x.attempts + 1 < 4 → ∀ k, placement b.smu.holds x.wanted = some k →
        (b.claimDropped i).rif.queue = b.rif.queue ++ [Entry.fresh (.claim x.cid (byte k.1) (byte k.2))])
      ∧ (4 ≤ x.attempts + 1 ∨ placement b.smu.holds x.wanted = none →
        (b.claimDropped i).rif.queue = b.rif.queue ++ [Entry.fresh (.wait x.cid (byte x.wanted))]) := by
  have heq := claimDropped_fails hx hst
  refine ⟨?_, otherContextsKept_of_spares fun j hj => spares_claimDropped hj, ((Calm.refl b).claimDropped i).smu,
    fun h4 k hk => ?_, fun hw => ?_⟩
  · by_cases hw : 4 ≤ x.attempts + 1 ∨ placement b.smu.holds x.wanted = none
    · rw [heq, claimFailed_waits hx hs hr hh hw]
      simp
    · push Not at hw
      obtain ⟨k, hk⟩ := Option.ne_none_iff_exists'.mp hw.2
      rw [heq, claimFailed_claims hx hs hr hh hw.1 hk]
      simp
  · rw [heq, claimFailed_claims hx hs hr hh h4 hk]
    exact queue_setCtx_queueFrame hs hr rfl _
  · rw [heq, claimFailed_waits hx hs hr hh hw]
    exact queue_setCtx_queueFrame hs hr rfl _

end AtOrigin

/-! ### Other frames -/

theorem frameDropped_plain (b : State) {f : Frame} (h : f.kind = .snapshot ∨ f.kind = .refuse ∨ f.kind = .opened) :
    b.frameDropped f = b := by
  cases f with
  | snapshot _ _ => rfl
  | refuse _ _ => rfl
  | opened _ _ => rfl
  | _ => simp [Frame.kind] at h

/-- A dropped RELEASE at its context, with the test for LEAVE behind it (R53). -/
theorem releaseDropped_told {b : State} {c : CallId} {i : Ref} {x : Ctx} (hf : b.findCall c = some i) (hx : b.ctx i = some x)
    (hst : x.state = .clearing) (haw : x.awaits = .release) (hp : x.endPosted = true) (k : Byte) :
    let t := (b.frameDropped (.release c k)).leaveCheck
    t.ctx i = none ∧ OtherContextsKept i b t ∧ Posted (.sendFailed i c .release) t ∧ t.smu = b.smu := by
  obtain rfl : x.cid = c := by
    obtain ⟨y, hy, hcid⟩ := findCall_some hf
    rwa [← Option.some.inj (hx.symm.trans hy)] at hcid
  have hdrop : b.frameDropped (.release x.cid k) = b.releaseDropped i := atParty_found hf _
  obtain ⟨hfreed, hposted⟩ := releaseDropped_freed hx hst haw hp
  obtain ⟨hi, hother, hsmu⟩ := hfreed.leaveCheck
  rw [hdrop]
  exact ⟨hi, hother, hposted.of_sport (leaveCheck_sport _), hsmu⟩

/-- A dropped ANSWER at its context (R53, R142). -/
theorem answerDropped_told {b : State} {c : CallId} {i : Ref} {x : Ctx} (hf : b.findCtx .answer c = some i) (hx : b.ctx i = some x)
    (w : Byte) :
    let t := (b.frameDropped (.answer c w)).leaveCheck
    (x.state = .answering → x.endPosted = false → x.cause = none → EndedAt i c .sendFailed b t)
      ∧ (x.state = .clearing → x.awaits = .answerRecall → FreedAt i b t) := by
  obtain ⟨y, hy, -, rfl⟩ := findCtx_some hf
  obtain rfl : x = y := Option.some.inj (hx.symm.trans hy)
  have hdrop : b.frameDropped (.answer x.cid w) = b.answerDropped i := atCall_found hf _
  rw [hdrop]
  refine ⟨fun hst hp hcause => ?_, fun hst haw => ?_⟩
  · rw [answerDropped_answering hx hst]
    exact (endNow_ended hx hp hcause .sendFailed).leaveCheck
  · rw [answerDropped_fate hx hst haw]
    exact (freed_freeCtx b i).leaveCheck

section JoinDropped

variable {b : State} (hs : b.stc.state.sends = true) (hcount : b.rif.count .stc = 0)
include hs hcount

theorem joinDropped_joined (hst : b.stc.state = .joined) :
    b.joinDropped.leaveCheck.rif.queue = b.rif.queue ++ [Entry.fresh b.joinFrame] := by
  have heq : b.joinDropped = b.queueFrame b.joinFrame := by simp only [State.joinDropped, hst]
  rw [heq, leaveCheck_of_state (by rw [State.queueFrame_stc, hst]; decide), queueFrame_accepted (accepts_joinFrame hs hcount)]
  rfl

theorem joinDropped_learning (hst : b.stc.state = .learning) :
    let t := b.joinDropped.leaveCheck
    t.rif.queue = b.rif.queue ++ [Entry.fresh b.joinFrame] ∧ t.stc.state = .learning ∧ t.stc.buffer = [] ∧ t.stc.learn = none
      ∧ t.stc.outcome = .none ∧ t.smu = { holds := [], waits := [] } ∧ Posted (.learnRestart .joinDropped) t := by
  have heq : b.joinDropped = b.learnRestart .joinDropped := by simp only [State.joinDropped, hst]
  obtain ⟨hqueue, hstc, hsmu, hposted⟩ := learnRestart_rejoins hs hcount .joinDropped
  have hidle : (b.learnRestart .joinDropped).leaveCheck = b.learnRestart .joinDropped :=
    leaveCheck_of_state (by rw [hstc]; simp [hst])
  intro t
  have ht : t = b.learnRestart .joinDropped := (congrArg State.leaveCheck heq).trans hidle
  rw [ht, hstc]
  exact ⟨hqueue, hst, rfl, rfl, rfl, hsmu, hposted⟩

end JoinDropped

/-- No frame of the STC category is left where no JOIN is and no LEAVE was queued. -/
theorem count_stc_spoiledOut {s : State} {pre post : List Entry} {e : Entry} (hq : s.rif.queue = pre ++ e :: post)
    (hnone : ∀ x ∈ pre ++ post, x.frame.kind ≠ .join) (hleave : s.kindQueued .leave = false) :
    (s.spoiledOut pre post e).rif.count .stc = 0 := by
  refine List.countP_eq_zero.mpr fun x hx h => ?_
  rcases frameCategory_stc.mp (of_decide_eq_true h) with hk | hk
  · exact hnone x hx hk
  · have hmem : x ∈ s.rif.queue := by
      rw [hq]
      exact ((List.sublist_cons_self e post).append_left pre).subset hx
    exact List.any_eq_false.mp hleave x hmem (decide_eq_true hk)

theorem placeHeld_spoiledOut {s : State} {pre post : List Entry} {e : Entry} {k : FrameKind} (h : s.placeHeld k = false) :
    (s.spoiledOut pre post e).placeHeld k = false :=
  List.any_eq_false.mpr fun r hr => List.any_eq_false.mp h r (List.mem_of_mem_eraseP hr)

theorem frameCategory_reclaim {f : Frame} : frameCategory f = .reclaim ↔ f.kind = .reclaim := by
  unfold frameCategory
  cases f.kind <;> simp

theorem accepts_reclaim {b : State} (hs : b.stc.state.sends = true) (hnone : ∀ x ∈ b.rif.queue, x.frame.kind ≠ .reclaim) (d : CallId) :
    b.accepts (.reclaim d) = true := by
  have hcount : b.rif.count .reclaim = 0 :=
    List.countP_eq_zero.mpr fun x hx h => hnone x hx (frameCategory_reclaim.mp (of_decide_eq_true h))
  simp only [State.accepts, hs, show frameCategory (Frame.reclaim d) = .reclaim from rfl, hcount]
  rfl

/-- A dropped LEAVE completes the leave (R77). -/
theorem leaveDropped_told (b : State) : (b.frameDropped .leave).leaveCheck.nowConfigured b.stc.state .left := by
  have hconf := enterConfigured_nowConfigured b .left
  change (b.enterConfigured .left).leaveCheck.nowConfigured b.stc.state .left
  rwa [leaveCheck_of_state (by rw [hconf.1]; decide)]

/-! ### The statement -/

/-- Settles O11: the entry's frame decides which block hears of the drop, and LEAVE is tested behind it. -/
theorem sixteenthSpoilDropsTheFrame : Obligations.SixteenthSpoilDropsTheFrame := by
  unfold Obligations.SixteenthSpoilDropsTheFrame
  intro s pre post e a received hr hq hc hw hh ha
  have hexec := exec_sixteenthSpoil hq hc hw hr hh ha a received
  set b : State := s.spoiledOut pre post e with hb
  have hs : b.stc.state.sends = true := sends_of_onRiser (s := s) hr
  refine ⟨_, hexec, ?leaveQueue, ?queue, ?plain, ?release, ?answer, ?hold, ?wait, ?overdue, ?join, ?leave, ?call, ?offer⟩
  case leaveQueue =>
    intro hframe
    rw [hframe]
    obtain ⟨-, -, ⟨-, -, hempty, -⟩, -⟩ := leaveDropped_told b
    exact hempty
  case queue => exact fun hframe => ((adds_frameDropped b hframe).trans (adds_leaveCheck _)).freshBehind
  case plain =>
    intro hst hkind
    rw [frameDropped_plain b hkind, leaveCheck_of_state (s := b) hst]
    exact ⟨rfl, rfl, rfl, rfl, rfl, rfl, rfl, rfl⟩
  case release =>
    intro c k i x hframe hfind hx hst haw hp
    rw [hframe]
    exact releaseDropped_told (b := b) hfind hx hst haw hp k
  case answer =>
    intro c w i x hframe hfind hx
    rw [hframe]
    exact answerDropped_told (b := b) hfind hx w
  case hold =>
    intro c h hframe hhold hnil
    rw [hframe, frameDropped_reclaim_idle (b := b) hnil, leaveCheck_smu]
    exact holdOf_setAudit_self (s := b) hhold _
  case wait =>
    intro c w hframe hwait hnil
    rw [hframe, frameDropped_reclaim_idle (b := b) hnil, leaveCheck_smu]
    exact waitOf_setAudit_self (s := b) hwait _
  case overdue =>
    intro c d g hframe hl hd hne hold hp hnone
    obtain ⟨hqueue, hctxs, hholds, hwaits⟩ := frameDropped_reclaim_oldest (b := b) hl hd hne hold (placeHeld_spoiledOut hp)
      (accepts_reclaim (b := b) hs hnone d)
    rw [hframe, leaveCheck_ctxs, leaveCheck_smu]
    exact ⟨(adds_leaveCheck _).mem hqueue, hctxs, hholds, hwaits⟩
  case join =>
    intro r u w hframe hnone
    have hdrop : b.frameDropped e.frame = b.joinDropped := by rw [hframe]; rfl
    rw [hdrop]
    refine ⟨fun hst hleave => joinDropped_joined hs (count_stc_spoiledOut hq hnone hleave) hst, fun hst hl => ?_⟩
    have hroom := room_spoiledOut hq hl (k := .stc) (by rw [hframe]; rfl)
    exact joinDropped_learning hs (Nat.lt_one_iff.mp hroom) hst
  case leave =>
    intro hframe hst
    have htold := leaveDropped_told b
    rw [show b.stc.state = .leaving from hst] at htold
    rwa [hframe]
  case call =>
    intro i x hx hl ends clears
    have hroom : frameCategory e.frame = .call → b.rif.count .call < 8 := room_spoiledOut hq hl
    have hrelease : frameCategory e.frame = .call → b.accepts (.release x.cid 15#8) = true :=
      fun hcat => (accepts_call rfl).mpr ⟨hs, hroom hcat⟩
    have hends : ∀ k, EndedAt i x.cid k b (b.frameDropped e.frame).leaveCheck → ends k := fun _ h => h
    have hclears : SendFailsAt i x b.rif.queue b (b.frameDropped e.frame).leaveCheck → clears := id
    refine ⟨?ring, ?claim, ?wait, ?seek, ?open_⟩
    case ring =>
      intro c u w r p ms hframe hfind
      obtain ⟨-, rfl⟩ := side_and_cid (b := b) hfind hx
      have hdrop : b.frameDropped e.frame = b.ringDropped i := by rw [hframe]; exact frameDropped_ring (b := b) hfind u w r p ms
      rw [hdrop] at hends hclears ⊢
      refine ⟨fun hst hfwd hp hcause => ?_, fun hcause hann hst => ?_, fun hcause hann hp hst hid => ?_, fun hcause hst hlit => ?_,
        fun hst haw => ?_⟩
      · rw [ringDropped_direct (a := b) hx hst hfwd] at hends
        exact hends _ (endNow_ended (a := b) hx hp hcause .sendFailed).leaveCheck
      · exact hclears (ringDropped_sendFails (b := b) hx (hrelease (by rw [hframe]; rfl)) hcause hann hst).leaveCheck
      · have hnone : b.queued ⟨.ring, .call x.cid⟩ = false := by
          refine List.any_eq_false.mpr fun y hy h => hid y hy ?_
          rw [hframe]
          exact of_decide_eq_true h
        obtain ⟨hended, hrecalls⟩ := ringDropped_ends (b := b) hfind hx hcause hann hp hst hnone
        refine ⟨hends _ hended.leaveCheck, fun k hk hqk => ?_⟩
        have hne : e.frame.ident ≠ ⟨k, .call x.cid⟩ := by
          rw [hframe]
          intro heq
          have hkind : FrameKind.ring = k := congrArg FrameId.kind heq
          simp [← hkind] at hk
        obtain ⟨q, hq', hopen⟩ := hrecalls k hk ((queued_spoiledOut hq hne).trans hqk)
        exact ⟨q, by rwa [leaveCheck_recalls], hopen⟩
      · obtain ⟨hqueue, z, hz, hclear, haw⟩ := ringDropped_mutes (b := b) hx hcause hst hlit
        rw [leaveCheck_of_live hz]
        exact ⟨hqueue, z, hz, hclear, haw⟩
      · rw [ringDropped_fate (a := b) hx hst haw]
        exact (freed_freeCtx b i).leaveCheck
    case claim =>
      intro c k w hframe hfind
      obtain ⟨-, rfl⟩ := side_and_cid (b := b) hfind hx
      have hdrop : b.frameDropped e.frame = b.claimDropped i := by rw [hframe]; exact frameDropped_claim (b := b) hfind k w
      rw [hdrop]
      refine ⟨fun hst hhas => ?_, fun hst haw => ?_⟩
      · have hnext := claimDropped_next (b := b) hx hst hhas hs (hroom (by rw [hframe]; rfl))
        rwa [leaveCheck_of_live hnext.1]
      · rw [claimDropped_fate (a := b) hx hst haw]
        exact (freed_freeCtx b i).leaveCheck
    case wait =>
      intro c w hframe hfind
      obtain ⟨-, rfl⟩ := side_and_cid (b := b) hfind hx
      have hdrop : b.frameDropped e.frame = b.waitDropped i := by rw [hframe]; exact frameDropped_wait (b := b) hfind w
      rw [hdrop] at hclears ⊢
      refine ⟨fun hst hcause hann => ?_, fun hst haw => ?_⟩
      · rw [waitDropped_clears (a := b) hx hst] at hclears
        exact hclears (clearOrigin_sendFails (a := b) hx (by simp [hst]) hann hcause (hrelease (by rw [hframe]; rfl))).leaveCheck
      · rw [waitDropped_fate (a := b) hx hst haw]
        exact (freed_freeCtx b i).leaveCheck
    case seek =>
      intro u r hframe hseek hqueued hrefs hst
      have hdrop : b.frameDropped e.frame = b.seekDropped u := by rw [hframe]; rfl
      rw [hdrop] at hends ⊢
      refine ⟨(seekDropped_seeksNot (b := b) hseek hqueued hrefs hx hst).leaveCheck, fun ms hlook hacc => ?_, fun hlook hp hcause => ?_⟩
      · obtain ⟨hi, hother, hposted⟩ :=
          seekDropped_hit (b := b) hseek hqueued hrefs hx hst hlook (accepts_spoiledOut hq hacc)
        rw [leaveCheck_of_live hi]
        exact ⟨hi, hother, hposted⟩
      · exact hends _ (seekDropped_miss (b := b) hseek hqueued hrefs hx hst hlook hp hcause).leaveCheck
    case open_ =>
      intro c d hframe hfind hdoor
      obtain ⟨y, hy, -, rfl⟩ := findCtx_some hfind
      have hdrop : b.frameDropped e.frame = b.openDropped i := by rw [hframe]; exact atCall_found (s := b) hfind _
      obtain ⟨hnone, hctxs, hposted⟩ := openDropped_ends (a := b) hy hdoor
      rw [hdrop, leaveCheck_oku, leaveCheck_ctxs]
      exact ⟨hnone, hctxs, hposted.of_sport (leaveCheck_sport _)⟩
  case offer =>
    intro u w hframe
    obtain ⟨hoffer, hctxs, hsmu⟩ := frameDropped_offer b u w
    rw [hframe, leaveCheck_offer, leaveCheck_ctxs, leaveCheck_smu]
    exact ⟨hoffer, hctxs, hsmu⟩

end Sys2Proof.Machine
end

section
/-! PROOFS. What every command keeps, at a step: the waiting commands, and the transmit queue's allowances with their sum (R47, R48). -/

namespace Sys2Proof.Machine

/-- A law that does not read the waiting commands, and that `Keeps` carries over, is kept by every step. -/
theorem keptByStep_of_keeps {law : State → Prop} (hpending : ∀ s cs, law s → law { s with pending := cs })
    (hkeeps : ∀ s t, Keeps s t → law s → law t) : KeptByStep law := by
  intro s t hlaw hstep
  unfold step at hstep
  split at hstep
  · cases hstep
    exact hlaw
  next c cs _ =>
    obtain ⟨u, hexec, hkept⟩ := keeps_exec c { s with pending := cs }
    rw [hexec] at hstep
    cases hstep
    exact hkeeps _ _ hkept (hpending s cs hlaw)

/-- Every frame counts for one category: the counts of the five sum to the length of the queue (R48). -/
theorem length_eq_counts (r : Rif) :
    r.queue.length = r.count .snapshot + r.count .reclaim + r.count .shared + r.count .stc + r.count .call := by
  unfold Rif.count
  induction r.queue with
  | nil => rfl
  | cons e q ih =>
    simp only [List.length_cons, List.countP_cons]
    cases frameCategory e.frame <;> simp <;> omega

/-- The allowances sum to the queue's limit of 12 frames (R48). -/
theorem queue_length_le_twelve {s : State} (h : QueueLaw s) : s.rif.queue.length ≤ 12 := by
  obtain ⟨hcount, -, -⟩ := h
  have hsnapshot := hcount .snapshot
  have hreclaim := hcount .reclaim
  have hshared := hcount .shared
  have hstc := hcount .stc
  have hcall := hcount .call
  simp only [Category.allowance, Config.callFrames] at hsnapshot hreclaim hshared hstc hcall
  rw [length_eq_counts]
  omega

/-- Settles O57: every command keeps the allowances (`keeps_exec`), and their sum bounds the queue. -/
theorem queueLawIsKept : Obligations.QueueLawIsKept :=
  ⟨keptByStep_of_keeps (fun _ _ h => h) fun _ _ h => h.allowances, fun _ => queue_length_le_twelve⟩

/-- Settles O2: the waiting commands are part of what every command keeps. -/
theorem everyCommandCompletes : Obligations.EveryCommandCompletes := by
  intro c s
  obtain ⟨t, hexec, hkept⟩ := keeps_exec c s
  exact ⟨t, hexec, hkept.pending⟩

end Sys2Proof.Machine
end

section
/-! PROOFS. Power-on reset, the supply monitor, and the polarity (R44, R45, R81, R163). -/

namespace Sys2Proof.Machine

/-- A key at rest follows its input: the debounce timer runs exactly where the input is active (R163). -/
theorem follow_rest (level : Bool) (now : Nat) :
    KeyState.follow ⟨false, none⟩ level now = ⟨false, if level then some (now + 10) else none⟩ := by
  cases level <;> rfl

/-- Settles O4: each key of the reset follows its input. -/
theorem powerOnResetStartsTimers : Obligations.PowerOnResetStartsTimers := by
  intro s
  change Host.Outcome.next s.powerOn = _
  simp only [State.powerOn, State.reset, follow_rest, Config.returnMs]

/-! ### Supply -/

section Supply

variable {s : State}

theorem exec_supplyFalls_present (hpin : s.pins.supply = true) (hs : s.rif.supply = .present) :
    exec .supplyFalls s = .next
      { s with pins := { s.pins with supply := false }, rif := { s.rif with lossTimer := some (s.now + 50) } } := by
  simp [exec, execSupplyFalls, hpin, hs, Config.lossMs]

theorem exec_supplyFalls_lost (hpin : s.pins.supply = true) (hs : s.rif.supply = .lost) :
    exec .supplyFalls s = .next { s with pins := { s.pins with supply := false }, rif := { s.rif with returnTimer := none } } := by
  simp [exec, execSupplyFalls, hpin, hs]

theorem exec_supplyFalls_low (hpin : s.pins.supply = false) : exec .supplyFalls s = .next s := by
  simp [exec, execSupplyFalls, hpin]

theorem exec_supplyRises_present (hpin : s.pins.supply = false) (hs : s.rif.supply = .present) :
    exec .supplyRises s = .next { s with pins := { s.pins with supply := true }, rif := { s.rif with lossTimer := none } } := by
  simp [exec, execSupplyRises, hpin, hs]

theorem exec_supplyRises_lost (hpin : s.pins.supply = false) (hs : s.rif.supply = .lost) :
    exec .supplyRises s = .next
      { s with pins := { s.pins with supply := true }, rif := { s.rif with returnTimer := some (s.now + 20) } } := by
  simp [exec, execSupplyRises, hpin, hs, Config.returnMs]

theorem exec_supplyRises_high (hpin : s.pins.supply = true) : exec .supplyRises s = .next s := by
  simp [exec, execSupplyRises, hpin]

end Supply

/-! ### Polarity -/

/-- The polarity is read where LEARNING has it to be found, and nowhere else (R45). -/
theorem exec_polarityFound (s : State) (aHigher : Bool) :
    exec (.polarityFound aHigher) s = .next
      (if s.stc.state = .learning ∧ s.rif.polarity = .unknown then
        { s with rif := { s.rif with polarity := if aHigher then .normal else .swapped } }
      else s) := rfl

/-- Settles O5: by the pin and the supply status, then by the condition of the polarity's reading. -/
theorem supplyAndPolarity : Obligations.SupplyAndPolarity := by
  refine ⟨fun s => ⟨exec_supplyFalls_present, exec_supplyFalls_lost, exec_supplyFalls_low, exec_supplyRises_present,
    exec_supplyRises_lost, exec_supplyRises_high⟩, fun s aHigher => ⟨fun hst hp => ?_, fun h => ?_⟩⟩
  · rw [exec_polarityFound, if_pos ⟨hst, hp⟩]
  · rw [exec_polarityFound, if_neg fun ⟨hst, hp⟩ => h.elim (· hst) (· hp)]

end Sys2Proof.Machine
end

section
/-! PROOFS. Spoiled frames: the mark a receiver drives, and the attempt a sender counts (R52, R53). -/

namespace Sys2Proof.Machine

/-! ### The receiver's mark -/

/-- The spoil mark's four conditions, on a frame of which the header was received (R52). -/
theorem receiverSpoils_header (a code sender len : Byte) (rest : List Byte) :
    receiverSpoils a (code :: sender :: len :: rest) = decide
      (sender ≠ a ∨ 160 < len.toNat ∨ rest.length < len.toNat + 2
        ∨ wordBytes (checkSequence (code :: sender :: len :: rest.take len.toNat)) ≠ (rest.drop len.toNat).take 2) := by
  simp only [receiverSpoils, Config.bodyCap, Bool.decide_or, Bool.or_assoc, gt_iff_lt]

/-- Fewer bytes than the header end in no check sequence (R52). -/
theorem receiverSpoils_short (a : Byte) {received : List Byte} (h : received.length < 3) : receiverSpoils a received = true := by
  match received, h with
  | [], _ => rfl
  | [_], _ => rfl
  | [_, _], _ => rfl

/-- A station that is not the sender drives the mark of the frame's bytes (R52). -/
theorem exec_frameSpoiled_receiver {s : State} (hr : s.onRiser = true) (hc : s.carrying = none) (a : Byte) (received : List Byte) :
    exec (.frameSpoiled a received) s = .next { s with rif := { s.rif with spoilMark := receiverSpoils a received } } := by
  change execFrameSpoiled a received s = _
  simp only [execFrameSpoiled, hr, hc]
  rfl

/-! ### The sender's count -/

/-- A LEAVE may fall due, in LEAVING alone, and joins the queue behind the others (R77). -/
theorem leaveCheck_queue (s : State) :
    ∃ more, s.leaveCheck.rif.queue = s.rif.queue ++ more ∧ (more = [] ∨ more = [Entry.fresh .leave])
      ∧ (s.stc.state ≠ .leaving → more = []) := by
  by_cases hst : s.stc.state = .leaving
  · rcases leaveCheck_eq s with h | h
    · exact ⟨[], by rw [h, List.append_nil], .inl rfl, fun _ => rfl⟩
    · by_cases ha : s.accepts .leave = true
      · exact ⟨[Entry.fresh .leave], by rw [h, queueFrame_accepted ha]; rfl, .inr rfl, fun hn => absurd hst hn⟩
      · exact ⟨[], by rw [h, queueFrame_full (eq_false_of_ne_true ha), List.append_nil], .inl rfl, fun _ => rfl⟩
  · exact ⟨[], by rw [leaveCheck_of_state hst, List.append_nil], .inl rfl, fun _ => rfl⟩

/-- The state after a counted attempt: the entry waits again at its place, and no spoil mark was driven (R52, R53). -/
def State.spoilCounted (s : State) (pre post : List Entry) (e : Entry) : State :=
  { s with
    eventNo := s.eventNo + 1
    rif := { s.rif with queue := pre ++ { e with attempts := e.attempts + 1, carriage := .waiting } :: post, spoilMark := false } }

section Spoiled

variable {s : State} {pre post : List Entry} {e : Entry} (hq : s.rif.queue = pre ++ e :: post) (hc : e.carriage = .carrying)
  (hw : ∀ x ∈ pre ++ post, x.carriage = .waiting)
include hq hc hw

/-- A change of the entry in carriage is a change at its place. -/
theorem map_carrying_of_split (f : Entry → Entry) :
    (s.rif.queue.map fun x => if x.carriage = .carrying then f x else x) = pre ++ f e :: post := by
  have hkept : ∀ l : List Entry, (∀ x ∈ l, x.carriage = .waiting) →
      (l.map fun x => if x.carriage = .carrying then f x else x) = l := fun l hl =>
    (List.map_congr_left fun x hx => if_neg (by simp [hl x hx])).trans (List.map_id' l)
  rw [hq, List.map_append, List.map_cons, if_pos hc, hkept pre fun x hx => hw x (List.mem_append_left _ hx),
    hkept post fun x hx => hw x (List.mem_append_right _ hx)]

/-- A spoiled attempt below the sixteenth is counted, and then LEAVE may fall due (R53, R77). -/
theorem exec_countedSpoil (hr : s.onRiser = true) (hh : s.recallHeld e.frame.ident = false) (ha : e.attempts + 1 < 16) (a : Byte)
    (received : List Byte) :
    exec (.frameSpoiled a received) s = .next (s.spoilCounted pre post e).leaveCheck := by
  have hheld : ((s.newEvent).setMark false).recallHeld e.frame.ident = false := hh
  have hcount : ((s.newEvent).setMark false).modifyCarrying
      (fun x => { x with attempts := x.attempts + 1, carriage := .waiting }) = s.spoilCounted pre post e := by
    simp only [State.newEvent, State.setMark, State.modifyCarrying, State.spoilCounted, map_carrying_of_split hq hc hw]
  have hown : ((s.newEvent).setMark false).ownSpoiled e = s.spoilCounted pre post e := by
    rw [State.ownSpoiled, if_neg (by simp [hheld]), if_pos (by exact ha), hcount]
  change execFrameSpoiled a received s = _
  simp only [execFrameSpoiled, hr, carrying_of_split hq hc hw, hown]
  rfl

end Spoiled

/-- Settles O10: the four conditions are those that the receiver's test reads; the counted attempt changes its entry alone, and the
test for LEAVE behind it changes the queue alone. -/
theorem spoilMarksAndAttempts : Obligations.SpoilMarksAndAttempts := by
  refine ⟨fun s a hr hc => ⟨fun code sender len rest => ?_, fun received hshort => ?_⟩, ?_⟩
  · rw [exec_frameSpoiled_receiver hr hc, receiverSpoils_header]
  · rw [exec_frameSpoiled_receiver hr hc, receiverSpoils_short a hshort]
  · intro s pre post e a received hr hq hc hw hh ha
    obtain ⟨more, hqueue, hleave, hstate⟩ := leaveCheck_queue (s.spoilCounted pre post e)
    refine ⟨_, more, exec_countedSpoil hq hc hw hr hh ha a received, hqueue, hleave, hstate, leaveCheck_recalls _, leaveCheck_smu _,
      leaveCheck_stc _, ?_, leaveCheck_ctxs _, leaveCheck_path _, leaveCheck_oku _, leaveCheck_sport _⟩
    rcases leaveCheck_eq (s.spoilCounted pre post e) with h | h <;> rw [h]
    · rfl
    · exact State.queueFrame_udir _ _

end Sys2Proof.Machine
end

section
/-! PROOFS. Frames and configuration records are read as they were sent (R59, R60, R177, R178). -/

namespace Sys2Proof.Machine

/-! ### Bytes and words -/

theorem toNat_byte {n : Nat} (h : n < 256) : (byte n).toNat = n := by
  rw [byte, BitVec.toNat_ofNat, Nat.mod_eq_of_lt h]

/-- A word's two bytes give the word (R59). -/
theorem wordOf_wordBytes (u : BitVec 16) : wordOf (u.extractLsb' 8 8) (u.extractLsb' 0 8) = u := by
  rw [wordOf, BitVec.extractLsb'_append_extractLsb'_eq_extractLsb' (start₁ := 0) (len₁ := 8) rfl]
  exact BitVec.extractLsb'_eq_self

theorem high_wordOf (hi lo : Byte) : (wordOf hi lo).extractLsb' 8 8 = hi := BitVec.extractLsb'_append_eq_left

theorem low_wordOf (hi lo : Byte) : (wordOf hi lo).extractLsb' 0 8 = lo := BitVec.extractLsb'_append_eq_right

/-! ### Frames -/

theorem parseHolds_bytes (hs : List SnapHold) (rest : List Byte) :
    parseHolds hs.length (hs.flatMap SnapHold.bytes ++ rest) = some (hs, rest) := by
  induction hs with
  | nil => rfl
  | cons h hs ih => simp [parseHolds, SnapHold.bytes, CallId.bytes, ih]

theorem parseWaits_bytes (ws : List SnapWait) : parseWaits ws.length (ws.flatMap SnapWait.bytes) = some ws := by
  induction ws with
  | nil => rfl
  | cons w ws ih => simp [parseWaits, SnapWait.bytes, CallId.bytes, ih]

theorem suits_snapshot_iff {hs : List SnapHold} {ws : List SnapWait} :
    (Frame.snapshot hs ws).suits = true ↔ hs.length ≤ 24 ∧ ws.length ≤ 16 := by
  rw [Frame.suits, Bool.and_eq_true, decide_eq_true_eq, decide_eq_true_eq]
  rfl

theorem suits_ring_iff {c : CallId} {u : UnitNum} {w role phase : Byte} {ms : List Byte} :
    (Frame.ring c u w role phase ms).suits = true ↔ 1 ≤ ms.length ∧ ms.length ≤ 4 := by
  rw [Frame.suits, Bool.and_eq_true, decide_eq_true_eq, decide_eq_true_eq]
  rfl

/-- A SNAPSHOT's two counts find their records again (R60). -/
theorem parseSnapshot_body {hs : List SnapHold} {ws : List SnapWait} (h : (Frame.snapshot hs ws).suits = true) :
    parseSnapshot (Frame.snapshot hs ws).body = some (.snapshot hs ws) := by
  obtain ⟨hholds, hwaits⟩ := suits_snapshot_iff.mp h
  simp only [Frame.body, parseSnapshot, toNat_byte (show hs.length < 256 by omega), toNat_byte (show ws.length < 256 by omega),
    parseHolds_bytes, parseWaits_bytes]

/-- A RING's member count agrees with its members (R60). -/
theorem parseRing_body {c : CallId} {u : UnitNum} {w role phase : Byte} {ms : List Byte}
    (h : (Frame.ring c u w role phase ms).suits = true) :
    parseRing (Frame.ring c u w role phase ms).body = some (.ring c u w role phase ms) := by
  obtain ⟨-, hmembers⟩ := suits_ring_iff.mp h
  simp [Frame.body, parseRing, CallId.bytes, wordBytes, wordOf_wordBytes, toNat_byte (show ms.length < 256 by omega)]

/-- A frame that suits its kind is read back from its kind code and body (R55, R60). -/
theorem parseFrame_body {f : Frame} (h : f.suits = true) : parseFrame f.kind.code f.body = some f := by
  cases f with
  | snapshot hs ws =>
    calc parseFrame _ _ = (parseSnapshot (Frame.snapshot hs ws).body).filter Frame.suits := rfl
      _ = some (.snapshot hs ws) := by rw [parseSnapshot_body h, Option.filter_some, if_pos h]
  | ring c u w role phase ms =>
    calc parseFrame _ _ = (parseRing (Frame.ring c u w role phase ms).body).filter Frame.suits := rfl
      _ = some (.ring c u w role phase ms) := by rw [parseRing_body h, Option.filter_some, if_pos h]
  | join role u w =>
    calc parseFrame _ _ = some (.join role (wordOf (u.extractLsb' 8 8) (u.extractLsb' 0 8)) w) := rfl
      _ = some (.join role u w) := by rw [wordOf_wordBytes]
  | seek u =>
    calc parseFrame _ _ = some (.seek (wordOf (u.extractLsb' 8 8) (u.extractLsb' 0 8))) := rfl
      _ = some (.seek u) := by rw [wordOf_wordBytes]
  | offer u w =>
    calc parseFrame _ _ = some (.offer (wordOf (u.extractLsb' 8 8) (u.extractLsb' 0 8)) w) := rfl
      _ = some (.offer u w) := by rw [wordOf_wordBytes]
  | reclaim | leave | answer | refuse | claim | wait | release | open_ | opened => rfl

/-! ### Coded fields of a record -/

theorem roleOfCode_eq_some_iff {b : Byte} {r : Role} : Role.ofCode b = some r ↔ b = r.code := by
  unfold Role.ofCode
  constructor
  · intro h
    split_ifs at h with h0 h1 h2 <;> cases h <;> assumption
  · rintro rfl
    cases r <;> rfl

theorem flagOf_eq_some_iff {b : Byte} {v : Bool} : flagOf b = some v ↔ b = flagByte v := by
  unfold flagOf
  constructor
  · intro h
    split_ifs at h with h0 h1 <;> cases h <;> assumption
  · rintro rfl
    cases v <;> rfl

/-- The code of a settle mode (R177). -/
def SettleMode.code : SettleMode → Byte
  | .carrier => 0#8 | .timed40 => 1#8 | .timed80 => 2#8 | .timed160 => 3#8

theorem settleOfCode_eq_some_iff {b : Byte} {m : SettleMode} : SettleMode.ofCode b = some m ↔ b = m.code := by
  unfold SettleMode.ofCode
  constructor
  · intro h
    split_ifs at h with h0 h1 h2 h3 <;> cases h <;> assumption
  · rintro rfl
    cases m <;> rfl

/-- The code of an attention mode (R177). -/
def AttnMode.code : AttnMode → Byte
  | .single => 0#8 | .split => 1#8

theorem attnOfCode_eq_some_iff {b : Byte} {m : AttnMode} : AttnMode.ofCode b = some m ↔ b = m.code := by
  unfold AttnMode.ofCode
  constructor
  · intro h
    split_ifs at h with h0 h1 <;> cases h <;> assumption
  · rintro rfl
    cases m <;> rfl

/-! ### Configuration records -/

/-- The 18 field bytes one by one (R175, R177). -/
theorem configBytes_eq (r : ConfigRecord) :
    configBytes r =
      [r.role.code, r.address, r.unit.extractLsb' 8 8, r.unit.extractLsb' 0 8, r.capability,
        r.lower.extractLsb' 8 8, r.lower.extractLsb' 0 8, r.upper.extractLsb' 8 8, r.upper.extractLsb' 0 8,
        byte r.ringTime, flagByte r.forward, byte r.waitLimit,
        (BitVec.ofNat 16 r.talkLimit).extractLsb' 8 8, (BitVec.ofNat 16 r.talkLimit).extractLsb' 0 8,
        r.settle.code, byte r.strikePulse, byte r.faultSamples, r.attn.code] := by
  unfold configBytes
  cases r.settle <;> cases r.attn <;> rfl

/-- The numbers of a valid record fit their bytes (R177). -/
theorem numbers_of_valid {r : ConfigRecord} (h : r.valid = true) :
    r.ringTime < 256 ∧ r.waitLimit < 256 ∧ r.talkLimit < 65536 ∧ r.strikePulse < 256 ∧ r.faultSamples < 256 := by
  simp only [ConfigRecord.valid, Bool.and_eq_true, decide_eq_true_eq, List.contains_eq_mem, List.mem_cons, List.not_mem_nil,
    or_false] at h
  omega

/-- A valid record is read back from its bytes (R178). -/
theorem parseConfig_configBytes {r : ConfigRecord} (h : r.valid = true) : parseConfig (configBytes r) = some r := by
  obtain ⟨hring, hwait, htalk, hstrike, hsamples⟩ := numbers_of_valid h
  have htalk' : (BitVec.ofNat 16 r.talkLimit).toNat = r.talkLimit := by rw [BitVec.toNat_ofNat, Nat.mod_eq_of_lt htalk]
  rw [configBytes_eq, parseConfig, roleOfCode_eq_some_iff.mpr rfl, flagOf_eq_some_iff.mpr rfl, settleOfCode_eq_some_iff.mpr rfl,
    attnOfCode_eq_some_iff.mpr rfl]
  simp only [wordOf_wordBytes, toNat_byte hring, toNat_byte hwait, toNat_byte hstrike, toNat_byte hsamples, htalk']
  exact if_pos h

/-- A record that is read is valid, and its bytes are those it was read from (R178). -/
theorem configBytes_of_parseConfig {fs : List Byte} {r : ConfigRecord} (h : parseConfig fs = some r) :
    r.valid = true ∧ fs = configBytes r := by
  unfold parseConfig at h
  split at h
  next role addr u1 u0 cap l1 l0 h1 h0 ring fwd wait t1 t0 settle strike samples attn =>
    split at h
    next role' fwd' settle' attn' hrole hfwd hsettle hattn =>
      obtain ⟨hvalid, hr⟩ := Option.ite_none_right_eq_some.mp h
      cases hr
      refine ⟨hvalid, ?_⟩
      rw [configBytes_eq, roleOfCode_eq_some_iff.mp hrole, flagOf_eq_some_iff.mp hfwd, settleOfCode_eq_some_iff.mp hsettle,
        attnOfCode_eq_some_iff.mp hattn]
      simp only [byte_toNat, BitVec.ofNat_toNat, BitVec.setWidth_eq, high_wordOf, low_wordOf]
    next => cases h
  next => cases h

/-- Settles O60: each frame's body is read back, and reading a record and giving its bytes undo each other. -/
theorem framesAndRecordsAreReadAsSent : Obligations.FramesAndRecordsAreReadAsSent :=
  ⟨fun _ => parseFrame_body, fun _ _ => ⟨configBytes_of_parseConfig, fun ⟨hvalid, hfs⟩ => hfs ▸ parseConfig_configBytes hvalid⟩⟩

end Sys2Proof.Machine
end

section
/-! PROOFS. Off the riser: every context ends, with its notice and its duties, and then the station changes its state (R58, R77, R78,
R80, R125, R144, R166, R169). -/

namespace Sys2Proof.Machine

/-! ### One context ends at once -/

theorem Oku.followAlerting_door (o : Oku) (now : Nat) : (o.followAlerting now).door = o.door := by
  unfold Oku.followAlerting
  split
  · split <;> rfl
  · rfl

section EndNow

variable (s : State) {i j : Ref} (k : Cause)

theorem ctx_endNow_of_ne (h : j ≠ i) : (s.endNow i k).ctx j = s.ctx j :=
  ((Spares.refl (ks := fun _ => True) _ s).endNow h k).ctx

theorem alerting_endNow_of_ne (h : j ≠ i) : (s.endNow i k).oku.alerting[j] = s.oku.alerting[j] :=
  ((Spares.refl (ks := fun _ => True) _ s).endNow h k).alerting

/-- A context that ends has no door request left, and every other one keeps its own (R166). -/
theorem door_endNow : (s.endNow i k).oku.door[j] = if j = i then none else s.oku.door[j] := by
  have hseek : ∀ t : State, (t.leaveSeek i).oku = t.oku := fun t => by obtain ⟨d, id, h | h⟩ := leaveSeek_eq t i <;> simp [h]
  have hdoor : ∀ t : State, (t.dropDuties i).oku.door = t.oku.door.set i none := fun t => by
    simp only [State.dropDuties, State.setDoor, State.setAlerting, Oku.followAlerting_door, hseek]
  simp only [State.endNow, freeCtx_oku, hdoor, State.modifyCtx_oku]
  by_cases h : j = i
  · subst h
    simp
  · simp [h, Vector.getElem_set_ne, Fin.val_ne_of_ne (Ne.symm h)]

end EndNow

/-- The CALL_ENDED notice of context i where all contexts end at once, none where it posted its own before (R78, R123). -/
def State.endNotice (s : State) (i : Ref) : Option Notice :=
  (s.ctx i).bind fun y => if y.endPosted then none else some (.callEnded i y.cid (some (y.cause.getD .isolated)))

theorem endNotices_eq (s : State) : s.endNotices = refs.filterMap s.endNotice := rfl

theorem endNotices_congr {s t : State} (h : t.ctxs = s.ctxs) : t.endNotices = s.endNotices := by
  unfold State.endNotices State.ctx
  rw [h]

/-- A context that is freed posts CALL_ENDED, unless it posted it before (R123, R143). -/
theorem postsInTurn_freeCtx {s : State} {i : Ref} {y : Ctx} (h : s.ctx i = some y) :
    PostsInTurn (if y.endPosted then [] else [.callEnded i y.cid y.cause]) s (s.freeCtx i) := by
  rw [State.freeCtx, postEnd_eq h]
  split
  · exact (PostsInTurn.nil s).of_sport (by simp)
  · exact (postsInTurn_post s _).of_sport (by simp)

/-- A context that ends with cause ISOLATED posts its notice (R78, R123, R125). -/
theorem postsInTurn_endNow {s : State} {i : Ref} {y : Ctx} (h : s.ctx i = some y) :
    PostsInTurn (s.endNotice i).toList s (s.endNow i .isolated) := by
  have hctx : ((s.modifyCtx i fun c => (c.stopTimers).firstCause .isolated).dropDuties i).ctx i
      = some ((y.stopTimers).firstCause .isolated) := by
    simp [State.ctx_modifyCtx, h]
  have hnotice : (s.endNotice i).toList
      = if y.endPosted then [] else [.callEnded i y.cid (some (y.cause.getD .isolated))] := by
    rw [State.endNotice, h, Option.bind_some]
    split <;> rfl
  rw [hnotice]
  exact (postsInTurn_freeCtx hctx).from_sport (by simp)

/-! ### All contexts end -/

/-- A free context neither alerts nor has a door request. -/
def State.freeAreQuiet (t : State) : Prop := ∀ i : Ref, t.ctx i = none → t.oku.alerting[i] = false ∧ t.oku.door[i] = none

/-- The laws of the alerting set and the door requests leave none to a free context (R131, R166). -/
theorem freeAreQuiet_of_laws {s : State} (ha : AlertLaw s) (hd : DoorLaw s) : s.freeAreQuiet := by
  intro i hi
  refine ⟨eq_false_of_ne_true fun h => ?_, by_contra fun h => ?_⟩
  · obtain ⟨y, hy, -⟩ := (ha i).mp h
    rw [hi] at hy
    cases hy
  · obtain ⟨y, hy, -⟩ := hd i h
    rw [hi] at hy
    cases hy

theorem State.freeAreQuiet.endNow {s : State} (h : s.freeAreQuiet) (i : Ref) (k : Cause) : (s.endNow i k).freeAreQuiet := by
  intro j hj
  by_cases hji : j = i
  · subst hji
    exact ⟨alerting_endNow .., by rw [door_endNow, if_pos rfl]⟩
  · rw [alerting_endNow_of_ne _ _ hji, door_endNow, if_neg hji]
    exact h j (by rwa [ctx_endNow_of_ne _ _ hji] at hj)

theorem calm_endAll (s : State) : Calm s s.endAll := (Calm.refl s).eachCtx fun _ i _ h => h.endNow i .isolated

/-- Once every context has ended, nothing alerts, the ringer is SILENT, and no door request is left (R78, R166, R169). -/
theorem hushed_endAll {s : State} (ha : AlertLaw s) (hr : RingerLaw s) (hd : DoorLaw s) : s.endAll.hushed := by
  have hquiet : s.endAll.freeAreQuiet := eachCtx_end (M := fun _ => State.freeAreQuiet) (freeAreQuiet_of_laws ha hd)
    (fun _ _ h _ => h) fun i _ _ h _ => h.endNow i .isolated
  have hall : ∀ i : Ref, s.endAll.oku.alerting[i] = false ∧ s.endAll.oku.door[i] = none := fun i => hquiet i (endAll_ctx s i)
  exact ⟨((calm_endAll s).ringing hr).mpr fun i => (hall i).1, hall⟩

/-- When the contexts below n have ended: their notices were posted in ascending order, and the others stand (R125). -/
def EndedBelow (s : State) (n : Nat) (t : State) : Prop :=
  (∀ i : Ref, n ≤ i.val → t.ctx i = s.ctx i) ∧ PostsInTurn ((refs.take n).filterMap s.endNotice) s t

/-- The CALL_ENDED notices of all contexts, in ascending order (R78, R125, R144). -/
theorem postsInTurn_endAll (s : State) : PostsInTurn s.endNotices s s.endAll := by
  have hnext : ∀ i : Ref, (refs.take (i + 1)).filterMap s.endNotice
      = (refs.take i).filterMap s.endNotice ++ (s.endNotice i).toList := fun i => by
    have hrefs : refs.take (i + 1) = refs.take i ++ [i] := by revert i; decide
    rw [hrefs, List.filterMap_append]
    cases h : s.endNotice i <;> simp [h]
  have hend : EndedBelow s 4 s.endAll := by
    refine eachCtx_end (M := EndedBelow s) ⟨fun _ _ => rfl, PostsInTurn.nil s⟩ ?_ ?_
    · intro i t ⟨hkept, hposts⟩ hfree
      have hnone : s.endNotice i = none := by rw [State.endNotice, ← hkept i le_rfl, hfree]; rfl
      refine ⟨fun j hj => hkept j (by omega), ?_⟩
      rw [hnext, hnone, Option.toList_none, List.append_nil]
      exact hposts
    · intro i t y ⟨hkept, hposts⟩ hlive
      have hsame : t.endNotice i = s.endNotice i := by rw [State.endNotice, State.endNotice, hkept i le_rfl]
      refine ⟨fun j hj => ?_, ?_⟩
      · have hne : j ≠ i := by rintro rfl; omega
        rw [ctx_endNow_of_ne t _ hne]
        exact hkept j (by omega)
      · rw [hnext, ← hsame]
        exact hposts.trans (postsInTurn_endNow hlive)
  exact hend.2

end Sys2Proof.Machine
end

section
/-! PROOFS. The ways off the riser and back onto it: an address conflict, the loss of the riser, and its return (R44, R57, R78 to R80). -/

namespace Sys2Proof.Machine

/-! ### The change of the station state -/

theorem State.hushed.of_oku {s t : State} (h : s.hushed) (ht : t.oku = s.oku) : t.hushed := by
  unfold State.hushed at h ⊢
  rwa [ht]

theorem sameFixtures_moveTo (s : State) (n : StationState) (r : StationReason) : SameFixtures s (s.moveTo n r) :=
  ((Calm.refl { s with stc := { s.stc with state := n, locked := n.locks } }).post _).sameFixtures

theorem postsInTurn_moveTo (s : State) (n : StationState) (r : StationReason) :
    PostsInTurn [Notice.station s.stc.state n r] s (s.moveTo n r) := (postsInTurn_post _ _).from_sport rfl

theorem moveTo_stc (s : State) (n : StationState) (r : StationReason) :
    (s.moveTo n r).stc = { s.stc with state := n, locked := n.locks } := State.post_stc _ _

theorem moveTo_udir (s : State) (n : StationState) (r : StationReason) : (s.moveTo n r).udir = s.udir := State.post_udir _ _

theorem moveTo_oku (s : State) (n : StationState) (r : StationReason) : (s.moveTo n r).oku = s.oku := State.post_oku _ _

/-! ### Off the riser -/

/-- What every way off the riser does behind the ended contexts (R58, R77, R78). -/
def State.emptied (u : State) : State := (((u.clearPath).emptyQueue).emptyCopy.stopLearning).closeSeeks

theorem offRiser_eq (s : State) : s.offRiser = s.endAll.emptied := rfl

@[simp] theorem emptied_oku (u : State) : u.emptied.oku = u.oku := by simp [State.emptied]
@[simp] theorem emptied_sport (u : State) : u.emptied.sport = u.sport := by simp [State.emptied]
@[simp] theorem emptied_lines (u : State) : u.emptied.udir.lines = u.udir.lines := rfl

theorem sameFixtures_emptied (u : State) : SameFixtures u u.emptied :=
  ⟨rfl, rfl, rfl, rfl, rfl, rfl, rfl, rfl, rfl, rfl, rfl, rfl, rfl, rfl, rfl⟩

theorem sameFixtures_purgeLines (u : State) : SameFixtures u u.purgeLines :=
  ⟨rfl, rfl, rfl, rfl, rfl, rfl, rfl, rfl, rfl, rfl, rfl, rfl, rfl, rfl, rfl⟩

theorem sameFixtures_offRiser (s : State) : SameFixtures s s.offRiser := by
  rw [offRiser_eq]
  exact (calm_endAll s).sameFixtures.trans (sameFixtures_emptied _)

theorem offRiser_oku (s : State) : s.offRiser.oku = s.endAll.oku := by rw [offRiser_eq, emptied_oku]

theorem offRiser_lines (s : State) : s.offRiser.udir.lines = s.udir.lines := by
  rw [offRiser_eq, emptied_lines]
  exact (calm_endAll s).lines

theorem postsInTurn_offRiser (s : State) : PostsInTurn s.endNotices s s.offRiser := by
  rw [offRiser_eq]
  exact (postsInTurn_endAll s).of_sport (emptied_sport _)

theorem offTheRiser_withStc {u : State} (h : u.offTheRiser) (n : StationState) (b : Bool) :
    State.offTheRiser { u with stc := { u.stc with state := n, locked := b } } := h

theorem offTheRiser_moveTo {u : State} (h : u.offTheRiser) (n : StationState) (r : StationReason) : (u.moveTo n r).offTheRiser :=
  (offTheRiser_withStc h n n.locks).post _

section OffRiser

variable (s : State) (r : StationReason)

/-- ISOLATED keeps the record locked and the directory (R63, R78). -/
theorem enterIsolated_told :
    s.enterIsolated.stc.state = .isolated ∧ s.enterIsolated.stc.locked = true ∧ s.enterIsolated.offTheRiser
      ∧ s.enterIsolated.udir.lines = s.udir.lines := by
  rw [State.enterIsolated, moveTo_stc, moveTo_udir, offRiser_lines]
  exact ⟨rfl, rfl, offTheRiser_moveTo (offTheRiser_offRiser s) _ _, rfl⟩

theorem enterIsolated_oku : s.enterIsolated.oku = s.endAll.oku := by rw [State.enterIsolated, moveTo_oku, offRiser_oku]

theorem enterIsolated_fixtures : SameFixtures s s.enterIsolated := (sameFixtures_offRiser s).trans (sameFixtures_moveTo _ _ _)

theorem enterIsolated_posts : PostsInTurn (s.endNotices ++ [Notice.station s.stc.state .isolated .riserLost]) s s.enterIsolated := by
  have hstation := postsInTurn_moveTo s.offRiser .isolated .riserLost
  rw [offRiser_state] at hstation
  exact (postsInTurn_offRiser s).trans hstation

theorem enterConfigured_oku : (s.enterConfigured r).oku = s.endAll.oku := by
  rw [State.enterConfigured, moveTo_oku, State.purgeLines_oku, offRiser_oku]

theorem enterConfigured_fixtures : SameFixtures s (s.enterConfigured r) :=
  (sameFixtures_offRiser s).trans ((sameFixtures_purgeLines _).trans (sameFixtures_moveTo _ _ _))

theorem enterConfigured_posts :
    PostsInTurn (s.endNotices ++ [Notice.station s.stc.state .configured r]) s (s.enterConfigured r) := by
  have hstation := postsInTurn_moveTo s.offRiser.purgeLines .configured r
  rw [State.purgeLines_stc, offRiser_state] at hstation
  exact (postsInTurn_offRiser s).trans (hstation.from_sport (State.purgeLines_sport _).symm)

end OffRiser

/-! ### Address conflict -/

/-- A posting does not read the directory. -/
theorem post_purgeLines (s : State) (n : Notice) : s.purgeLines.post n = (s.post n).purgeLines := by
  unfold State.post
  rw [State.purgeLines_sport]
  split <;> rfl

theorem conflict_eq (s : State) :
    s.conflict = ((s.offRiser.post (.fault .conflict false)).purgeLines).moveTo .configured .conflict := by
  rw [State.conflict, post_purgeLines]

theorem conflict_nowConfigured (s : State) : s.conflict.nowConfigured s.stc.state .conflict := by
  have h := nowConfigured_moveTo ((offTheRiser_offRiser s).post (.fault .conflict false)) .conflict
  rwa [State.post_stc, offRiser_state, ← conflict_eq] at h

theorem conflict_fixtures (s : State) : SameFixtures s s.conflict := by
  rw [conflict_eq]
  exact (sameFixtures_offRiser s).trans (((Calm.refl _).post _).sameFixtures.trans
    ((sameFixtures_purgeLines _).trans (sameFixtures_moveTo _ _ _)))

theorem conflict_posts (s : State) :
    PostsInTurn (s.endNotices ++ [Notice.fault .conflict false, Notice.station s.stc.state .configured .conflict]) s s.conflict := by
  have hstation := postsInTurn_moveTo (s.offRiser.post (.fault .conflict false)).purgeLines .configured .conflict
  rw [State.purgeLines_stc, State.post_stc, offRiser_state, ← conflict_eq] at hstation
  exact (postsInTurn_offRiser s).trans ((postsInTurn_post _ _).trans (hstation.from_sport (State.purgeLines_sport _).symm))

theorem conflict_oku (s : State) : s.conflict.oku = s.endAll.oku := by
  rw [conflict_eq, moveTo_oku, State.purgeLines_oku, State.post_oku, offRiser_oku]

theorem conflict_hushed {s : State} (ha : AlertLaw s) (hr : RingerLaw s) (hd : DoorLaw s) : s.conflict.hushed :=
  (hushed_endAll ha hr hd).of_oku (conflict_oku s)

/-- A sender whose byte reads back wrong found a conflict (R57). -/
theorem exec_readBackMismatch {s : State} (hr : s.onRiser = true) (hc : s.carrying.isSome = true) :
    exec .readBackMismatch s = .next s.conflict := by
  simp [exec, execReadBackMismatch, hr, hc]

/-- A frame of the own address that this station did not send is a conflict (R57). -/
theorem taking_conflict {s : State} (hr : s.onRiser = true) (hc : s.carrying = none) (f : Frame) (learn act : State → State) :
    s.taking s.own f learn act = s.conflict := by
  simp [State.taking, hr, hc]

theorem exec_unsuitedFrameTaken_own {s : State} (hr : s.onRiser = true) (hc : s.carrying = none) (k : Byte) (body : List Byte) :
    exec (.unsuitedFrameTaken s.own k body) s = .next s.conflict := by
  simp [exec, execUnsuitedFrameTaken, hr, hc]

/-- Settles O8: each of the three ways of detection runs the one conflict. -/
theorem conflictLeavesTheRiser : Obligations.ConflictLeavesTheRiser := by
  intro s hr conflicts
  have htold : conflicts s.conflict :=
    ⟨conflict_nowConfigured s, conflict_fixtures s, conflict_posts s, fun ha hring hd => conflict_hushed ha hring hd⟩
  refine ⟨fun hc => ⟨_, exec_readBackMismatch hr hc, htold⟩, fun hc c f hf => ?_, fun hc k body =>
    ⟨_, exec_unsuitedFrameTaken_own hr hc k body, htold⟩⟩
  obtain ⟨learn, act, hexec⟩ := exec_takenFrame hf s
  exact ⟨_, hexec, by rwa [taking_conflict hr hc]⟩

/-! ### The riser is lost -/

section RiserLost

variable {s : State}

theorem riserLost_isolates (h : s.stc.state = .learning ∨ s.stc.state = .joined) : s.riserLost = s.enterIsolated := by
  rcases h with h | h <;> simp only [State.riserLost, h]

theorem riserLost_leaving (h : s.stc.state = .leaving) : s.riserLost = s.enterConfigured .riserLost := by
  simp only [State.riserLost, h]

theorem riserLost_idle (h : s.stc.state = .unconfigured ∨ s.stc.state = .configured ∨ s.stc.state = .isolated) :
    s.riserLost = s := by
  rcases h with h | h | h <;> simp only [State.riserLost, h]

theorem riserLost_fixtures : SameFixtures s s.riserLost ∧ s.riserLost.oku.strike = s.oku.strike := by
  have hstrike : s.endAll.oku.strike = s.oku.strike := (calm_endAll s).strike
  unfold State.riserLost
  split
  · exact ⟨enterIsolated_fixtures s, by rw [enterIsolated_oku, hstrike]⟩
  · exact ⟨enterIsolated_fixtures s, by rw [enterIsolated_oku, hstrike]⟩
  · exact ⟨enterConfigured_fixtures s _, by rw [enterConfigured_oku, hstrike]⟩
  · exact ⟨(Calm.refl s).sameFixtures, rfl⟩

theorem riserLost_hushed (hst : s.stc.state ∈ [StationState.learning, .joined, .leaving]) (ha : AlertLaw s) (hr : RingerLaw s)
    (hd : DoorLaw s) : s.riserLost.hushed := by
  simp only [List.mem_cons, List.not_mem_nil, or_false] at hst
  rcases hst with h | h | h
  · rw [riserLost_isolates (.inl h)]
    exact (hushed_endAll ha hr hd).of_oku (enterIsolated_oku s)
  · rw [riserLost_isolates (.inr h)]
    exact (hushed_endAll ha hr hd).of_oku (enterIsolated_oku s)
  · rw [riserLost_leaving h]
    exact (hushed_endAll ha hr hd).of_oku (enterConfigured_oku s _)

end RiserLost

/-- With the supply LOST every detector reports ABSENT (R44, R146). -/
theorem detector_absent {p : Path} (hf : p.fwd = Vector.replicate 24 false) (hr : p.ret = Vector.replicate 24 false) (h : Half)
    (n : Nat) : p.detector h n = false := by
  cases h <;> by_cases hn : n < 24 <;> simp [Path.detector, hf, hr, hn]

theorem exec_supplyLossTimerExpiry {s : State} {e : Nat} (h : s.rif.lossTimer = some e) :
    exec .supplyLossTimerExpiry s = .next (s.at e).loseSupply.riserLost := by
  simp only [exec, execSupplyLossTimerExpiry, h]

/-! ### The riser returns -/

theorem joinFrame_congr {s t : State} (h : t.sport.config = s.sport.config) : t.joinFrame = s.joinFrame := by
  unfold State.joinFrame State.role
  rw [h]

/-- What LEARNING begins with: nothing learned, heard or owed, and the polarity to be found (R45, R65). -/
def State.toLearn (u : State) : State :=
  (((u.emptyCopy).clearPath.stopLearning).closeSeeks.setOutcome .none).forgetPolarity

section ToLearn

variable (u : State)

theorem toLearn_now : u.toLearn.now = u.now := by simp [State.toLearn]
theorem toLearn_stc : u.toLearn.stc = { u.stc with buffer := [], learn := none, stagger := none, outcome := .none } := rfl
theorem toLearn_smu : u.toLearn.smu = { holds := [], waits := [] } := rfl
theorem toLearn_udir : u.toLearn.udir = { u.udir with seeks := [], offer := .none } := rfl
theorem toLearn_rif : u.toLearn.rif = { u.rif with polarity := .unknown } := rfl
theorem toLearn_sport : u.toLearn.sport = u.sport := by simp [State.toLearn]

end ToLearn

/-- The station moves to LEARNING, which then begins, and queues its JOIN (R65). -/
theorem enterLearning_eq (s : State) (r : StationReason) :
    s.enterLearning r = ((s.moveTo .learning r).toLearn).queueFrame s.joinFrame := rfl

section EnterLearning

variable (s : State) (r : StationReason)

theorem enterLearning_now : (s.enterLearning r).now = s.now := by
  rw [enterLearning_eq, State.queueFrame_now, toLearn_now, State.moveTo, State.post_now]

theorem enterLearning_stc :
    (s.enterLearning r).stc =
      { s.stc with state := .learning, locked := true, buffer := [], learn := none, stagger := none, outcome := .none } := by
  rw [enterLearning_eq, State.queueFrame_stc, toLearn_stc, moveTo_stc]
  rfl

theorem enterLearning_smu : (s.enterLearning r).smu = { holds := [], waits := [] } := by
  rw [enterLearning_eq, State.queueFrame_smu, toLearn_smu]

theorem enterLearning_udir : (s.enterLearning r).udir = { s.udir with seeks := [], offer := .none } := by
  rw [enterLearning_eq, State.queueFrame_udir, toLearn_udir, moveTo_udir]

theorem enterLearning_posts : PostsInTurn [Notice.station s.stc.state .learning r] s (s.enterLearning r) := by
  rw [enterLearning_eq]
  exact (postsInTurn_moveTo s .learning r).of_sport ((State.queueFrame_sport _ _).trans (toLearn_sport _))

theorem enterLearning_supply :
    (s.enterLearning r).rif.supply = s.rif.supply ∧ (s.enterLearning r).rif.returnTimer = s.rif.returnTimer := by
  obtain ⟨-, -, hsupply, -, hreturn, -⟩ := ((Calm.refl (s.moveTo .learning r).toLearn).queueFrame s.joinFrame).sameFixtures
  rw [enterLearning_eq, hsupply, hreturn, toLearn_rif, State.moveTo, State.post_rif]
  exact ⟨rfl, rfl⟩

/-- An empty queue takes the JOIN (R48, R65). -/
theorem enterLearning_rif (hq : s.rif.queue = []) :
    (s.enterLearning r).rif = { s.rif with polarity := .unknown, queue := [Entry.fresh s.joinFrame] } := by
  have hrif : (s.moveTo .learning r).rif = s.rif := by rw [State.moveTo, State.post_rif]
  have hconfig : ((s.moveTo .learning r).toLearn).sport.config = s.sport.config := by
    rw [toLearn_sport, State.moveTo, State.post_config]
  have hacc : ((s.moveTo .learning r).toLearn).accepts s.joinFrame = true := by
    rw [← joinFrame_congr hconfig]
    refine accepts_joinFrame ?_ ?_
    · rw [toLearn_stc, moveTo_stc]
      rfl
    · rw [Rif.count, toLearn_rif, hrif, hq]
      rfl
  rw [enterLearning_eq, queueFrame_accepted hacc, toLearn_rif, hrif, hq]
  rfl

end EnterLearning

theorem riserReturned_isolated {s : State} (h : s.stc.state = .isolated) : s.riserReturned = s.enterLearning .riserReturned := by
  simp only [State.riserReturned, h]

theorem riserReturned_idle {s : State} (h : s.stc.state ≠ .isolated) : s.riserReturned = s := by
  unfold State.riserReturned
  split
  · contradiction
  · rfl

theorem exec_returnTimerExpiry {s : State} {e : Nat} (h : s.rif.returnTimer = some e) :
    exec .returnTimerExpiry s = .next (s.at e).regainSupply.riserReturned := by
  simp only [exec, execReturnTimerExpiry, h]

/-- Settles O6: the loss reaches STC in the state without supply and detectors, and the return in the state with supply. -/
theorem riserLossAndReturn : Obligations.RiserLossAndReturn := by
  refine ⟨fun s e he => ?_, fun s e he => ?_⟩
  · have hends : ((s.at e).loseSupply).endNotices = s.endNotices := endNotices_congr rfl
    obtain ⟨⟨hnow, -, hsupply, hloss, -, hpolarity, hfwd, hret, -, -, -, -, -, hconfig, -⟩, hstrike⟩ :=
      riserLost_fixtures (s := (s.at e).loseSupply)
    refine ⟨_, exec_supplyLossTimerExpiry he, hnow, hsupply, hloss, detector_absent hfwd hret, hpolarity, hstrike, hconfig,
      fun hst => ?_, fun hst => ?_, fun hst ha hr hd => riserLost_hushed hst ha hr hd, fun hst => ?_⟩
    · obtain ⟨hstate, hlocked, hoff, hlines⟩ := enterIsolated_told (s.at e).loseSupply
      have hposts := enterIsolated_posts (s.at e).loseSupply
      rw [hends] at hposts
      rw [riserLost_isolates (s := (s.at e).loseSupply) hst]
      exact ⟨hstate, hlocked, hoff, hlines, hposts.from_sport rfl⟩
    · have hconf := enterConfigured_nowConfigured (s.at e).loseSupply .riserLost
      have hposts := enterConfigured_posts (s.at e).loseSupply .riserLost
      rw [State.loseSupply_stc, State.at_stc, hst] at hconf hposts
      rw [hends] at hposts
      rw [riserLost_leaving (s := (s.at e).loseSupply) hst]
      exact ⟨hconf, hposts.from_sport rfl⟩
    · rw [riserLost_idle (s := (s.at e).loseSupply) hst]
      exact ⟨rfl, rfl, rfl, rfl, rfl, rfl, rfl⟩
  · refine ⟨_, exec_returnTimerExpiry he, ?_⟩
    by_cases hst : s.stc.state = .isolated
    · obtain ⟨hsupply, hreturn⟩ := enterLearning_supply (s.at e).regainSupply .riserReturned
      have hposts := enterLearning_posts (s.at e).regainSupply .riserReturned
      rw [State.regainSupply_stc, State.at_stc, hst] at hposts
      rw [riserReturned_isolated (s := (s.at e).regainSupply) hst]
      refine ⟨enterLearning_now _ _, hsupply, hreturn, fun _ hq => ?_, fun h => absurd hst h⟩
      have hrif := enterLearning_rif (s.at e).regainSupply .riserReturned hq
      rw [enterLearning_stc, enterLearning_smu, enterLearning_udir, hrif]
      exact ⟨rfl, rfl, rfl, rfl, rfl, rfl, rfl, rfl, rfl, rfl, rfl, hposts.from_sport rfl⟩
    · rw [riserReturned_idle (s := (s.at e).regainSupply) hst]
      exact ⟨rfl, rfl, rfl, fun h => absurd h hst, fun _ => rfl⟩

end Sys2Proof.Machine
end

section
/-! PROOFS. The values after reset, and the CONFIGURE and JOIN requests by their rows (R64, R65, R81, R178). -/

namespace Sys2Proof.Machine

/-! ### Reset -/

theorem lineAt_reset (k : Fin 64) : State.reset.udir.lineAt k = none := by simp [State.reset, Udir.lineAt]

theorem enable_reset (n : Nat) : State.reset.path.enable n = none := by
  by_cases hn : n < 24 <;> simp [State.reset, Path.enable, hn]

/-- Settles O3: each block as `State.reset` writes it out. -/
theorem resetValues : Obligations.ResetValues :=
  ⟨rfl, rfl, rfl, rfl, rfl, rfl, by decide, rfl, rfl, rfl, rfl, rfl, rfl, rfl, lineAt_reset, rfl, rfl, by decide, enable_reset,
    by decide, rfl, rfl, rfl, fun k => by cases k <;> rfl, rfl, rfl, by decide, rfl, rfl, rfl, rfl, by decide, rfl, rfl, rfl, rfl,
    rfl, rfl⟩

/-! ### Requests -/

/-- A request of the right length is answered by its own rows, in the state without the transaction before (R174). -/
theorem serve_of_length {n : Nat} {fs : List Byte} (h : fs.length = n) (s : State) (run : State → State) :
    s.serve n fs run = run s.openTransaction := if_pos h

/-- An answer replaces the transaction before, whether or not it was over. -/
theorem respond_openTransaction (s : State) (st : Status) (fs : List Byte) (t : Tail) :
    s.openTransaction.respond st fs t = s.respond st fs t := rfl

theorem reply_openTransaction (s : State) (st : Status) : s.openTransaction.reply st = s.reply st := rfl

/-! ### CONFIGURE -/

section Configure

variable {s : State} {fs : List Byte} (hlen : fs.length = 18)
include hlen

theorem exec_configure_locked (h : s.stc.locked = true) : exec (.configure fs) s = .next (s.reply .locked) := by
  have hl : s.openTransaction.stc.locked = true := h
  simp only [exec, execConfigure, serve_of_length hlen, if_pos hl, reply_openTransaction]

theorem exec_configure_badValue (h : s.stc.locked = false) (hp : parseConfig fs = none) :
    exec (.configure fs) s = .next (s.reply .badValue) := by
  have hl : ¬ s.openTransaction.stc.locked = true := by simp [h]
  simp only [exec, execConfigure, serve_of_length hlen, if_neg hl, hp, reply_openTransaction]

theorem exec_configure_accepted (h : s.stc.locked = false) {r : ConfigRecord} (hp : parseConfig fs = some r) :
    exec (.configure fs) s = .next ((s.openTransaction.acceptConfig r).reply .accepted) := by
  have hl : ¬ s.openTransaction.stc.locked = true := by simp [h]
  simp only [exec, execConfigure, serve_of_length hlen, if_neg hl, hp]

end Configure

/-- A posting reads no transaction but one whose answer clears the overflow flag, and an answer replaces either (R173, R184). -/
theorem reply_post_openTransaction (s : State) (n : Notice) (st : Status) :
    (s.openTransaction.post n).reply st = (s.post n).reply st := by
  unfold State.post
  by_cases hroom : s.sport.notices.length < Config.noticeCap
  · rw [if_pos hroom, if_pos (by exact hroom)]
    rfl
  · rw [if_neg hroom, if_neg (by exact hroom)]
    rfl

/-- Settles O44: the three rows of the lock and the record, and for an accepted one the station state. -/
theorem configureRows : Obligations.ConfigureRows := by
  intro s fs hlen
  refine ⟨exec_configure_locked hlen, exec_configure_badValue hlen, fun r hlocked hrecord => ⟨fun hst => ?_, fun hst => ?_⟩⟩
  · rw [exec_configure_accepted hlen hlocked hrecord, State.acceptConfig, if_neg (by exact hst)]
    rfl
  · rw [exec_configure_accepted hlen hlocked hrecord, State.acceptConfig, if_pos (by exact hst), State.moveTo]
    simp only [State.closeSeeks_stc, State.openTransaction_stc, hst]
    exact congrArg Host.Outcome.next (reply_post_openTransaction
      { s with
        stc := { s.stc with state := .configured, locked := false }
        sport := { s.sport with config := r, attn0 := attn0Of r.attn s.sport.notices, attn1 := attn1Of r.attn s.sport.notices }
        udir := { s.udir with seeks := [], offer := .none } } _ _)

/-! ### JOIN -/

section Join

variable {s : State}

theorem exec_join_unconfigured (h : s.stc.state = .unconfigured) : exec (.join []) s = .next (s.reply .notConfigured) := by
  simp only [exec, execJoin, serve_of_length (List.length_nil), State.openTransaction_stc, h, reply_openTransaction]

theorem exec_join_leaving (h : s.stc.state = .leaving) : exec (.join []) s = .next (s.reply .busy) := by
  simp only [exec, execJoin, serve_of_length (List.length_nil), State.openTransaction_stc, h, reply_openTransaction]

theorem exec_join_onRiser (h : s.stc.state = .learning ∨ s.stc.state = .joined ∨ s.stc.state = .isolated) :
    exec (.join []) s = .next (s.reply .wrongState) := by
  rcases h with h | h | h <;>
    simp only [exec, execJoin, serve_of_length (List.length_nil), State.openTransaction_stc, h, reply_openTransaction]

theorem exec_join_present (h : s.stc.state = .configured) (hs : s.rif.supply = .present) :
    exec (.join []) s = .next ((s.openTransaction.enterLearning .joinRequested).reply .accepted) := by
  simp only [exec, execJoin, serve_of_length (List.length_nil), State.openTransaction_stc, State.openTransaction_rif, h, hs]

theorem exec_join_lost (h : s.stc.state = .configured) (hs : s.rif.supply = .lost) :
    exec (.join []) s = .next (s.openTransaction.enterIsolated.reply .accepted) := by
  simp only [exec, execJoin, serve_of_length (List.length_nil), State.openTransaction_stc, State.openTransaction_rif, h, hs]

end Join

theorem toLearn_ctxs (u : State) : u.toLearn.ctxs = u.ctxs := rfl

theorem enterLearning_ctxs (s : State) (r : StationReason) : (s.enterLearning r).ctxs = s.ctxs := by
  rw [enterLearning_eq, State.queueFrame_ctxs, toLearn_ctxs, State.moveTo, State.post_ctxs]

theorem posted_enterLearning (s : State) (r : StationReason) : Posted (.station s.stc.state .learning r) (s.enterLearning r) := by
  rw [enterLearning_eq]
  exact Posted.of_sport (posted_post _ _) ((State.queueFrame_sport _ _).trans (toLearn_sport _))

theorem posted_enterIsolated (s : State) : Posted (.station s.stc.state .isolated .riserLost) s.enterIsolated := by
  unfold State.enterIsolated State.moveTo
  rw [offRiser_state]
  exact posted_post _ _

theorem posted_reply {n : Notice} {t : State} (h : Posted n t) (st : Status) : Posted n (t.reply st) := h

theorem State.offTheRiser.reply {t : State} (h : t.offTheRiser) (st : Status) : (t.reply st).offTheRiser := h

/-- Settles O45: in CONFIGURED the JOIN enters LEARNING or ISOLATED by the supply; in any other state it is refused. -/
theorem joinRequestRows : Obligations.JoinRequestRows := by
  refine fun s => ⟨exec_join_unconfigured, exec_join_leaving, exec_join_onRiser, fun hst hsupply hqueue => ?_, fun hst hsupply => ?_⟩
  · have hposted := posted_enterLearning s.openTransaction .joinRequested
    have hstc := enterLearning_stc s.openTransaction .joinRequested
    have hrif := enterLearning_rif s.openTransaction .joinRequested hqueue
    rw [State.openTransaction_stc, hst] at hposted
    refine ⟨_, exec_join_present hst hsupply, rfl, congrArg Stc.state hstc, congrArg Stc.locked hstc, congrArg Stc.buffer hstc,
      congrArg Stc.learn hstc, congrArg Stc.stagger hstc, congrArg Stc.outcome hstc, congrArg Rif.polarity hrif,
      enterLearning_smu _ _, congrArg Rif.queue hrif, posted_reply hposted _,
      by rw [State.reply_udir, enterLearning_udir]; rfl, enterLearning_ctxs _ _⟩
  · obtain ⟨hstate, hlocked, hoff, -⟩ := enterIsolated_told s.openTransaction
    have hposted := posted_enterIsolated s.openTransaction
    rw [State.openTransaction_stc, hst] at hposted
    exact ⟨_, exec_join_lost hst hsupply, rfl, hstate, hlocked, hoff.reply _, posted_reply hposted _⟩

end Sys2Proof.Machine
end

section
/-! PROOFS. The issued sequence number (R82). -/

namespace Sys2Proof.Machine

/-- The call ids present at a station: those of its copy's items, then those its live contexts carry (R82). -/
def State.presentCalls (s : State) : List CallId :=
  s.smu.holds.map Hold.cid ++ s.smu.waits.map WaitEntry.cid ++ refs.filterMap fun i => (s.ctx i).map Ctx.cid

theorem findCall_isSome_iff {s : State} {c : CallId} : (s.findCall c).isSome = true ↔ ∃ i x, s.ctx i = some x ∧ x.cid = c := by
  simp only [State.findCall, List.find?_isSome]
  constructor
  · rintro ⟨i, -, hi⟩
    cases hx : s.ctx i with
    | none => simp [hx] at hi
    | some x => exact ⟨i, x, hx, by simpa [hx] using hi⟩
  · rintro ⟨i, x, hx, hc⟩
    exact ⟨i, mem_refs i, by simp [hx, hc]⟩

theorem callPresent_iff {s : State} {c : CallId} : s.callPresent c = true ↔ c ∈ s.presentCalls := by
  simp [State.callPresent, State.presentCalls, Smu.has_iff, findCall_isSome_iff, mem_refs, or_assoc]

theorem length_presentCalls_le (s : State) : s.presentCalls.length ≤ s.smu.holds.length + s.smu.waits.length + 4 := by
  have hctxs := List.length_filterMap_le (fun i => (s.ctx i).map Ctx.cid) refs
  simp only [State.presentCalls, List.length_append, List.length_map]
  exact Nat.add_le_add_left hctxs _

/-- Fewer than 256 calls present leave a sequence number free (R82). -/
theorem exists_absent {s : State} (h : s.presentCalls.length < 256) (a : Byte) : ∃ q : Byte, s.callPresent ⟨a, q⟩ = false := by
  by_contra hall
  push Not at hall
  have hsub : (Finset.univ : Finset (Fin (2 ^ 8))).image BitVec.ofFin ⊆ (s.presentCalls.map CallId.seq).toFinset := fun q _ => by
    have hq : (⟨a, q⟩ : CallId) ∈ s.presentCalls := callPresent_iff.mp (by simpa using hall q)
    exact List.mem_toFinset.mpr (List.mem_map_of_mem (f := CallId.seq) hq)
  have hinj : Function.Injective (BitVec.ofFin : Fin (2 ^ 8) → Byte) := fun _ _ h => congrArg BitVec.toFin h
  have hcard := (Finset.card_le_card hsub).trans (List.toFinset_card_le _)
  rw [Finset.card_image_of_injective _ hinj, Finset.card_univ, Fintype.card_fin, List.length_map] at hcard
  omega

/-- The search passes over present call ids alone, and stops at one only when its fuel is spent. -/
theorem searchSeq_spec (s : State) (fuel : Nat) : ∀ start : Byte, ∃ n ≤ fuel,
    s.searchSeq fuel start = start + BitVec.ofNat 8 n
      ∧ (∀ m < n, s.callPresent ⟨s.own, start + BitVec.ofNat 8 m⟩ = true)
      ∧ (s.callPresent ⟨s.own, s.searchSeq fuel start⟩ = true → n = fuel) := by
  induction fuel with
  | zero => exact fun start => ⟨0, le_rfl, by simp [State.searchSeq], by simp, fun _ => rfl⟩
  | succ fuel ih =>
    intro start
    by_cases hp : s.callPresent ⟨s.own, start⟩ = true
    · obtain ⟨n, hn, hseq, hbelow, hstop⟩ := ih (start + 1#8)
      have hshift : ∀ m, start + 1#8 + BitVec.ofNat 8 m = start + BitVec.ofNat 8 (m + 1) := fun m => by
        rw [BitVec.ofNat_add, BitVec.add_assoc, BitVec.add_comm (BitVec.ofNat 8 m)]
      have hstep : s.searchSeq (fuel + 1) start = s.searchSeq fuel (start + 1#8) := if_pos hp
      rw [hstep]
      refine ⟨n + 1, Nat.succ_le_succ hn, by rw [hseq, hshift], fun m hm => ?_, fun h => by rw [hstop h]⟩
      cases m with
      | zero => simpa using hp
      | succ m => rw [← hshift]; exact hbelow m (by omega)
    · have hstep : s.searchSeq (fuel + 1) start = start := if_neg hp
      rw [hstep]
      exact ⟨0, Nat.zero_le _, by simp, by simp, fun h => absurd h hp⟩

/-- Every byte is reached from another in fewer than 256 steps. -/
theorem exists_add_eq (start q : Byte) : ∃ m < 256, start + BitVec.ofNat 8 m = q :=
  ⟨(q - start).toNat, (q - start).isLt, by rw [BitVec.ofNat_toNat, BitVec.setWidth_eq, BitVec.add_comm, BitVec.sub_add_cancel]⟩

/-- Settles O48: the search of 256 numbers ends before its last unless all are present, and 44 calls cannot hold all of them. -/
theorem sequenceNumberIsTheNextAbsent : Obligations.SequenceNumberIsTheNextAbsent := by
  intro s hholds hwaits
  obtain ⟨n, hn, hseq, hbelow, hstop⟩ := searchSeq_spec s 255 (s.stc.sequence + 1#8)
  refine ⟨?_, n, hseq, by omega, hbelow⟩
  by_contra hpresent
  have hpresent : s.callPresent ⟨s.own, s.nextSeq⟩ = true := by simpa using hpresent
  obtain rfl : n = 255 := hstop hpresent
  have hroom : s.presentCalls.length < 256 := by
    have := length_presentCalls_le s
    omega
  obtain ⟨q, hq⟩ := exists_absent hroom s.own
  obtain ⟨m, hm, rfl⟩ := exists_add_eq (s.stc.sequence + 1#8) q
  rcases Nat.lt_or_ge m 255 with hlt | hge
  · rw [hbelow m hlt] at hq
    cases hq
  · obtain rfl : m = 255 := by omega
    rw [← hseq] at hq
    exact Bool.noConfusion (hpresent.symm.trans hq)

end Sys2Proof.Machine
end

section
/-! PROOFS. LEARNING buffers what it takes, and restarts on overflow (R66). -/

namespace Sys2Proof.Machine

/-- A frame other than a SNAPSHOT is taken through the learning buffer in LEARNING (R66). -/
theorem exec_buffering {c : Instr} {x : Byte} {f : Frame} (h : takenFrame c = some (x, f)) (hk : f.kind ≠ .snapshot) (s : State) :
    ∃ act, exec c s = .next (s.takes x f act) := by
  cases c <;> cases h
  case snapshotTaken => exact absurd rfl hk
  all_goals exact ⟨_, rfl⟩

theorem learnFrame_room {s : State} (hroom : s.stc.buffer.length < 32) (x : Byte) (f : Frame) :
    s.learnFrame x f = { s with stc := { s.stc with
      buffer := s.stc.buffer ++ [(x, f)]
      learn := if f.kind = .join ∧ x = s.own ∧ s.stc.learn = none then some (s.now + 1000) else s.stc.learn } } :=
  if_pos hroom

theorem learnFrame_full {s : State} (hfull : 32 ≤ s.stc.buffer.length) (x : Byte) (f : Frame) :
    s.learnFrame x f = s.learnRestart .overflow := if_neg (Nat.not_lt.mpr hfull)

/-- What a restart of learning leaves before its notice: the buffer and the copy empty, and a JOIN in the queue (R66). -/
def State.learningAfresh (s : State) : State :=
  let t := ((s.stopLearning).emptyCopy).setOutcome .none
  if t.kindQueued .join then t else t.queueFrame t.joinFrame

theorem learnRestart_eq (s : State) (r : LearnReason) : s.learnRestart r = s.learningAfresh.post (.learnRestart r) := rfl

theorem calm_learningAfresh (s : State) : Calm (((s.stopLearning).emptyCopy).setOutcome .none) s.learningAfresh := by
  unfold State.learningAfresh
  dsimp only
  split
  · exact Calm.refl _
  · exact (Calm.refl _).queueFrame _

theorem sameFixtures_learnRestart (s : State) (r : LearnReason) : SameFixtures s (s.learnRestart r) :=
  ((calm_learningAfresh s).post (.learnRestart r)).sameFixtures

theorem learningAfresh_fields (s : State) :
    s.learningAfresh.stc = { s.stc with buffer := [], learn := none, stagger := none, outcome := .none }
      ∧ s.learningAfresh.smu = { holds := [], waits := [] } ∧ s.learningAfresh.udir = s.udir ∧ s.learningAfresh.ctxs = s.ctxs := by
  unfold State.learningAfresh
  dsimp only
  split <;> simp [State.stopLearning, State.setOutcome, State.emptyCopy]

theorem learningAfresh_queue {s : State} (h : s.kindQueued .join = true) : s.learningAfresh.rif.queue = s.rif.queue := by
  have hkept : s.learningAfresh = ((s.stopLearning).emptyCopy).setOutcome .none := if_pos h
  rw [hkept]
  rfl

/-- The own frame in carriage reaches the learning buffer (R54, R66). -/
theorem taking_of_learning_echo {s : State} {f : Frame} (hstate : s.stc.state = .learning) (hp : s.rif.polarity ≠ .unknown)
    (hc : s.carrying.map Entry.frame = some f) (hv : validAddr s.own = true) (hf : f.suits = true) (learn act : State → State) :
    s.taking s.own f learn act = learn (s.onEcho f.ident) := by
  have hr : s.onRiser = true := by simp [State.onRiser, hstate, hp]
  obtain ⟨e, he, hef⟩ := Option.map_eq_some_iff.mp hc
  have hl : (s.echoed f.ident).stc.state = .learning := hstate
  simp [State.taking, State.deliver, hr, he, hef, hv, hf, hl, onEcho_eq]

/-- Settles O13: a buffer with room takes the frame, a full one restarts learning. -/
theorem learningBuffersFrames : Obligations.LearningBuffersFrames := by
  unfold Obligations.LearningBuffersFrames
  refine ⟨fun s c x f hframe hkind hstate hp hc hx hv hf => ?_, fun s r u w hstate hp hc hv hroom => ?_⟩
  · obtain ⟨act, hexec⟩ := exec_buffering hframe hkind s
    rw [State.takes, taking_of_learning hstate hp hc hx hv hf] at hexec
    refine ⟨fun hroom => ?_, fun hfull => ⟨s.newEvent.learnRestart .overflow, ?_, ?_⟩⟩
    · have hown : ¬ (f.kind = .join ∧ x = s.newEvent.own ∧ s.newEvent.stc.learn = none) := fun h => hx h.2.1
      rw [hexec, learnFrame_room (s := s.newEvent) hroom, if_neg hown]
      rfl
    · rw [hexec, learnFrame_full (s := s.newEvent) hfull]
    · obtain ⟨hstc, hsmu, hudir, hctxs⟩ := learningAfresh_fields s.newEvent
      rw [learnRestart_eq, State.post_stc, State.post_smu, State.post_udir, State.post_ctxs, State.post_rif, hstc]
      exact ⟨hstate, rfl, rfl, rfl, hsmu, posted_post _ _, hudir, hctxs, fun hj => learningAfresh_queue (s := s.newEvent) hj,
        sameFixtures_learnRestart s.newEvent .overflow⟩
  · refine ⟨_, congrArg Host.Outcome.next (taking_of_learning_echo hstate hp hc hv rfl _ _), ?_⟩
    rw [learnFrame_room (s := s.onEcho (Frame.join r u w).ident) hroom]
    refine ⟨?_, rfl, rfl, rfl, rfl, rfl⟩
    by_cases hlearn : s.stc.learn = none <;> simp [State.onEcho, State.own, Frame.kind, hlearn]

end Sys2Proof.Machine
end

section
/-! PROOFS. The door request at both its ends (R165 to R167). -/

namespace Sys2Proof.Machine

/-- No LEAVE falls due behind an event that keeps the contexts and takes nothing from the queue (R77). -/
theorem State.noLeaveDue.of_kept {s t : State} (h : s.noLeaveDue) (hstc : t.stc.state = s.stc.state) (hctxs : t.ctxs = s.ctxs)
    (hq : s.rif.queue <+: t.rif.queue) : t.noLeaveDue := by
  intro hst
  rcases h (hstc ▸ hst) with hl | hj | hl
  · refine .inl fun h0 => hl (liveCount_eq_zero_iff.mpr fun i => ?_)
    rw [← State.ctx_congr hctxs]
    exact liveCount_eq_zero_iff.mp h0 i
  · exact .inr (.inl (kindQueued_mono hq hj))
  · exact .inr (.inr (kindQueued_mono hq hl))

/-! ### The panel -/

/-- The ORIGIN context of a call is in TALK with an answerer (R167). -/
theorem talksWith_iff {s : State} {x : Byte} {c : CallId} :
    s.talksWith x c = true ↔ ∃ i y, s.findCtx .origin c = some i ∧ s.ctx i = some y ∧ y.state = .talk ∧ y.answerer = some x := by
  unfold State.talksWith
  cases hf : s.findCtx .origin c with
  | none => simp
  | some i => cases hy : s.ctx i <;> simp [hy]

/-- What the panel does to the strike, by the result with which it answers (R167, R168). -/
def State.struck (s : State) (r : DoorResult) : State := if r = .energized then s.energize else s

theorem openTaken_other {s : State} {c : CallId} (h : s.role ≠ .entry ∨ c.orig ≠ s.own) (x : Byte) : s.openTaken x c = s := if_pos h

theorem openTaken_own {s : State} {c : CallId} (hr : s.role = .entry) (hc : c.orig = s.own) (x : Byte) :
    s.openTaken x c = ((s.struck (s.openResult x c)).queueFrame (.opened c (s.openResult x c).code)).post
      (.door (s.findCtx .origin c) c (s.openResult x c) x) := if_neg (by simp [hr, hc])

/-- The panel's answer: the strike by the result, an OPENED with its code, and the DOOR notice (R167). -/
theorem openTaken_own_fields {s : State} {c : CallId} (hr : s.role = .entry) (hc : c.orig = s.own) (x : Byte) :
    let t := s.openTaken x c
    t.ctxs = s.ctxs ∧ t.smu = s.smu ∧ t.udir = s.udir ∧ t.stc = s.stc ∧ t.path = s.path ∧ SameFixtures s t
      ∧ t.oku = (s.struck (s.openResult x c)).oku ∧ t.rif.queue = s.queueWith (.opened c (s.openResult x c).code)
      ∧ Posted (.door (s.findCtx .origin c) c (s.openResult x c) x) t := by
  dsimp only
  rw [openTaken_own hr hc]
  generalize s.openResult x c = r
  have hstruck : (s.struck r).ctxs = s.ctxs ∧ (s.struck r).smu = s.smu ∧ (s.struck r).udir = s.udir ∧ (s.struck r).stc = s.stc
      ∧ (s.struck r).path = s.path ∧ (s.struck r).rif = s.rif ∧ SameFixtures s (s.struck r) := by
    unfold State.struck
    split
    · exact ⟨rfl, rfl, rfl, rfl, rfl, rfl, rfl, rfl, rfl, rfl, rfl, rfl, rfl, rfl, rfl, rfl, rfl, rfl, rfl, rfl, rfl⟩
    · exact ⟨rfl, rfl, rfl, rfl, rfl, rfl, (Calm.refl s).sameFixtures⟩
  obtain ⟨hctxs, hsmu, hudir, hstc, hpath, hrif, hfix⟩ := hstruck
  have hqueue := queueWith_congr (congrArg Rif.queue hrif) (congrArg Stc.state hstc) (.opened c r.code)
  refine ⟨?_, ?_, ?_, ?_, ?_, hfix.trans (((Calm.refl _).queueFrame _).post _).sameFixtures, ?_, ?_, posted_post _ _⟩
  · rw [State.post_ctxs, State.queueFrame_ctxs, hctxs]
  · rw [State.post_smu, State.queueFrame_smu, hsmu]
  · rw [State.post_udir, State.queueFrame_udir, hudir]
  · rw [State.post_stc, State.queueFrame_stc, hstc]
  · rw [State.post_path, State.queueFrame_path, hpath]
  · rw [State.post_oku, State.queueFrame_oku]
  · rw [State.post_rif, queueFrame_eq, hqueue]

/-- Settles O32: the panel's result, and what follows from it. -/
theorem openIsAnsweredAtThePanel : Obligations.OpenIsAnsweredAtThePanel := by
  unfold Obligations.OpenIsAnsweredAtThePanel
  intro s x c hhears hleave talks
  have hexec : exec (.openTaken x c) s = .next (s.newEvent.openTaken x c).leaveCheck :=
    congrArg Host.Outcome.next (taking_of_hears hhears _ _)
  refine ⟨fun hother => ?_, fun hrole hown => ⟨s.newEvent.openTaken x c, ?_, ?_⟩⟩
  · have hidle : s.newEvent.leaveCheck = s.newEvent :=
      leaveCheck_of_noLeaveDue (hleave.of_kept rfl rfl (List.prefix_refl _))
    rw [hexec, openTaken_other (s := s.newEvent) hother, hidle]
    rfl
  · obtain ⟨hctxs, -, -, hstc, -, -, -, hqueue, -⟩ := openTaken_own_fields (s := s.newEvent) hrole hown x
    have hgrows : s.rif.queue <+: (s.newEvent.openTaken x c).rif.queue := by rw [hqueue]; exact List.prefix_append _ _
    rw [hexec, leaveCheck_of_noLeaveDue (hleave.of_kept (congrArg Stc.state hstc) hctxs hgrows)]
  · obtain ⟨hctxs, hsmu, hudir, hstc, hpath, hfix, hoku, hqueue, hposted⟩ := openTaken_own_fields (s := s.newEvent) hrole hown x
    refine ⟨hctxs, hsmu, hudir, hstc, hpath, hfix, fun ht hf => ?_, fun ht hf => ?_, fun ht => ?_⟩
    · have hr : s.newEvent.openResult x c = .energized := by
        have htalks : s.newEvent.talksWith x c = true := talksWith_iff.mpr ht
        simp [State.openResult, htalks, hf]
      rw [hr] at hoku hqueue hposted
      exact ⟨hoku, hqueue, hposted⟩
    · have hr : s.newEvent.openResult x c = .fault := by
        have htalks : s.newEvent.talksWith x c = true := talksWith_iff.mpr ht
        simp [State.openResult, htalks, hf]
      rw [hr] at hoku hqueue hposted
      exact ⟨hoku, hqueue, hposted⟩
    · have hr : s.newEvent.openResult x c = .notInTalk := by
        have htalks : ¬ s.newEvent.talksWith x c = true := fun h => ht (talksWith_iff.mp h)
        simp [State.openResult, htalks]
      rw [hr] at hoku hqueue hposted
      exact ⟨hoku, hqueue, hposted⟩

/-! ### The requester -/

theorem openedTaken_ended {s : State} {c : CallId} {i : Ref} {k : Byte} {r : DoorResult} {x : Byte}
    (hi : s.findCtx .answer c = some i) (hr : DoorResult.ofOpened k = some r) (hd : s.oku.door[i] ≠ none) (hx : x = c.orig) :
    s.openedTaken x c k = s.endDoor i c r := by
  have hp : s.doorPending i = true := Option.isSome_iff_ne_none.mpr hd
  simp [State.openedTaken, hi, hr, hp, hx]

theorem openedTaken_ignored {s : State} {c : CallId} {k x : Byte}
    (h : x ≠ c.orig ∨ DoorResult.ofOpened k = none ∨ ∀ i, s.findCtx .answer c = some i → s.oku.door[i] = none) :
    s.openedTaken x c k = s := by
  unfold State.openedTaken
  split
  next i r hi hr =>
    refine if_neg fun hend => ?_
    rcases h with hx | hk | hd
    · exact hx hend.2
    · exact absurd hr (by simp [hk])
    · have hp := hend.1
      simp [State.doorPending, hd i hi] at hp
  next => rfl

/-- Settles O33: an OPENED of the originator, and the reply wait's expiry. -/
theorem doorRequestEndsOnce : Obligations.DoorRequestEndsOnce := by
  unfold Obligations.DoorRequestEndsOnce
  refine fun s => ⟨fun x c k i r hhears hi hd hx hk => ?_, fun x c k hhears hleave hignored => ?_, fun i y e hd hy => ?_⟩
  · have hr : DoorResult.ofOpened k = some r := by
      simp only [List.mem_cons, Prod.mk.injEq, List.not_mem_nil, or_false] at hk
      rcases hk with ⟨rfl, rfl⟩ | ⟨rfl, rfl⟩ | ⟨rfl, rfl⟩ <;> rfl
    obtain ⟨y, hy, -, -⟩ := findCtx_some hi
    have hlive : (s.newEvent.endDoor i c r).ctx i = some y := by
      rw [State.endDoor, State.ctx_congr (State.post_ctxs ..)]
      exact hy
    have hexec : exec (.openedTaken x c k) s = .next (s.newEvent.openedTaken x c k).leaveCheck :=
      congrArg Host.Outcome.next (taking_of_hears hhears _ _)
    rw [hexec, openedTaken_ended (s := s.newEvent) hi hr hd hx, leaveCheck_of_live hlive]
    rfl
  · have hcode : x ≠ c.orig ∨ DoorResult.ofOpened k = none ∨ ∀ i, s.findCtx .answer c = some i → s.oku.door[i] = none := by
      refine hignored.imp_right (Or.imp_left fun hk => ?_)
      simp only [List.mem_cons, List.not_mem_nil, or_false, not_or] at hk
      obtain ⟨h1, h2, h3⟩ := hk
      simp [DoorResult.ofOpened, h1, h2, h3]
    have hexec : exec (.openedTaken x c k) s = .next (s.newEvent.openedTaken x c k).leaveCheck :=
      congrArg Host.Outcome.next (taking_of_hears hhears _ _)
    have hidle : s.newEvent.leaveCheck = s.newEvent :=
      leaveCheck_of_noLeaveDue (hleave.of_kept rfl rfl (List.prefix_refl _))
    rw [hexec, openedTaken_ignored (s := s.newEvent) hcode, hidle]
    rfl
  · have hy' : (s.at e).ctx i = some y := hy
    simp only [exec, execReplyWaitExpiry, State.expire, hd, State.replyExpires, hy', State.endDoor]

end Sys2Proof.Machine
end

section
/-! PROOFS. JOIN, OFFER and LEAVE at the directory and at the station controller (R69, R70, R77, R86 to R89, R97). -/

namespace Sys2Proof.Machine

theorem leaveCheck_udir (s : State) : s.leaveCheck.udir = s.udir := by
  rcases leaveCheck_eq s with h | h <;> simp [h]

theorem sameFixtures_leaveCheck (s : State) : SameFixtures s s.leaveCheck := (Calm.refl s).leaveCheck.sameFixtures

/-! ### Another station's frames -/

/-- A JOIN of another station: the directory, and the stagger timer in JOINED (R70, R86). -/
theorem joinTaken_other {s : State} {x : Byte} (hx : x ≠ s.own) (r : Byte) (u : UnitNum) (w : Byte) :
    s.joinTaken x r u w = { s with
      udir := { s.udir with lines := if joinServes r u then fillLine s.udir.lines u x (recordedCap w)
                                     else removeStation x s.udir.lines }
      stc := { s.stc with stagger :=
        if s.stc.state = .joined ∧ s.stc.stagger = none ∧ s.kindQueued .snapshot = false then some (s.now + 2 * s.own.toNat)
        else s.stc.stagger } } := by
  have harm : (s.directoryJoin x r u w).armStagger = if s.stc.stagger = none ∧ s.kindQueued .snapshot = false
      then { s.directoryJoin x r u w with stc := { s.stc with stagger := some (s.now + 2 * s.own.toNat) } }
      else s.directoryJoin x r u w := by
    simp only [State.armStagger, Bool.not_eq_true']
    rfl
  by_cases hst : s.stc.state = .joined
  · have hfirst : s.joinTaken x r u w = (s.directoryJoin x r u w).armStagger := if_pos ⟨hst, hx⟩
    rw [hfirst, harm]
    by_cases htimer : s.stc.stagger = none ∧ s.kindQueued .snapshot = false
    · rw [if_pos htimer, if_pos ⟨hst, htimer⟩]
      rfl
    · rw [if_neg htimer, if_neg fun h => htimer h.2]
      rfl
  · have hfirst : s.joinTaken x r u w = s.directoryJoin x r u w := if_neg fun h => hst h.1
    rw [hfirst, if_neg fun h => hst h.1]
    rfl

theorem directoryOffer_eq (s : State) (x : Byte) (u : UnitNum) (w : Byte) :
    s.directoryOffer x u w = { s with udir := { s.udir with
      lines := if u.toNat ≤ 9999 then fillLine s.udir.lines u x (recordedCap w) else s.udir.lines } } := by
  by_cases hu : u.toNat ≤ 9999 <;> simp [State.directoryOffer, Config.maxUnit, hu]

theorem leaveTaken_other {s : State} {x : Byte} (hx : x ≠ s.own) : s.leaveTaken x = s.directoryLeave x := by
  simp [State.leaveTaken, hx]

/-! ### The own frames -/

theorem joinTaken_own (s : State) (r : Byte) (u : UnitNum) (w : Byte) : s.joinTaken s.own r u w = s.directoryJoin s.own r u w := by
  simp [State.joinTaken]

theorem sameFixtures_onEcho (s : State) (id : FrameId) : SameFixtures s (s.onEcho id) :=
  ⟨rfl, rfl, rfl, rfl, rfl, rfl, rfl, rfl, rfl, rfl, rfl, rfl, rfl, rfl, rfl⟩

/-- The shared place passes on beside the directory's lines. -/
theorem handOut_lines (s : State) : s.handOut.udir.lines = s.udir.lines := by
  rcases handOut_cases s with h | ⟨f, -, h⟩ | ⟨f, -, h⟩ <;> rw [h]

/-- An OFFER is queued only where one is owed (R93, R97). -/
theorem handOut_offer_none {s : State} (h : s.udir.offer = .none) : s.handOut.udir.offer = .none := by
  rcases handOut_cases s with ht | ⟨f, ho, ht⟩ | ⟨f, -, ht⟩
  · rw [ht, h]
  · exact absurd ho (by simp [h])
  · rw [ht]; exact h

/-- Where one entry at most is of a kind, none is behind the first that is carried and of it. -/
theorem countP_eraseP_eq_zero {α : Type} {p q : α → Bool} {l : List α} {e : α} (h : l.find? q = some e) (hp : p e = true)
    (hc : l.countP p ≤ 1) : (l.eraseP q).countP p = 0 := by
  obtain ⟨hq, pre, post, rfl, hpre⟩ := List.find?_eq_some_iff_append.mp h
  rw [List.eraseP_append_right _ (fun a ha => by simpa using hpre a ha), List.eraseP_cons_of_pos hq]
  rw [List.countP_append, List.countP_cons_of_pos hp] at hc
  rw [List.countP_append]
  omega

theorem kindQueued_of_count_stc {s : State} (h : s.rif.count .stc = 0) {k : FrameKind} (hk : k = .join ∨ k = .leave) :
    s.kindQueued k = false := by
  refine List.any_eq_false.mpr fun e he hek => ?_
  have hkind : e.frame.kind = k := of_decide_eq_true hek
  exact List.countP_eq_zero.mp h e he (decide_eq_true (frameCategory_stc.mpr (by rwa [hkind])))

/-- LEAVE is queued where nothing of the station controller is (R77). -/
theorem leaveCheck_due {s : State} (hst : s.stc.state = .leaving) (hl : s.liveCount = 0) (hc : s.rif.count .stc = 0) :
    s.leaveCheck.rif.queue = s.rif.queue ++ [Entry.fresh .leave] := by
  have hacc : s.accepts .leave = true := by
    have hcat : frameCategory .leave = .stc := rfl
    simp [State.accepts, hst, StationState.sends, hcat, hc, Category.allowance]
  have hdue : s.leaveCheck = s.queueFrame .leave :=
    if_pos ⟨hst, hl, by rw [kindQueued_of_count_stc hc (.inl rfl)]; rfl, by rw [kindQueued_of_count_stc hc (.inr rfl)]; rfl⟩
  rw [hdue, queueFrame_accepted hacc]
  rfl

theorem count_stc_onEcho {s : State} {r : Byte} {u : UnitNum} {w : Byte} (hq : QueueLaw s)
    (hc : s.carrying.map Entry.frame = some (.join r u w)) (id : FrameId) : (s.onEcho id).rif.count .stc = 0 := by
  obtain ⟨e, he, hef⟩ := Option.map_eq_some_iff.mp hc
  exact countP_eraseP_eq_zero he (by rw [hef]; rfl) (hq.1 .stc)

theorem leaveCheck_queueOrLeave (s : State) : QueueOrLeave s.rif.queue s s.leaveCheck := by
  obtain ⟨more, hq, rfl | rfl, hst⟩ := leaveCheck_queue s
  · exact .inl (by rw [hq, List.append_nil])
  · refine .inr ⟨?_, hq⟩
    by_contra h
    exact absurd (hst h) (by simp)

/-- Settles O25: the directory's lines, and what the own frames do besides. -/
theorem joinOfferLeaveKeepTheDirectory : Obligations.JoinOfferLeaveKeepTheDirectory := by
  unfold Obligations.JoinOfferLeaveKeepTheDirectory
  refine ⟨fun s x => ⟨fun r u w h => ?_, fun u w h => ?_, fun h => ?_⟩, fun s => ⟨fun h hst => ?_, fun u w h => ?_, fun r u w h hq => ?_⟩⟩
  · refine ⟨_, congrArg Host.Outcome.next (taking_of_hears h _ _), ?_⟩
    have heq := joinTaken_other (s := s.newEvent) h.2.2.1 r u w
    rw [heq]
    refine ⟨?_, leaveCheck_smu _, leaveCheck_ctxs _, leaveCheck_sport _, leaveCheck_udir _, leaveCheck_stc _⟩
    exact SameFixtures.trans ⟨rfl, rfl, rfl, rfl, rfl, rfl, rfl, rfl, rfl, rfl, rfl, rfl, rfl, rfl, rfl⟩ (sameFixtures_leaveCheck _)
  · refine ⟨_, congrArg Host.Outcome.next (taking_of_hears h _ _), ?_⟩
    have heq : s.newEvent.offerTaken x u w = s.newEvent.directoryOffer x u w := if_neg h.2.2.1
    rw [heq, directoryOffer_eq]
    refine ⟨?_, leaveCheck_smu _, leaveCheck_ctxs _, leaveCheck_sport _, leaveCheck_stc _, leaveCheck_udir _⟩
    exact SameFixtures.trans ⟨rfl, rfl, rfl, rfl, rfl, rfl, rfl, rfl, rfl, rfl, rfl, rfl, rfl, rfl, rfl⟩ (sameFixtures_leaveCheck _)
  · refine ⟨_, congrArg Host.Outcome.next (taking_of_hears h _ _), ?_⟩
    rw [leaveTaken_other (s := s.newEvent) h.2.2.1]
    refine ⟨?_, leaveCheck_smu _, leaveCheck_ctxs _, leaveCheck_sport _, leaveCheck_stc _, leaveCheck_udir _⟩
    exact SameFixtures.trans ⟨rfl, rfl, rfl, rfl, rfl, rfl, rfl, rfl, rfl, rfl, rfl, rfl, rfl, rfl, rfl⟩ (sameFixtures_leaveCheck _)
  · set base := (s.onEcho Frame.leave.ident).directoryLeave s.own with hbase
    have htaken : (s.onEcho Frame.leave.ident).leaveTaken s.own = base.enterConfigured .left := if_pos ⟨rfl, hst⟩
    have hnow : (base.enterConfigured .left).nowConfigured s.stc.state .left := enterConfigured_nowConfigured base .left
    refine ⟨base.enterConfigured .left, ?_, hst ▸ hnow, (sameFixtures_onEcho s Frame.leave.ident).trans ?_⟩
    · have hexec : exec (.leaveTaken s.own) s = .next ((s.onEcho Frame.leave.ident).leaveTaken s.own).leaveCheck :=
        congrArg Host.Outcome.next (taking_of_echoes h _ _)
      rw [hexec, htaken, leaveCheck_of_state (by rw [hnow.1]; simp)]
    · exact SameFixtures.trans ⟨rfl, rfl, rfl, rfl, rfl, rfl, rfl, rfl, rfl, rfl, rfl, rfl, rfl, rfl, rfl⟩
        (enterConfigured_fixtures base .left)
  · refine ⟨_, congrArg Host.Outcome.next (taking_of_echoes h _ _), ?_⟩
    have htaken : (s.onEcho (Frame.offer u w).ident).offerTaken s.own u w
        = (((s.onEcho (Frame.offer u w).ident).directoryOffer s.own u w).setOffer .none).handOut := if_pos rfl
    rw [htaken, leaveCheck_udir, leaveCheck_ctxs, leaveCheck_smu, handOut_ctxs, handOut_smu, handOut_lines, directoryOffer_eq]
    exact ⟨handOut_offer_none rfl, rfl, rfl, rfl⟩
  · have hzero := count_stc_onEcho hq h.2.2.1 (Frame.join r u w).ident
    refine ⟨_, congrArg Host.Outcome.next (taking_of_echoes h _ _), ?_⟩
    have htaken : (s.onEcho (Frame.join r u w).ident).joinTaken s.own r u w
        = (s.onEcho (Frame.join r u w).ident).directoryJoin s.own r u w := joinTaken_own (s.onEcho (Frame.join r u w).ident) r u w
    rw [htaken, leaveCheck_udir]
    refine ⟨?_, leaveCheck_smu _, leaveCheck_ctxs _, leaveCheck_sport _, leaveCheck_stc _, rfl, leaveCheck_queueOrLeave _, fun hst hl => ?_⟩
    · exact SameFixtures.trans ⟨rfl, rfl, rfl, rfl, rfl, rfl, rfl, rfl, rfl, rfl, rfl, rfl, rfl, rfl, rfl⟩ (sameFixtures_leaveCheck _)
    · exact leaveCheck_due hst hl hzero

end Sys2Proof.Machine
end

section
/-! PROOFS. DIAL by its rows, and the context that an accepted one opens (R82, R92, R103, R104). -/

namespace Sys2Proof.Machine

/-! ### The test -/

theorem validWidth_byte_iff {w : Byte} : validWidth w.toNat = true ↔ w = 1#8 ∨ w = 2#8 ∨ w = 4#8 := by
  simp only [validWidth, Bool.or_eq_true, beq_iff_eq, or_assoc]
  refine or_congr ?_ (or_congr ?_ ?_) <;> exact ⟨fun h => BitVec.eq_of_toNat_eq h, fun h => by rw [h]; rfl⟩

theorem inRange_iff {r : ConfigRecord} {u : UnitNum} :
    r.inRange u = true ↔ u = 0#16 ∨ (r.lower.toNat ≤ u.toNat ∧ u.toNat ≤ r.upper.toNat) := by
  simp [ConfigRecord.inRange]

theorem activeCount_ne_zero_iff {s : State} : s.activeCount ≠ 0 ↔ refs.any (fun i => s.outsideClearing i) = true := by
  rw [State.activeCount, List.any_eq_true, ← Nat.pos_iff_ne_zero, List.countP_pos_iff]

/-- The rows of DIAL in JOINED, the first that matches (R103). -/
theorem dialTest_joined {s : State} (hst : s.stc.state = .joined) (u : UnitNum) (w : Byte) :
    s.dialTest u w =
      if ¬ (w = 1#8 ∨ w = 2#8 ∨ w = 4#8) then .badValue
      else if s.role = .unit ∧ u ≠ 0#16 then .notPermitted
      else if ¬ (u = 0#16 ∨ (s.sport.config.lower.toNat ≤ u.toNat ∧ u.toNat ≤ s.sport.config.upper.toNat)) then .outOfRange
      else if s.role ≠ .desk ∧ s.activeCount ≠ 0 then .inCall
      else if s.role.limit ≤ s.liveCount then .noContext
      else .accepted := by
  simp only [State.dialTest, hst, ← validWidth_byte_iff, ← inRange_iff, activeCount_ne_zero_iff, Bool.not_eq_true, ge_iff_le,
    Bool.not_eq_true']

theorem exec_dial (s : State) (u1 u0 w : Byte) :
    exec (.dial [u1, u0, w]) s = .next (s.openTransaction.dial (wordOf u1 u0) w) := rfl

theorem exec_dial_refused {s : State} {u1 u0 w : Byte} {st : Status} (h : s.dialTest (wordOf u1 u0) w = st) (hst : st ≠ .accepted) :
    exec (.dial [u1, u0, w]) s = .next (s.reply st) := by
  have htest : s.openTransaction.dialTest (wordOf u1 u0) w = st := h
  rw [exec_dial, State.dial, htest]
  cases st
  case accepted => exact absurd rfl hst
  all_goals rfl

/-! ### The opened context -/

theorem joinSeek_ctxs (s : State) (i : Ref) (u : UnitNum) : (s.joinSeek i u).ctxs = s.ctxs := by
  unfold State.joinSeek
  split
  · rfl
  · rw [handOut_ctxs]

theorem handOut_stc (s : State) : s.handOut.stc = s.stc := by
  rcases handOut_eq s with h | ⟨f, d, h⟩ <;> simp [h]

theorem joinSeek_stc (s : State) (i : Ref) (u : UnitNum) : (s.joinSeek i u).stc = s.stc := by
  unfold State.joinSeek
  split
  · rfl
  · rw [handOut_stc]

theorem callState_stc (s : State) (i : Ref) (d : CallDetail) : (s.callState i d).stc = s.stc := by
  unfold State.callState
  split <;> simp

theorem startRinging_stc (s : State) (i : Ref) (ms : List Byte) : (s.startRinging i ms).stc = s.stc := by
  unfold State.startRinging
  split
  · dsimp only
    split <;> simp [callState_stc]
  · rfl

/-- The mark of the queued SEEK leaves a record's unit and contexts (R93). -/
theorem exists_queueFirstPending {l : List Seek} {r : Seek} (h : r ∈ l) :
    ∃ q ∈ queueFirstPending l, q.unit = r.unit ∧ q.refs = r.refs := by
  induction l with
  | nil => cases h
  | cons x xs ih =>
    unfold queueFirstPending
    split
    · rcases List.mem_cons.mp h with rfl | h
      · exact ⟨_, List.mem_cons_self, rfl, rfl⟩
      · exact ⟨r, List.mem_cons_of_mem _ h, rfl, rfl⟩
    · rcases List.mem_cons.mp h with rfl | h
      · exact ⟨_, List.mem_cons_self, rfl, rfl⟩
      · obtain ⟨q, hq, hqr⟩ := ih h
        exact ⟨q, List.mem_cons_of_mem _ hq, hqr⟩

/-- A context stands in the seek record of the unit it joins (R92). -/
theorem joinSeek_record (s : State) (i : Ref) (u : UnitNum) : ∃ r ∈ (s.joinSeek i u).udir.seeks, r.unit = u ∧ i ∈ r.refs := by
  unfold State.joinSeek
  split
  next hopen =>
    obtain ⟨r, hr, hu⟩ := List.any_eq_true.mp hopen
    have hunit : r.unit = u := of_decide_eq_true hu
    refine ⟨{ r with refs := r.refs ++ [i] }, List.mem_map.mpr ⟨r, hr, if_pos hunit⟩, hunit, ?_⟩
    exact List.mem_append_right _ (List.mem_singleton.mpr rfl)
  next =>
    set t : State := { s with udir := { s.udir with seeks := s.udir.seeks ++ [⟨u, .pending, [i]⟩] } } with ht
    have hnew : (⟨u, .pending, [i]⟩ : Seek) ∈ t.udir.seeks := List.mem_append_right _ (List.mem_singleton.mpr rfl)
    rcases handOut_cases t with h | ⟨f, -, h⟩ | ⟨f, -, h⟩ <;> rw [h]
    · exact ⟨_, hnew, rfl, List.mem_singleton.mpr rfl⟩
    · exact ⟨_, hnew, rfl, List.mem_singleton.mpr rfl⟩
    · obtain ⟨q, hq, hu, hr⟩ := exists_queueFirstPending hnew
      exact ⟨q, hq, hu, hr ▸ List.mem_singleton.mpr rfl⟩

/-- The context that an accepted DIAL opens, before its lookup (R104). -/
def State.dialled (s : State) (u : UnitNum) (w : Byte) : Ctx :=
  { side := .origin, cid := ⟨s.own, s.nextSeq⟩, state := .seeking, peerUnit := u
    wanted := min w.toNat s.sport.config.capability.toNat }

/-- The state in which the lookup of an accepted DIAL is done: the number issued, the context open (R82, R104). -/
def State.dialBase (s : State) (i : Ref) (u : UnitNum) (w : Byte) : State :=
  { s with stc := { s.stc with sequence := s.nextSeq } }.setCtx i (some (s.dialled u w))

theorem ctx_dialBase (s : State) (i : Ref) (u : UnitNum) (w : Byte) : (s.dialBase i u w).ctx i = some (s.dialled u w) := by
  simp [State.dialBase]

theorem dialOpen_eq (s : State) (i : Ref) (u : UnitNum) (w : Byte) :
    s.dialOpen i u w =
      match (s.dialBase i u w).lookup u with
      | some ms => (s.dialBase i u w).startRinging i ms
      | none => ((s.dialBase i u w).joinSeek i u).callState i (.seeking u) := rfl

theorem dialOpen_hit {s : State} {u : UnitNum} {ms : List Byte} (h : s.lookup u = some ms) (i : Ref) (w : Byte) :
    s.dialOpen i u w = (s.dialBase i u w).startRinging i ms := by
  have hbase : (s.dialBase i u w).lookup u = some ms := h
  simp only [dialOpen_eq, hbase]

theorem dialOpen_miss {s : State} {u : UnitNum} (h : s.lookup u = none) (i : Ref) (w : Byte) :
    s.dialOpen i u w = ((s.dialBase i u w).joinSeek i u).post (.callState i ⟨s.own, s.nextSeq⟩ (.seeking u)) := by
  have hbase : (s.dialBase i u w).lookup u = none := h
  have hctx : ((s.dialBase i u w).joinSeek i u).ctx i = some (s.dialled u w) := by
    rw [State.ctx_congr (joinSeek_ctxs _ i u), ctx_dialBase]
  simp only [dialOpen_eq, hbase, State.callState, hctx]
  rfl

/-! ### An accepted DIAL -/

section Accepted

variable {s : State} {i : Ref} {u : UnitNum} {w : Byte}

theorem dialBase_calm : Calm s (s.dialBase i u w) := ((Calm.refl s).withSequence s.nextSeq).setCtx i _

theorem dialOpen_sequence : (s.dialOpen i u w).stc.sequence = s.nextSeq := by
  cases h : s.lookup u with
  | some ms => rw [dialOpen_hit h, startRinging_stc]; rfl
  | none => rw [dialOpen_miss h, State.post_stc, joinSeek_stc]; rfl

theorem dialOpen_others : OtherContextsKept i s (s.dialOpen i u w) := by
  intro j hj
  have hbase : (s.dialBase i u w).ctx j = s.ctx j := (State.ctx_setCtx _ i j _).trans (if_neg hj)
  cases h : s.lookup u with
  | some ms => rw [dialOpen_hit h, (spares_startRinging hj ms).ctx, hbase]
  | none => rw [dialOpen_miss h, ctx_post, State.ctx_congr (joinSeek_ctxs _ i u), hbase]

/-- A hit rings the members found, where RIF has room for the RING (R104). -/
theorem dialOpen_rings {ms : List Byte} (h : s.lookup u = some ms) (ha : s.accepts (s.ringFrame (s.dialled u w) 0 ms) = true) :
    (s.dialOpen i u w).ctx i = some { s.dialled u w with state := .ringing, members := ms }
      ∧ (s.dialOpen i u w).rif.queue = s.rif.queue ++ [Entry.fresh (s.ringFrame (s.dialled u w) 0 ms)]
      ∧ Posted (.callState i (s.dialled u w).cid (.ringing 0 ms.length false)) (s.dialOpen i u w) := by
  have hacc : (s.dialBase i u w).accepts ((s.dialBase i u w).ringFrame (s.dialled u w) 0 ms) = true := ha
  rw [dialOpen_hit h, startRinging_accepted (ctx_dialBase s i u w) hacc]
  refine ⟨?_, ?_, (posted_post _ _).of_sport (State.queueFrame_sport ..)⟩
  · rw [ctx_queueFrame, ctx_post, State.ctx_setCtx, if_pos rfl]
  · rw [queueFrame_accepted (by rw [accepts_congr (s := s.dialBase i u w) (by simp) (by simp)]; exact hacc)]
    simp only [State.post_rif]
    rfl

/-- A miss seeks the unit (R104). -/
theorem dialOpen_seeks (h : s.lookup u = none) :
    (s.dialOpen i u w).ctx i = some (s.dialled u w) ∧ (∃ r ∈ (s.dialOpen i u w).udir.seeks, r.unit = u ∧ i ∈ r.refs)
      ∧ Posted (.callState i (s.dialled u w).cid (.seeking u)) (s.dialOpen i u w) := by
  rw [dialOpen_miss h]
  refine ⟨?_, ?_, posted_post _ _⟩
  · rw [ctx_post, State.ctx_congr (joinSeek_ctxs _ i u), ctx_dialBase]
  · rw [State.post_udir]
    exact joinSeek_record _ i u

end Accepted

/-- The number issued depends on the copy, the contexts, the address and the counter alone (R82). -/
theorem searchSeq_congr {s t : State} (hown : t.own = s.own) (h : ∀ c, t.callPresent c = s.callPresent c) (n : Nat) :
    ∀ q, t.searchSeq n q = s.searchSeq n q := by
  induction n with
  | zero => intro q; rfl
  | succ n ih => intro q; rw [State.searchSeq, State.searchSeq, hown, h, ih]

theorem nextSeq_openTransaction (s : State) : s.openTransaction.nextSeq = s.nextSeq :=
  searchSeq_congr (s := s) (t := s.openTransaction) rfl (fun _ => rfl) 255 _

theorem nextSeq_newEvent (s : State) : s.newEvent.nextSeq = s.nextSeq :=
  searchSeq_congr (s := s) (t := s.newEvent) rfl (fun _ => rfl) 255 _

theorem exec_dial_accepted {s : State} {u1 u0 w : Byte} {i : Ref} (h : s.dialTest (wordOf u1 u0) w = .accepted)
    (hi : s.freeRef = some i) :
    exec (.dial [u1, u0, w]) s = .next ((s.openTransaction.newEvent.dialOpen i (wordOf u1 u0) w).respond .accepted
      [byte i.val, s.own, s.nextSeq] .nothing) := by
  have htest : s.openTransaction.dialTest (wordOf u1 u0) w = .accepted := h
  have hfree : s.openTransaction.freeRef = some i := hi
  have hseq := nextSeq_openTransaction s
  simp only [exec_dial, State.dial, htest, hfree, hseq]
  rfl

/-- Settles O47: the rows of the test, and the context that an accepted DIAL opens. -/
theorem dialRows : Obligations.DialRows := by
  unfold Obligations.DialRows
  refine ⟨fun s u1 u0 w hst => ?_, fun s u1 u0 w i htest hfree => ?_⟩
  · have hrows := dialTest_joined hst (wordOf u1 u0) w
    dsimp only
    refine ⟨fun hw => ?_, fun hw hb => ?_, fun hw hb ho => ?_, fun hw hb ho hc => ?_, fun hw hb ho hc hl => ?_⟩
    · exact exec_dial_refused (hrows.trans (if_pos hw)) (by simp)
    · rw [if_neg hw, if_pos hb] at hrows
      exact exec_dial_refused hrows (by simp)
    · rw [if_neg hw, if_neg hb, if_pos ho] at hrows
      exact exec_dial_refused hrows (by simp)
    · rw [if_neg hw, if_neg hb, if_neg ho, if_pos hc] at hrows
      exact exec_dial_refused hrows (by simp)
    · rw [if_neg hw, if_neg hb, if_neg ho, if_neg hc, if_pos hl] at hrows
      exact exec_dial_refused hrows (by simp)
  · set base := s.openTransaction.newEvent with hbase
    have hseq : base.nextSeq = s.nextSeq := (nextSeq_newEvent _).trans (nextSeq_openTransaction s)
    have hdialled : base.dialled (wordOf u1 u0) w = s.dialled (wordOf u1 u0) w := by
      unfold State.dialled
      rw [hseq]
      rfl
    have hcalm : Calm base (base.dialOpen i (wordOf u1 u0) w) := (Calm.refl base).dialOpen i _ w
    have hothers : OtherContextsKept i base (base.dialOpen i (wordOf u1 u0) w) := dialOpen_others
    refine ⟨_, exec_dial_accepted htest hfree, dialOpen_sequence.trans hseq, hothers, hcalm.smu, rfl, hcalm.sameFixtures,
      hcalm.sameStation, fun ms hhit hacc => ?_, fun hmiss => ?_⟩
    · obtain ⟨hctx, hqueue, hposted⟩ := dialOpen_rings (s := base) (i := i) (u := wordOf u1 u0) (w := w) (ms := ms) hhit
        (by rw [hdialled]; exact hacc)
      rw [hdialled] at hctx hqueue hposted
      exact ⟨hctx, hqueue, hposted⟩
    · obtain ⟨hctx, hseek, hposted⟩ := dialOpen_seeks (s := base) (i := i) (u := wordOf u1 u0) (w := w) hmiss
      rw [hdialled] at hctx hposted
      exact ⟨hctx, hseek, hposted⟩

end Sys2Proof.Machine
end

section
/-! PROOFS. The ANSWER at the originating side: the seek it leaves, the choice it makes, and the reversal it asks (R92, R96, R109, R113,
R114). -/

namespace Sys2Proof.Machine

/-! ### Leaving a seek (R96) -/

/-- A context that no record lists has no seek to leave. -/
theorem leaveSeek_idle {s : State} {i : Ref} (h : ∀ q ∈ s.udir.seeks, i ∉ q.refs) : s.leaveSeek i = s := by
  have hnone : (s.udir.seeks.find? fun r => r.refs.contains i) = none := by
    refine List.find?_eq_none.mpr fun q hq hc => h q hq ?_
    simpa using hc
  simp only [State.leaveSeek, hnone]

/-- The seeks after a context has left its record: the record without it, or gone where no context is left (R96). -/
structure SeekLeft (i : Ref) (s t : State) : Prop where
  udir : t.udir = { s.udir with seeks := t.udir.seeks }
  left : ∀ q ∈ t.udir.seeks, i ∉ q.refs
  others : ∀ r ∈ s.udir.seeks, i ∉ r.refs → r ∈ t.udir.seeks
  shared : ∀ r ∈ s.udir.seeks, i ∈ r.refs → (r.refs.filter fun j => j ≠ i) ≠ [] →
    { r with refs := r.refs.filter fun j => j ≠ i } ∈ t.udir.seeks
  removed : ∀ r ∈ s.udir.seeks, i ∈ r.refs → (r.refs.filter fun j => j ≠ i) = [] → ∀ q ∈ t.udir.seeks, q.unit ≠ r.unit
  recalled : ∀ r ∈ s.udir.seeks, i ∈ r.refs → (r.refs.filter fun j => j ≠ i) = [] → r.state = .queued →
    s.queued ⟨.seek, .unit r.unit⟩ = true → t.recallOpen ⟨.seek, .unit r.unit⟩

theorem SeekLeft.of_eq {i : Ref} {s t u : State} (h : SeekLeft i s t) (hu : u.udir = t.udir)
    (hr : ∀ id, t.recallOpen id → u.recallOpen id) : SeekLeft i s u where
  udir := by rw [hu]; exact h.udir
  left := by rw [hu]; exact h.left
  others := by rw [hu]; exact h.others
  shared := by rw [hu]; exact h.shared
  removed := by rw [hu]; exact h.removed
  recalled r hmem hi hrest hq hqueued := hr _ (h.recalled r hmem hi hrest hq hqueued)

section LeaveSeek

variable {s : State} {i : Ref} (hone : ∀ q r, q ∈ s.udir.seeks → r ∈ s.udir.seeks → i ∈ q.refs → i ∈ r.refs → q = r)
  (hunits : (s.udir.seeks.map Seek.unit).Nodup)
include hone hunits

/-- The last context of a record leaves it: the record is removed, its queued SEEK recalled. -/
theorem seekLeft_removed {r : Seek} (hr : r ∈ s.udir.seeks) (hi : i ∈ r.refs) (hrest : (r.refs.filter fun j => j ≠ i) = []) {t : State}
    (ht : t.udir = { s.udir with seeks := s.udir.seeks.filter fun x => x.unit ≠ r.unit })
    (hrecall : r.state = .queued → s.queued ⟨.seek, .unit r.unit⟩ = true → t.recallOpen ⟨.seek, .unit r.unit⟩) : SeekLeft i s t := by
  have hmem : ∀ q, q ∈ t.udir.seeks ↔ q ∈ s.udir.seeks ∧ q.unit ≠ r.unit := fun q => by rw [ht]; simp
  have honly : ∀ q ∈ s.udir.seeks, i ∈ q.refs → q = r := fun q hq hqi => hone q r hq hr hqi hi
  refine ⟨by rw [ht], fun q hq hqi => ?_, fun q hq hqi => ?_, fun q hq hqi hne => ?_, fun q hq hqi _ p hp => ?_,
    fun q hq hqi _ hst hqueued => ?_⟩
  · obtain ⟨hq, hu⟩ := (hmem q).mp hq
    exact hu (congrArg Seek.unit (honly q hq hqi))
  · refine (hmem q).mpr ⟨hq, fun hu => hqi ?_⟩
    rwa [List.inj_on_of_nodup_map hunits hq hr hu]
  · rw [honly q hq hqi] at hne
    exact absurd hrest hne
  · rw [honly q hq hqi]
    exact ((hmem p).mp hp).2
  · rw [honly q hq hqi] at hst hqueued ⊢
    exact hrecall hst hqueued

/-- Another context stays in the record. -/
theorem seekLeft_shared {r : Seek} (hr : r ∈ s.udir.seeks) (hi : i ∈ r.refs) (hrest : (r.refs.filter fun j => j ≠ i) ≠ []) {t : State}
    (ht : t.udir = { s.udir with seeks := s.udir.seeks.map fun x =>
      if x.unit = r.unit then { x with refs := r.refs.filter fun j => j ≠ i } else x }) : SeekLeft i s t := by
  have honly : ∀ q ∈ s.udir.seeks, i ∈ q.refs → q = r := fun q hq hqi => hone q r hq hr hqi hi
  have hunit : ∀ q ∈ s.udir.seeks, q.unit = r.unit → q = r := fun q hq hu => List.inj_on_of_nodup_map hunits hq hr hu
  have hmem : ∀ q, q ∈ t.udir.seeks ↔ ∃ x ∈ s.udir.seeks,
      (if x.unit = r.unit then { x with refs := r.refs.filter fun j => j ≠ i } else x) = q := fun q => by rw [ht]; exact List.mem_map
  refine ⟨by rw [ht], fun q hq hqi => ?_, fun q hq hqi => ?_, fun q hq hqi _ => ?_, fun q hq hqi hnil => ?_,
    fun q hq hqi hnil => ?_⟩
  · obtain ⟨x, hx, rfl⟩ := (hmem q).mp hq
    split at hqi
    · exact absurd rfl (of_decide_eq_true (List.mem_filter.mp hqi).2)
    next hu => exact hu (congrArg Seek.unit (honly x hx hqi))
  · refine (hmem q).mpr ⟨q, hq, if_neg fun hu => hqi ?_⟩
    rwa [hunit q hq hu]
  · rw [honly q hq hqi]
    exact (hmem _).mpr ⟨r, hr, if_pos rfl⟩
  · rw [honly q hq hqi] at hnil
    exact absurd hnil hrest
  · rw [honly q hq hqi] at hnil
    exact absurd hnil hrest

/-- A context that is in one record at most leaves it. -/
theorem seekLeft_leaveSeek : SeekLeft i s (s.leaveSeek i) := by
  cases hfind : s.udir.seeks.find? fun r => r.refs.contains i with
  | none =>
    have hno : ∀ q ∈ s.udir.seeks, i ∉ q.refs := fun q hq hqi => by simpa [hqi] using List.find?_eq_none.mp hfind q hq
    rw [leaveSeek_idle hno]
    exact ⟨rfl, hno, fun r hr _ => hr, fun r hr hi => absurd hi (hno r hr), fun r hr hi => absurd hi (hno r hr),
      fun r hr hi => absurd hi (hno r hr)⟩
  | some r =>
    have hr : r ∈ s.udir.seeks := List.mem_of_find?_eq_some hfind
    have hi : i ∈ r.refs := by simpa using List.find?_some hfind
    simp only [State.leaveSeek, hfind, List.isEmpty_iff]
    split
    next hrest =>
      refine seekLeft_removed hone hunits hr hi hrest ?_ fun hst hq => ?_
      · split <;> simp
      · rw [if_pos hst]
        exact recallOpen_askRecall hq
    next hrest => exact seekLeft_shared hone hunits hr hi hrest rfl

end LeaveSeek

/-! ### The next choice of a call that the copy does not know (R114) -/

theorem postEnd_udir (s : State) (i : Ref) : (s.postEnd i).udir = s.udir := by
  obtain h | ⟨n, c, h⟩ := postEnd_cases s i <;> simp [h]

theorem freeCtx_udir (s : State) (i : Ref) : (s.freeCtx i).udir = s.udir := by simp [State.freeCtx, postEnd_udir]

theorem queueRelease_udir (s : State) (i : Ref) : (s.queueRelease i).udir = s.udir := by
  unfold State.queueRelease
  split
  · dsimp only
    split <;> simp [State.setAwaits, freeCtx_udir]
  · rfl

theorem sendRelease_udir (s : State) (i : Ref) : (s.sendRelease i).udir = s.udir := by
  unfold State.sendRelease
  repeat' split
  · exact queueRelease_udir s i
  · simp [State.setAwaits]
  · exact freeCtx_udir s i
  · rfl

/-- A clearing context that no seek lists leaves UDIR as it is. -/
theorem clearOrigin_udir {a : State} {i : Ref} {y : Ctx} (hy : a.ctx i = some y) (hbare : y.state ≠ .settling ∧ y.state ≠ .talk)
    (hno : ∀ q ∈ a.udir.seeks, i ∉ q.refs) (k : Cause) : (a.clearOrigin i k true).udir = a.udir := by
  have hidle : ∀ g : Ctx → Ctx, (((a.modifyCtx i g).dropDuties i).postEnd i).udir = a.udir := fun g => by
    rw [postEnd_udir, dropDuties_udir, leaveSeek_idle (by simpa using hno), State.modifyCtx_udir]
  rw [clearOrigin_bare hy hbare, sendRelease_udir, State.clearedAt, State.recallCall, State.askRecall_udir, State.askRecall_udir,
    State.askRecall_udir, State.enterClearing, if_pos rfl, hidle]

/-- What the next choice of a CLAIMING context leaves where the copy knows nothing of its call: its CLAIM or WAIT queued, or the call
cleared where RIF has no room for the WAIT (R114 to R116). -/
inductive ChoseAbsent (a : State) (i : Ref) (y : Ctx) (t : State) : Prop
  | queues (z : Ctx) (hs : z.side = y.side) (hc : z.cid = y.cid) (hst : z.state = y.state) (f : Frame)
      (ht : t = (a.setCtx i (some z)).queueFrame f)
  | clears (z : Ctx) (hs : z.side = y.side) (hc : z.cid = y.cid) (hst : z.state = y.state)
      (ht : t = (a.setCtx i (some z)).clearOrigin i .sendFailed true)

theorem queueWait_choseAbsent {a : State} {i : Ref} {y z : Ctx} (hs : z.side = y.side) (hc : z.cid = y.cid) (hst : z.state = y.state) :
    ChoseAbsent a i y ((a.setCtx i (some z)).queueWait i) := by
  have hz : (a.setCtx i (some z)).ctx i = some z := by simp
  unfold State.queueWait
  rw [hz]
  dsimp only
  split
  · exact .queues z hs hc hst _ rfl
  · exact .clears z hs hc hst rfl

theorem chooseFrame_absent (n : Nat) : ∀ {a : State} {i : Ref} {y z : Ctx}, a.smu.has y.cid = false → z.side = y.side → z.cid = y.cid →
    z.state = y.state → ChoseAbsent a i y (State.chooseFrame n (a.setCtx i (some z)) i) := by
  induction n with
  | zero => intro a i y z _ hs hc hst; exact queueWait_choseAbsent hs hc hst
  | succ n ih =>
    intro a i y z hh hs hc hst
    have hz : (a.setCtx i (some z)).ctx i = some z := by simp
    obtain ⟨hholds, hwaits⟩ := Smu.has_eq_false_iff.mp (hc ▸ hh)
    have hhold : (a.setCtx i (some z)).smu.holdOf z.cid = none := by simpa [Smu.holdOf] using hholds
    have hpos : (a.setCtx i (some z)).smu.position z.cid = none := position_none_iff.mpr hwaits
    unfold State.chooseFrame
    simp only [hz, hhold, hpos]
    split
    · split
      · exact .queues z hs hc hst _ rfl
      · rw [setCtx_setCtx]
        split
        · exact ih hh hs hc hst
        · exact queueWait_choseAbsent hs hc hst
    · exact queueWait_choseAbsent hs hc hst

theorem ChoseAbsent.side {a : State} {i : Ref} {y : Ctx} {t : State} (h : ChoseAbsent a i y t)
    (hst : y.state = .claiming) : ∀ w, t.ctx i = some w → w.side = y.side ∧ w.cid = y.cid := by
  intro w hw
  cases h with
  | queues z hs hc _ f ht =>
    rw [ht, ctx_queueFrame, State.ctx_setCtx, if_pos rfl] at hw
    cases hw
    exact ⟨hs, hc⟩
  | clears z hs hc hz ht =>
    have hctx : (a.setCtx i (some z)).ctx i = some z := by simp
    have hbare : z.state ≠ .settling ∧ z.state ≠ .talk := by rw [hz, hst]; simp
    rw [ht, clearOrigin_bare hctx hbare] at hw
    rcases ctx_sendRelease ((a.setCtx i (some z)).clearedAt i z .sendFailed) i with h | ⟨v, h⟩
    · rw [h] at hw
      cases hw
    · rw [h, ctx_clearedAt hctx] at hw
      cases hw
      exact ⟨hs, hc⟩

theorem ChoseAbsent.udir {a : State} {i : Ref} {y : Ctx} {t : State} (h : ChoseAbsent a i y t) (hst : y.state = .claiming)
    (hno : ∀ q ∈ a.udir.seeks, i ∉ q.refs) : t.udir = a.udir := by
  cases h with
  | queues z _ _ _ f ht => rw [ht, State.queueFrame_udir, State.setCtx_udir]
  | clears z _ _ hz ht =>
    have hctx : (a.setCtx i (some z)).ctx i = some z := by simp
    have hbare : z.state ≠ .settling ∧ z.state ≠ .talk := by rw [hz, hst]; simp
    rw [ht, clearOrigin_udir hctx hbare (by simpa using hno), State.setCtx_udir]

end Sys2Proof.Machine
end

section
/-! PROOFS. The first ANSWER of a member, taken by the originator (R109, R112, R113). -/

namespace Sys2Proof.Machine

/-! ### Which context an ANSWER finds -/

/-- An ANSWER of another station acts at the originating context alone where no ANSWER-side one carries its call (R109, R136). -/
theorem answerTaken_at_origin {s : State} {x : Byte} {c : CallId} {cap : Byte} {i : Ref} {y : Ctx} (hi : s.findCtx .origin c = some i)
    (hn : s.findCtx .answer c = none) (hy : s.ctx i = some y)
    (hothers : OtherContextsKept i s (s.answerAtOrigin i x cap))
    (hself : ∀ z, (s.answerAtOrigin i x cap).ctx i = some z → z.side = y.side) :
    s.answerTaken x c cap = s.answerAtOrigin i x cap := by
  have hside : y.side = .origin := by
    obtain ⟨z, hz, hs, -⟩ := findCtx_some hi
    rw [hy] at hz
    cases hz
    exact hs
  have hnone : (s.answerAtOrigin i x cap).findCtx .answer c = none := by
    refine List.find?_eq_none.mpr fun j _ => ?_
    cases hz : (s.answerAtOrigin i x cap).ctx j with
    | none => simp
    | some z =>
      by_cases hj : j = i
      · subst hj
        simp [hself z hz, hside]
      · have := findCtx_none hn j z (by rw [← hothers j hj, hz])
        simpa using this
  rw [State.answerTaken, atCall_found hi, State.atCall, hnone]

section AnswerAtOrigin

variable {s : State} {x cap : Byte} {i : Ref} {y : Ctx} (hy : s.ctx i = some y)

/-- The context as it takes an ANSWER in RINGING (R109). -/
def Ctx.claims (y : Ctx) (x : Byte) (wanted : Nat) : Ctx :=
  { y with state := .claiming, answerer := some x, wanted := wanted, ring := none
           forward := if y.forward = .seeking then .none else y.forward }

/-- An answer accepted in RINGING, before the call's next frame is chosen (R109, R112, R126). -/
def State.answered (s : State) (i : Ref) (y : Ctx) (x : Byte) (wanted : Nat) : State :=
  let t := (s.setCtx i (some (y.claims x wanted))).leaveSeek i
  (if y.forward = .queued then t.askRecall ⟨.ring, .call y.cid⟩ else t).post (.callState i y.cid (.claiming x wanted))

theorem ctx_answered (s : State) (i : Ref) (y : Ctx) (x : Byte) (wanted : Nat) :
    (s.answered i y x wanted).ctx i = some (y.claims x wanted) := by
  have hleft : ((s.setCtx i (some (y.claims x wanted))).leaveSeek i).ctx i = some (y.claims x wanted) := by
    rw [State.ctx_congr (leaveSeek_ctxs _ i)]
    simp
  unfold State.answered
  dsimp only
  split <;> simpa using hleft

theorem calm_answered (s : State) (i : Ref) (y : Ctx) (x : Byte) (wanted : Nat) : Calm s (s.answered i y x wanted) := by
  have h := ((Calm.refl s).setCtx i (some (y.claims x wanted))).leaveSeek i
  unfold State.answered
  dsimp only
  split
  · exact (h.askRecall _).post _
  · exact h.post _

theorem spares_answered {ks : FrameKind → Prop} {j i : Ref} (hj : j ≠ i) (s : State) (y : Ctx) (x : Byte) (wanted : Nat) :
    Spares ks j s (s.answered i y x wanted) := by
  have h := ((Spares.refl (ks := ks) j s).setCtx hj (some (y.claims x wanted))).leaveSeek i
  unfold State.answered
  dsimp only
  split
  · exact (h.askRecall _).post _
  · exact h.post _

theorem answered_queue (s : State) (i : Ref) (y : Ctx) (x : Byte) (wanted : Nat) :
    (s.answered i y x wanted).rif.queue = s.rif.queue := by
  unfold State.answered
  dsimp only
  split <;> simp

theorem answered_udir (s : State) (i : Ref) (y : Ctx) (x : Byte) (wanted : Nat) :
    (s.answered i y x wanted).udir = ((s.setCtx i (some (y.claims x wanted))).leaveSeek i).udir := by
  unfold State.answered
  dsimp only
  split <;> simp

/-- A queued forward RING is put under recall (R112). -/
theorem answered_recalls_ring {s : State} {i : Ref} {y : Ctx} {x : Byte} {wanted : Nat} (hf : y.forward = .queued)
    (hq : s.queued ⟨.ring, .call y.cid⟩ = true) : (s.answered i y x wanted).recallOpen ⟨.ring, .call y.cid⟩ := by
  have hq' : ((s.setCtx i (some (y.claims x wanted))).leaveSeek i).queued ⟨.ring, .call y.cid⟩ = true := by
    unfold State.queued
    rw [leaveSeek_queue]
    exact hq
  unfold State.answered
  dsimp only
  rw [if_pos hf]
  exact (recallOpen_askRecall hq').of_rif (State.post_rif ..)

/-- The seek left, with the recall of its SEEK, stands under what follows. -/
theorem answered_seekLeft {s : State} {i : Ref} {y : Ctx} {x : Byte} {wanted : Nat}
    (h : SeekLeft i (s.setCtx i (some (y.claims x wanted))) ((s.setCtx i (some (y.claims x wanted))).leaveSeek i)) :
    SeekLeft i s (s.answered i y x wanted) := by
  have hleft : SeekLeft i s ((s.setCtx i (some (y.claims x wanted))).leaveSeek i) :=
    ⟨h.udir, h.left, h.others, h.shared, h.removed, h.recalled⟩
  refine hleft.of_eq (answered_udir s i y x wanted) fun id hid => ?_
  unfold State.answered
  dsimp only
  refine State.recallOpen.of_rif ?_ (State.post_rif ..)
  split
  · exact (Adds.askRecall (ks := fun _ => True) _ _).recallOpen hid
  · exact hid

/-- The notice of the CLAIMING context joins the notices where they have room (R126, R180). -/
theorem answered_notice {s : State} {i : Ref} {y : Ctx} {x : Byte} {wanted : Nat} (hroom : s.sport.notices.length < 16) :
    .callState i y.cid (.claiming x wanted) ∈ (s.answered i y x wanted).sport.notices := by
  unfold State.answered
  dsimp only
  have hnotices : (if y.forward = .queued then
      ((s.setCtx i (some (y.claims x wanted))).leaveSeek i).askRecall ⟨.ring, .call y.cid⟩
      else (s.setCtx i (some (y.claims x wanted))).leaveSeek i).sport.notices = s.sport.notices := by
    split <;> simp
  rw [State.post, if_pos (by rw [hnotices]; exact hroom)]
  exact List.mem_append_right _ (List.mem_singleton.mpr rfl)

include hy

theorem answerAtOrigin_ignored
    (h : x ∉ y.members ∨ y.answerer ≠ none
      ∨ (y.state ≠ .ringing ∧ ¬ (y.state = .clearing ∧ y.reversible = true ∧ y.cause = some .noAnswer))) :
    s.answerAtOrigin i x cap = s := by
  unfold State.answerAtOrigin
  rw [hy]
  dsimp only
  split
  · rfl
  next hopen =>
    simp only [Bool.or_eq_true, Bool.not_eq_true', List.contains_eq_mem, decide_eq_false_iff_not, not_or, not_not,
      Option.isSome_iff_ne_none] at hopen
    obtain ⟨hmem, hans⟩ := hopen
    rcases h with h | h | ⟨hring, hrev⟩
    · exact absurd hmem h
    · exact absurd hans h
    · rw [if_neg hring, if_neg hrev]

theorem answerAtOrigin_ringing (hx : x ∈ y.members) (ha : y.answerer = none) (hst : y.state = .ringing) :
    s.answerAtOrigin i x cap = (s.answered i y x (min y.wanted (normWidth cap))).choose i := by
  have hopen : (!y.members.contains x || y.answerer.isSome) = false := by simp [hx, ha]
  have hclaims : ∀ u : State, u.ctxs = ((s.setCtx i (some (y.claims x (min y.wanted (normWidth cap))))).leaveSeek i).ctxs →
      u.callState i (.claiming x (min y.wanted (normWidth cap))) = u.post (.callState i y.cid (.claiming x (min y.wanted (normWidth cap)))) := by
    intro u hu
    have hctx : u.ctx i = some (y.claims x (min y.wanted (normWidth cap))) := by
      rw [State.ctx_congr hu, State.ctx_congr (leaveSeek_ctxs _ i)]
      simp
    rw [State.callState, hctx]
    rfl
  unfold State.answerAtOrigin
  rw [hy]
  simp only [hopen, Bool.false_eq_true, if_false, if_pos hst]
  unfold State.answered
  dsimp only
  split
  · rw [← hclaims _ (by simp)]
    rfl
  · rw [← hclaims _ rfl]
    rfl

theorem answerAtOrigin_reversing (hx : x ∈ y.members) (ha : y.answerer = none)
    (hrev : y.state = .clearing ∧ y.reversible = true ∧ y.cause = some .noAnswer) :
    s.answerAtOrigin i x cap
      = (s.setCtx i (some { y with answerer := some x, wanted := min y.wanted (normWidth cap) })).askReversal i := by
  have hopen : (!y.members.contains x || y.answerer.isSome) = false := by simp [hx, ha]
  have hring : ¬ y.state = .ringing := by simp [hrev.1]
  simp only [State.answerAtOrigin, hy, hopen, Bool.false_eq_true, if_false, if_neg hring, if_pos hrev]

end AnswerAtOrigin

end Sys2Proof.Machine
end

section
/-! PROOFS. The ANSWER by its rows (R109, R113). -/

namespace Sys2Proof.Machine

theorem setCtx_of_ctx {s : State} {i : Ref} {y : Ctx} (h : s.ctx i = some y) : s.setCtx i (some y) = s := by
  have hset : s.ctxs.set i (some y) = s.ctxs := by
    rw [← h]
    exact Vector.set_getElem_self _
  rw [State.setCtx, hset]

theorem recallOpen_leaveCheck {s : State} {id : FrameId} (h : s.recallOpen id) : s.leaveCheck.recallOpen id := by
  rw [State.recallOpen, leaveCheck_recalls]
  exact h

section Accepted

variable {s : State} {x : Byte} {i : Ref} {y : Ctx} {w : Nat} (hh : s.smu.has y.cid = false)
include hh

theorem choose_answered : ChoseAbsent (s.answered i y x w) i (y.claims x w) ((s.answered i y x w).choose i) := by
  have hsmu : (s.answered i y x w).smu.has (y.claims x w).cid = false := by
    rw [(calm_answered s i y x w).smu]
    exact hh
  have h := chooseFrame_absent Config.claimAttempts (a := s.answered i y x w) (i := i) (y := y.claims x w) (z := y.claims x w) hsmu rfl
    rfl rfl
  rw [setCtx_of_ctx (ctx_answered s i y x w)] at h
  exact h

/-- The CLAIM for the placement is queued where RIF has room for it (R114). -/
theorem choose_answered_claims {b : Block} (hb : placement s.smu.holds w = some b)
    (ha : s.accepts (.claim y.cid (byte b.1) (byte b.2)) = true) :
    (s.answered i y x w).choose i = (s.answered i y x w).queueFrame (.claim y.cid (byte b.1) (byte b.2))
      ∧ ((s.answered i y x w).queueFrame (.claim y.cid (byte b.1) (byte b.2))).rif.queue
        = s.rif.queue ++ [Entry.fresh (.claim y.cid (byte b.1) (byte b.2))] := by
  have hcalm := calm_answered s i y x w
  have hacc : (s.answered i y x w).accepts (.claim y.cid (byte b.1) (byte b.2)) = true := by
    rw [accepts_congr (answered_queue s i y x w) hcalm.state]
    exact ha
  refine ⟨choose_placed (y := y.claims x w) (ctx_answered s i y x w) (by rw [hcalm.smu]; exact hh) (by rw [hcalm.smu]; exact hb) hacc, ?_⟩
  rw [queueFrame_accepted hacc, answered_queue]
  rfl

/-- The WAIT is queued where no channel is free and RIF has room for it (R114). -/
theorem choose_answered_waits (hb : placement s.smu.holds w = none) (ha : s.accepts (.wait y.cid (byte w)) = true) :
    (s.answered i y x w).choose i = (s.answered i y x w).queueFrame (.wait y.cid (byte w))
      ∧ ((s.answered i y x w).queueFrame (.wait y.cid (byte w))).rif.queue = s.rif.queue ++ [Entry.fresh (.wait y.cid (byte w))] := by
  have hcalm := calm_answered s i y x w
  have hacc : (s.answered i y x w).accepts (.wait y.cid (byte w)) = true := by
    rw [accepts_congr (answered_queue s i y x w) hcalm.state]
    exact ha
  have hctx := ctx_answered s i y x w
  refine ⟨?_, ?_⟩
  · rw [choose_unplaced (y := y.claims x w) hctx (by rw [hcalm.smu]; exact hh) (by rw [hcalm.smu]; exact hb)]
    exact queueWait_accepted (y := y.claims x w) hctx hacc
  · rw [queueFrame_accepted hacc, answered_queue]
    rfl

end Accepted

theorem findCtx_origin_fields {s : State} {c : CallId} {i : Ref} {y : Ctx} (hi : s.findCtx .origin c = some i) (hy : s.ctx i = some y) :
    y.side = .origin ∧ y.cid = c := by
  obtain ⟨z, hz, hs, hc⟩ := findCtx_some hi
  rw [hy] at hz
  cases hz
  exact ⟨hs, hc⟩

/-- The recall of the RELEASE is asked, or the clearing is final (R101, R113). -/
theorem answerTaken_reversing {s : State} {x : Byte} {c : CallId} {cap : Byte} {i : Ref} {y : Ctx} (hi : s.findCtx .origin c = some i)
    (hn : s.findCtx .answer c = none) (hy : s.ctx i = some y) (hx : x ∈ y.members) (ha : y.answerer = none)
    (hrev : y.state = .clearing ∧ y.reversible = true ∧ y.cause = some .noAnswer) :
    let z := { y with answerer := some x, wanted := min y.wanted (normWidth cap) }
    let allowed := s.role = .desk ∨ ∀ j, j ≠ i → s.outsideClearing j = false
    (allowed → s.answerTaken x c cap = (s.setCtx i (some z)).askRecall ⟨.release, .call c⟩)
      ∧ (¬ allowed → s.answerTaken x c cap = s.setCtx i (some { z with reversible := false })) := by
  obtain ⟨-, rfl⟩ := findCtx_origin_fields hi hy
  have hat := answerAtOrigin_reversing (cap := cap) hy hx ha hrev
  dsimp only
  refine ⟨fun hallowed => ?_, fun hbarred => ?_⟩
  · rw [askReversal_allowed hallowed] at hat
    rw [answerTaken_at_origin hi hn hy, hat]
    · exact fun j hj => by rw [hat, ctx_askRecall, State.ctx_setCtx, if_neg hj]
    · intro z hz
      rw [hat, ctx_askRecall, State.ctx_setCtx, if_pos rfl] at hz
      cases hz
      rfl
  · obtain ⟨hrole, hothers⟩ := not_or.mp hbarred
    push Not at hothers
    obtain ⟨l, hl, hout⟩ := hothers
    rw [askReversal_refused hrole hl (by simpa using hout)] at hat
    rw [answerTaken_at_origin hi hn hy, hat]
    · exact fun j hj => by rw [hat, State.ctx_setCtx, if_neg hj]
    · intro z hz
      rw [hat, State.ctx_setCtx, if_pos rfl] at hz
      cases hz
      rfl

/-- Settles O30: the ANSWER ignored, accepted in RINGING, and taken in a reversible clearing. -/
theorem answerIsAcceptedOnce : Obligations.AnswerIsAcceptedOnce := by
  unfold Obligations.AnswerIsAcceptedOnce
  intro s x c cap i y hhears hi hn hy wanted base reversing allowed
  obtain ⟨hside, hcid⟩ := findCtx_origin_fields hi hy
  have hexec : exec (.answerTaken x c cap) s = .next (base.answerTaken x c cap).leaveCheck :=
    congrArg Host.Outcome.next (taking_of_hears hhears _ _)
  have hbi : base.findCtx .origin c = some i := hi
  have hbn : base.findCtx .answer c = none := hn
  have hby : base.ctx i = some y := hy
  refine ⟨fun h => ?_, fun hx ha hst hh hone hunits => ?_, fun hx ha hrev => ⟨fun hbarred => ?_, fun hallowed => ?_⟩⟩
  · have hat : base.answerAtOrigin i x cap = base := answerAtOrigin_ignored hby h
    rw [hexec, answerTaken_at_origin hbi hbn hby (by rw [hat]; exact fun j _ => rfl) (by rw [hat, hby]; simp), hat,
      leaveCheck_of_live hby]
  · intro claims
    have hhb : base.smu.has y.cid = false := by rw [hcid]; exact hh
    have hat : base.answerAtOrigin i x cap = (base.answered i y x wanted).choose i := answerAtOrigin_ringing hby hx ha hst
    have hchose := choose_answered (x := x) (i := i) (w := wanted) hhb
    have hcalm : Calm base ((base.answered i y x wanted).choose i) := (calm_answered base i y x wanted).choose i
    have hspares : ∀ j, j ≠ i → Spares (fun _ => True) j (base.answered i y x wanted) ((base.answered i y x wanted).choose i) :=
      fun j hj => Spares.chooseFrame trivial trivial trivial _ (Spares.refl j _) hj
    have hothers : OtherContextsKept i base ((base.answered i y x wanted).choose i) := fun j hj =>
      (hspares j hj).ctx.trans (spares_answered (ks := fun _ => True) hj base y x wanted).ctx
    have hseek : SeekLeft i base (base.answered i y x wanted) := answered_seekLeft (seekLeft_leaveSeek hone hunits)
    have hadds := Adds.of_spares hspares
    have hleft : SeekLeft i base ((base.answered i y x wanted).choose i).leaveCheck :=
      hseek.of_eq ((leaveCheck_udir _).trans (hchose.udir rfl hseek.left)) fun id hid => recallOpen_leaveCheck (hadds.recallOpen hid)
    have htaken : base.answerTaken x c cap = (base.answered i y x wanted).choose i := by
      rw [answerTaken_at_origin hbi hbn hby (by rw [hat]; exact hothers) (by rw [hat]; exact fun z hz => (hchose.side rfl z hz).1), hat]
    have hlive : ∀ f, ((base.answered i y x wanted).queueFrame f).ctx i = some (y.claims x wanted) := fun f =>
      (ctx_queueFrame _ f i).trans (ctx_answered base i y x wanted)
    refine ⟨((base.answered i y x wanted).choose i).leaveCheck, by rw [hexec, htaken], fun j hj => ?_, ?_, hleft.udir, hleft.left,
      hleft.others, fun r hr hri => ⟨hleft.shared r hr hri, fun hrest => ⟨hleft.removed r hr hri hrest, hleft.recalled r hr hri hrest⟩⟩,
      fun hroom => ?_, fun hf hq => ?_, fun b hb hacc => ?_, fun hb hacc => ?_⟩
    · rw [ctx_leaveCheck]
      exact hothers j hj
    · rw [leaveCheck_smu]
      exact hcalm.smu
    · rw [leaveCheck_sport]
      have hnotice := answered_notice (s := base) (i := i) (y := y) (x := x) (wanted := wanted) hroom
      rw [hcid] at hnotice
      exact ((Calm.refl _).choose i).posted.subset hnotice
    · rw [← hcid] at hq ⊢
      exact recallOpen_leaveCheck (hadds.recallOpen (answered_recalls_ring (s := base) hf hq))
    · rw [← hcid] at hacc ⊢
      obtain ⟨ht, hqueue⟩ := choose_answered_claims (x := x) (i := i) (s := base) hhb hb hacc
      rw [ht, leaveCheck_of_live (hlive _), hqueue]
      exact ⟨hlive _, rfl⟩
    · rw [← hcid] at hacc ⊢
      obtain ⟨ht, hqueue⟩ := choose_answered_waits (x := x) (i := i) (s := base) hhb hb hacc
      rw [ht, leaveCheck_of_live (hlive _), hqueue]
      exact ⟨hlive _, rfl⟩
  · have htaken := (answerTaken_reversing (cap := cap) hbi hbn hby hx ha hrev).2 hbarred
    rw [hexec, htaken, leaveCheck_of_live ((State.ctx_setCtx _ i i _).trans (if_pos rfl))]
  · have htaken := (answerTaken_reversing (cap := cap) hbi hbn hby hx ha hrev).1 hallowed
    set z : Ctx := { y with answerer := some x, wanted := min y.wanted (normWidth cap) } with hz
    have hctx : ((base.setCtx i (some z)).askRecall ⟨.release, .call c⟩).ctx i = some z := by
      rw [ctx_askRecall, State.ctx_setCtx, if_pos rfl]
    refine ⟨_, by rw [hexec, htaken, leaveCheck_of_live hctx], hctx, fun j hj => ?_, fun hq => recallOpen_askRecall hq, ?_, ?_, ?_, ?_, ?_, ?_⟩
    · rw [ctx_askRecall, State.ctx_setCtx, if_neg hj]
      rfl
    all_goals simp [base]

end Sys2Proof.Machine
end

section
/-! PROOFS. A RING at the answering side: the refusals by the role, and the rings of a call that it knows (R128 to R132). -/

namespace Sys2Proof.Machine

/-! ### Refusals -/

theorem refuse_eq (s : State) (c : CallId) (k : Byte) :
    s.refuse c k = { s with rif := { s.rif with queue := s.queueWith (.refuse c k) } } := queueFrame_eq s _

theorem leaveCheck_refuse {s : State} (h : s.noLeaveDue) (c : CallId) (k : Byte) : (s.refuse c k).leaveCheck = s.refuse c k :=
  leaveCheck_of_noLeaveDue (h.of_kept (by rw [refuse_eq]) (by rw [refuse_eq])
    (by rw [refuse_eq]; exact List.prefix_append _ _))

theorem noLeaveDue_of_joined {s : State} (h : s.stc.state = .joined) : s.noLeaveDue := fun hl => by rw [h] at hl; cases hl

section Heard

variable {s : State} {x : Byte} {c : CallId} {u : UnitNum} {w r p : Byte} {ms : List Byte}

/-- A RING of another station goes to the answering side (R128). -/
theorem exec_ringTaken (h : s.hears x (.ring c u w r p ms)) :
    exec (.ringTaken x c u w r p ms) s = .next (s.newEvent.ringAny x c u w r p ms).leaveCheck :=
  congrArg Host.Outcome.next (taking_of_hears h _ _)

theorem ringAny_leaving (hst : s.stc.state = .leaving) (hown : s.own ∈ ms) : s.ringAny x c u w r p ms = s.refuse c 3#8 :=
  if_pos ⟨hst, by simpa using hown⟩

theorem ringAny_other (hx : x ≠ s.own) (hl : ¬ (s.stc.state = .leaving ∧ s.own ∈ ms)) :
    s.ringAny x c u w r p ms = s.ringTaken x c u w r p (distinctMembers ms) := by
  have hl' : ¬ (s.stc.state = .leaving ∧ ms.contains s.own = true) := by simpa using hl
  rw [State.ringAny, if_neg hl', if_neg hx]

theorem ringTaken_known {i : Ref} (hl : ¬ (s.stc.state = .leaving ∧ s.own ∈ ms)) (hc : c.orig = x) (hp : p = 0#8 ∨ p = 1#8)
    (hi : s.findCtx .answer c = some i) : s.ringTaken x c u w r p ms = s.ringAtAnswer i p ms := by
  have hl' : ¬ (s.stc.state = .leaving ∧ ms.contains s.own = true) := by simpa using hl
  have hp' : ¬ (c.orig ≠ x ∨ (p ≠ 0#8 ∧ p ≠ 1#8)) := by
    rintro (h | ⟨h0, h1⟩)
    · exact h hc
    · exact hp.elim h0 h1
  rw [State.ringTaken, if_neg hl', if_neg hp', hi]

theorem ringTaken_unknown (hst : s.stc.state = .joined) (hc : c.orig = x) (hp : p = 0#8 ∨ p = 1#8) (hown : s.own ∈ ms)
    (hn : s.findCtx .answer c = none) : s.ringTaken x c u w r p ms = s.acceptRing x c u w r p ms := by
  have hl' : ¬ (s.stc.state = .leaving ∧ ms.contains s.own = true) := by simp [hst]
  have hp' : ¬ (c.orig ≠ x ∨ (p ≠ 0#8 ∧ p ≠ 1#8)) := by
    rintro (h | ⟨h0, h1⟩)
    · exact h hc
    · exact hp.elim h0 h1
  have hown' : ms.contains s.own = true := by simpa using hown
  rw [State.ringTaken, if_neg hl', if_neg hp', hn]
  exact if_pos hown'

end Heard

section Roles

variable {s : State} (x : Byte) (c : CallId) (u : UnitNum) (w : Byte) {r : Byte} (p : Byte) (ms : List Byte)

theorem acceptRing_entry (h : s.role = .entry) : s.acceptRing x c u w r p ms = s.refuse c 4#8 := by
  simp only [State.acceptRing, h]
  rfl

theorem acceptRing_dnd (h : s.role = .unit) (hd : s.sport.dnd = true) (hr : Role.ofCode r ≠ some .desk) :
    s.acceptRing x c u w r p ms = s.refuse c 1#8 := by
  simp only [State.acceptRing, h, hd, hr, ne_eq, not_false_eq_true, and_self, if_true]
  rfl

theorem acceptRing_unit (h : s.role = .unit) (hd : s.sport.dnd = false ∨ Role.ofCode r = some .desk) :
    s.acceptRing x c u w r p ms =
      if s.activeCount ≠ 0 then s.refuse c 2#8
      else if s.role.limit ≤ s.liveCount then s.refuse c 3#8
      else match s.freeRef with
        | some i => s.openAlerting i x c u w r p ms
        | none => s.refuse c 3#8 := by
  have hd' : ¬ (s.sport.dnd = true ∧ Role.ofCode r ≠ some .desk) := by
    rcases hd with hd | hd <;> simp [hd]
  simp only [State.acceptRing, h, if_neg hd', activeCount_ne_zero_iff]
  rfl

theorem acceptRing_desk_full (h : s.role = .desk) (hl : s.liveCount = s.role.limit) :
    s.acceptRing x c u w r p ms = s.refuse c 3#8 := by
  have hfull : s.liveCount ≥ Role.limit .desk := by rw [hl, h]
  simp only [State.acceptRing, h, if_pos hfull]
  rfl

end Roles

/-! ### The rings of a known call -/

theorem ended_queue (s : State) (i : Ref) (k : Cause) : (s.endAnswer i k).rif.queue = s.rif.queue := by
  obtain ⟨j, hj⟩ := exists_ne_ref i
  obtain ⟨fs, hq, hfs⟩ := ((Spares.refl (ks := fun _ => False) j s).endAnswer hj k).queue
  have hnil : fs = [] := List.eq_nil_iff_forall_not_mem.mpr fun f hf => hfs f hf
  rw [hq, hnil, List.map_nil, List.append_nil]

/-- A path that was lit is off once it is cut, the port passed on, where no other record shares its block (R154, R158). -/
theorem enable_of_cut {s : State} {i : Ref} {k : Cause} {q : PathRec} (hq : s.path.record i = some q) (hl : s.path.lit i = true)
    (hapart : s.path.ApartFrom i q) {n : Nat} (h1 : q.base ≤ n) (h2 : n < q.base + q.width) :
    (((s.cutPath i).endNow i k).reckonOwner).path.enable n = none := by
  have hoff : (s.path.remove i).OffIn q.block := by
    refine ⟨fun m h1 h2 => ?_, fun j r hr => ?_⟩
    · rw [Path.enable_remove hq]
      by_cases hm : m < 24
      · rw [if_pos ⟨hl, hm, h1, h2⟩]
      · rw [if_neg fun h => hm h.2.1, Path.enable, Vector.getElem?_eq_none (by omega)]
    · rw [Path.record_remove] at hr
      split at hr
      · cases hr
      next hj => exact .inr (hapart j r hr hj)
  have hend : ((s.cutPath i).endNow i k).path.OffIn q.block := by
    rw [endNow_path]
    exact hoff
  exact hend.reckonOwner.off n h1 h2

/-- The port's owner has a record (R154). -/
theorem owner_ne_of_record_none {s : State} {i : Ref} (h : s.reckonOwner.path.record i = none) : s.reckonOwner.path.owner ≠ some i := by
  rw [State.record_reckonOwner] at h
  rw [State.reckonOwner_owner]
  intro hbest
  obtain ⟨r, hr, -⟩ := Path.bestOwner_some hbest
  rw [h] at hr
  cases hr

section Known

variable {s : State} {i : Ref} {y : Ctx} (hy : s.ctx i = some y) {p : Byte} {ms : List Byte}
include hy

theorem ringAtAnswer_clearing_listed (hst : y.state = .clearing) (hown : s.own ∈ ms) : s.ringAtAnswer i p ms = s := by
  simp [State.ringAtAnswer, hy, hst, hown]

theorem ringAtAnswer_clearing (hst : y.state = .clearing) (hown : s.own ∉ ms) :
    s.ringAtAnswer i p ms = s.setCtx i (some (if y.awaits = .answerRecall then { y with superseded := true } else y)) := by
  simp [State.ringAtAnswer, hy, hst, hown, State.supersede, modifyCtx_live hy]

theorem ringAtAnswer_ringing_listed (hst : y.state = .alerting ∨ y.state = .answering) (hown : s.own ∈ ms) :
    s.ringAtAnswer i p ms = s.setCtx i (some { y with members := ms, ringPhase := p.toNat }) := by
  rcases hst with hst | hst <;> simp [State.ringAtAnswer, hy, hst, hown]

theorem ringAtAnswer_ringing (hst : y.state = .alerting ∨ y.state = .answering) (hown : s.own ∉ ms) :
    s.ringAtAnswer i p ms = s.endAnswer i (if y.ringPhase < p.toNat then .forwarded else .answeredElsewhere) := by
  rcases hst with hst | hst <;> simp [State.ringAtAnswer, hy, hst, hown]

theorem ringAtAnswer_placed_kept (hst : y.state ∈ [CtxState.awaitPath, .settling, .talk]) (h : s.own ∈ ms ∨ y.ringPhase < p.toNat) :
    s.ringAtAnswer i p ms = s := by
  simp only [List.mem_cons, List.not_mem_nil, or_false] at hst
  rcases hst with hst | hst | hst <;> simp [State.ringAtAnswer, hy, hst, h]

theorem ringAtAnswer_placed_ended (hst : y.state ∈ [CtxState.awaitPath, .settling, .talk]) (hown : s.own ∉ ms)
    (hp : ¬ y.ringPhase < p.toNat) : s.ringAtAnswer i p ms = s.endAnswer i .answeredElsewhere := by
  simp only [List.mem_cons, List.not_mem_nil, or_false] at hst
  rcases hst with hst | hst | hst <;> simp [State.ringAtAnswer, hy, hst, hown, hp]

end Known

/-- An ending at the answering side spares the other contexts, the copy and the queue, but for a LEAVE that falls due (R77, R132). -/
theorem endAnswer_apart {s : State} {i : Ref} {y : Ctx} (hy : s.ctx i = some y) (hside : y.side = .answer) (hst : y.state ≠ .clearing)
    (k : Cause) :
    OtherContextsKept i s (s.endAnswer i k).leaveCheck ∧ (s.endAnswer i k).leaveCheck.smu = s.smu
      ∧ QueueOrLeave s.rif.queue s (s.endAnswer i k).leaveCheck ∧ EndSaid i y k s (s.endAnswer i k).leaveCheck := by
  have hcalm : Calm s (s.endAnswer i k) := (Calm.refl s).endAnswer i k
  refine ⟨fun j hj => ?_, ?_, ?_, ?_⟩
  · rw [ctx_leaveCheck, ((Spares.refl (ks := fun _ => False) j s).endAnswer hj k).ctx]
  · rw [leaveCheck_smu, hcalm.smu]
  · have h := leaveCheck_queueOrLeave (s.endAnswer i k)
    rw [QueueOrLeave, ended_queue, hcalm.state] at h
    exact h
  · exact (ended_endAnswer hy k hside hst).2.mono (by rw [leaveCheck_sport])

theorem steppedBack_leaveCheck {s t : State} {i : Ref} {y : Ctx} {k : Cause} (h : SteppedBack i y k s t) :
    SteppedBack i y k s t.leaveCheck := by
  obtain ⟨halert, hrecalls, hfree⟩ := h
  refine ⟨by rw [leaveCheck_oku]; exact halert, fun hr => ?_, fun hr => by rw [ctx_leaveCheck]; exact hfree hr⟩
  obtain ⟨hopen, hctx⟩ := hrecalls hr
  exact ⟨recallOpen_leaveCheck hopen, by rw [ctx_leaveCheck]; exact hctx⟩

/-- What a RING that lists the station does at a JOINED one that does not know its call, where the role refuses it (R129, R130). -/
theorem exec_ringTaken_refused {s : State} {x : Byte} {c : CallId} {u : UnitNum} {w r p k : Byte} {ms : List Byte}
    (h : s.hears x (.ring c u w r p ms)) (hleave : s.noLeaveDue)
    (ht : s.newEvent.ringAny x c u w r p ms = s.newEvent.refuse c k) :
    exec (.ringTaken x c u w r p ms) s
      = .next { s with eventNo := s.eventNo + 1, rif := { s.rif with queue := s.queueWith (.refuse c k) } } := by
  have hidle : (s.newEvent.refuse c k).leaveCheck = s.newEvent.refuse c k :=
    leaveCheck_refuse (s := s.newEvent) (hleave.of_kept rfl rfl (List.prefix_refl _)) c k
  rw [exec_ringTaken h, ht, hidle, refuse_eq]
  rfl

/-- Settles O28: the refusals by the role, then the RING at a call that the station knows, state by state. -/
theorem ringIsRefusedByTheRole : Obligations.RingIsRefusedByTheRole := by
  unfold Obligations.RingIsRefusedByTheRole
  constructor
  · intro s x c u w r p ms hhears hown refuses
    refine ⟨fun hst hleave => ?_, fun hst hc hp hn => ?_⟩
    · exact exec_ringTaken_refused hhears hleave (ringAny_leaving (s := s.newEvent) hst hown)
    · have hleave := noLeaveDue_of_joined hst
      have hmem : s.newEvent.own ∈ distinctMembers ms := mem_distinctMembers.mpr hown
      have hno : ¬ (s.newEvent.stc.state = .leaving ∧ s.newEvent.own ∈ ms) := fun h => by
        rw [show s.newEvent.stc.state = .joined from hst] at h
        cases h.1
      have htaken : s.newEvent.ringAny x c u w r p ms = s.newEvent.acceptRing x c u w r p (distinctMembers ms) :=
        (ringAny_other (s := s.newEvent) hhears.2.2.1 hno).trans (ringTaken_unknown (s := s.newEvent) hst hc hp hmem hn)
      refine ⟨fun hr => ?_, fun hr hd hdesk => ?_, fun hr hd ha => ?_, fun hr hd ha hl => ?_, fun hr hl => ?_⟩
      · exact exec_ringTaken_refused hhears hleave (htaken.trans (acceptRing_entry (s := s.newEvent) x c u w p _ hr))
      · exact exec_ringTaken_refused hhears hleave (htaken.trans (acceptRing_dnd (s := s.newEvent) x c u w p _ hr hd hdesk))
      · have hunit := acceptRing_unit (s := s.newEvent) x c u w p (distinctMembers ms) hr hd
        rw [if_pos (by exact ha)] at hunit
        exact exec_ringTaken_refused hhears hleave (htaken.trans hunit)
      · have hunit := acceptRing_unit (s := s.newEvent) x c u w p (distinctMembers ms) hr hd
        rw [if_neg (by exact not_not.mpr ha), if_pos (by exact le_of_eq hl.symm)] at hunit
        exact exec_ringTaken_refused hhears hleave (htaken.trans hunit)
      · exact exec_ringTaken_refused hhears hleave (htaken.trans (acceptRing_desk_full (s := s.newEvent) x c u w p _ hr hl))
  · intro s x c u w r p ms i y hhears hst hc hp hi hy hhas base becomes higher ends
    obtain ⟨hside, hcid⟩ : y.side = .answer ∧ y.cid = c := by
      obtain ⟨z, hz, hs, hzc⟩ := findCtx_some hi
      rw [hy] at hz
      cases hz
      exact ⟨hs, hzc⟩
    have hby : base.ctx i = some y := hy
    have hno : ¬ (base.stc.state = .leaving ∧ base.own ∈ ms) := by
      rintro ⟨hl, hown⟩
      rcases hst with hj | hn
      · rw [show base.stc.state = .joined from hj] at hl
        cases hl
      · exact hn hown
    have hno' : ¬ (base.stc.state = .leaving ∧ base.own ∈ distinctMembers ms) := by rwa [mem_distinctMembers]
    have hexec : exec (.ringTaken x c u w r p ms) s = .next (base.ringAtAnswer i p (distinctMembers ms)).leaveCheck := by
      rw [exec_ringTaken hhears]
      exact congrArg (fun t : State => Host.Outcome.next t.leaveCheck)
        ((ringAny_other (s := base) hhears.2.2.1 hno).trans (ringTaken_known (s := base) hno' hc hp hi))
    have hbecomes : ∀ z, base.ringAtAnswer i p (distinctMembers ms) = base.setCtx i (some z) → becomes z := fun z hz => by
      show exec _ s = _
      rw [hexec, hz, leaveCheck_of_live ((State.ctx_setCtx _ i i _).trans (if_pos rfl))]
    have hstays : base.ringAtAnswer i p (distinctMembers ms) = base → becomes y := fun h =>
      hbecomes y (h.trans (setCtx_of_ctx hby).symm)
    have hends : ∀ k, y.state ≠ .clearing → base.ringAtAnswer i p (distinctMembers ms) = base.endAnswer i k →
        ends (base.endAnswer i k).leaveCheck k := fun k hne ht => by
      obtain ⟨hothers, hsmu, hqueue, hsaid⟩ := endAnswer_apart hby hside hne k
      exact ⟨by rw [hexec, ht], hothers, hsmu, hqueue, hsaid⟩
    have hlisted : s.own ∈ ms → base.own ∈ distinctMembers ms := mem_distinctMembers.mpr
    have hunlisted : s.own ∉ ms → base.own ∉ distinctMembers ms := fun h => by rwa [mem_distinctMembers]
    refine ⟨fun hcl => ⟨fun hown haw => ?_, fun h => ?_⟩, fun hring => ⟨fun hown => ?_, fun hown => ?_⟩,
      fun hplaced => ⟨fun h => ?_, fun hown hlow => ?_⟩⟩
    · refine hbecomes _ ((ringAtAnswer_clearing hby hcl (hunlisted hown)).trans ?_)
      rw [if_pos haw]
    · by_cases hown : s.own ∈ ms
      · exact hstays (ringAtAnswer_clearing_listed hby hcl (hlisted hown))
      · refine hbecomes _ ((ringAtAnswer_clearing hby hcl (hunlisted hown)).trans ?_)
        rw [if_neg (h.resolve_left hown)]
    · exact hbecomes _ (ringAtAnswer_ringing_listed hby hring (hlisted hown))
    · have hne : y.state ≠ .clearing := by rcases hring with h | h <;> simp [h]
      refine ⟨_, hends _ hne (ringAtAnswer_ringing hby hring (hunlisted hown)), steppedBack_leaveCheck ?_⟩
      exact ((ended_endAnswer hby _ hside hne).1.2.2 hside).1 hring
    · exact hstays (ringAtAnswer_placed_kept hby hplaced (h.imp_left hlisted))
    · have hne : y.state ≠ .clearing ∧ y.state ≠ .answering ∧ y.state ∉ [CtxState.alerting, .answering] := by
        simp only [List.mem_cons, List.not_mem_nil, or_false] at hplaced
        rcases hplaced with h | h | h <;> simp [h]
      obtain ⟨hcl, hans, hlate⟩ := hne
      obtain ⟨hrecord, -, hfree⟩ := (ended_endAnswer hby .answeredElsewhere hside hcl).1
      have heq := endAnswer_other hby .answeredElsewhere hans hcl
      refine ⟨_, hends _ hcl (ringAtAnswer_placed_ended hby hplaced (hunlisted hown) hlow), ?_, ?_, ?_, fun q hq hl hapart n h1 h2 => ?_⟩
      · rw [ctx_leaveCheck]
        exact (hfree hside).2 hlate
      · rw [leaveCheck_path]
        exact hrecord hans
      · rw [leaveCheck_path, heq]
        refine owner_ne_of_record_none ?_
        rw [← heq]
        exact hrecord hans
      · rw [leaveCheck_path, heq]
        exact enable_of_cut (s := base) hq hl hapart h1 h2

end Sys2Proof.Machine
end


section
/-! PROOFS. PATH between its operations: enables, owner, rate and gate agree with the records, whatever record is to own the port
next. Each operation of PATH keeps the agreement (R147, R149, R154, R156 to R158). -/

namespace Sys2Proof.Machine

/-! ### The agreement -/

/-- The content of a record's enables: STREAM where it owns the port, outside MUTE (R154, R156). -/
def Path.contentOf (p : Path) (i : Ref) (r : PathRec) : Content := if p.owner = some i ∧ r.stage ≠ .mute then .stream else .silence

/-- A lit record's enables are all ON, with the owner's content or SILENCE, no other enable is ON, and an owner's record outside MUTE
gives rate and gate (R147, R154, R155). -/
structure Path.Wired (p : Path) : Prop where
  width : ∀ i r, p.record i = some r → 0 < r.width
  lights : ∀ i r, p.record i = some r → p.lit i = true → ∀ n, r.base ≤ n → n < r.base + r.width →
    p.enable n = some ⟨i, r.sendHalf, p.contentOf i r⟩
  within : ∀ n e, p.enable n = some e → ∃ r, p.record e.ref = some r ∧ r.base ≤ n ∧ n < r.base + r.width
  unowned : p.owner = none → p.gate = false ∧ p.rate = 1
  owned : ∀ i r, p.owner = some i → p.record i = some r → r.stage ≠ .mute → p.rate = r.width ∧ p.gate = decide (r.stage = .opened)

theorem Path.enable_lt {p : Path} {n : Nat} {e : Enable} (h : p.enable n = some e) : n < 24 := by
  by_contra hn
  simp [Path.enable, hn] at h

/-- A context with an enable ON inside its record's block is lit. -/
theorem Path.lit_of_enable {p : Path} {i : Ref} {r : PathRec} (hr : p.record i = some r) {n : Nat} (h1 : r.base ≤ n)
    (h2 : n < r.base + r.width) {e : Enable} (he : p.enable n = some e) (hi : e.ref = i) : p.lit i = true :=
  (Path.lit_iff hr).mpr ⟨n, e, h1, h2, he, hi⟩

namespace Path.Wired

variable {p : Path} {i j : Ref} {r q : PathRec}

theorem lit (h : p.Wired) {n : Nat} {e : Enable} (he : p.enable n = some e) : p.lit e.ref = true := by
  obtain ⟨r, hr, h1, h2⟩ := h.within n e he
  exact Path.lit_of_enable hr h1 h2 he rfl

/-- A channel ON in a lit record's block is ON for that record's context. -/
theorem ref_eq (h : p.Wired) (hr : p.record i = some r) (hl : p.lit i = true) {n : Nat} (h1 : r.base ≤ n) (h2 : n < r.base + r.width)
    {e : Enable} (he : p.enable n = some e) : e.ref = i := by
  rw [h.lights i r hr hl n h1 h2] at he
  exact (Option.some.inj he) ▸ rfl

/-- An enable ON for a context lies in its record's block. -/
theorem in_block (h : p.Wired) (hr : p.record i = some r) {n : Nat} {e : Enable} (he : p.enable n = some e) (hi : e.ref = i) :
    r.base ≤ n ∧ n < r.base + r.width := by
  obtain ⟨r', hr', h1, h2⟩ := h.within n e he
  rw [hi] at hr'
  obtain rfl := Option.some.inj (hr.symm.trans hr')
  exact ⟨h1, h2⟩

theorem ref_ne_of_record_none (h : p.Wired) (hr : p.record i = none) {n : Nat} {e : Enable} (he : p.enable n = some e) : e.ref ≠ i := by
  rintro rfl
  obtain ⟨r, hr', -⟩ := h.within n e he
  rw [hr] at hr'
  cases hr'

/-- A lit record lies within the channels. -/
theorem block_le (h : p.Wired) (hr : p.record i = some r) (hl : p.lit i = true) : r.base + r.width ≤ 24 := by
  have hw := h.width i r hr
  have := Path.enable_lt (h.lights i r hr hl (r.base + r.width - 1) (by omega) (by omega))
  omega

/-- Agreement depends on the enables, the records, the owner, the gate and the rate alone. -/
theorem congr (h : p.Wired) {q : Path} (he : q.enables = p.enables) (hr : q.recs = p.recs) (ho : q.owner = p.owner)
    (hg : q.gate = p.gate) (hra : q.rate = p.rate) : q.Wired := by
  have hen : ∀ n, q.enable n = p.enable n := fun n => by unfold Path.enable; rw [he]
  have hrec : ∀ i, q.record i = p.record i := fun i => by unfold Path.record; rw [hr]
  have hlit : ∀ i, q.lit i = p.lit i := fun i => Path.lit_congr (hrec i) fun n => by rw [hen]
  refine ⟨fun i r h1 => h.width i r (hrec i ▸ h1), fun i r h1 h2 n h3 h4 => ?_, fun n e h1 => ?_, fun h1 => ?_, fun i r h1 h2 h3 => ?_⟩
  · rw [hen, h.lights i r (hrec i ▸ h1) (hlit i ▸ h2) n h3 h4, Path.contentOf, Path.contentOf, ho]
  · rw [hrec]
    exact h.within n e (hen n ▸ h1)
  · rw [hg, hra]
    exact h.unowned (ho ▸ h1)
  · rw [hg, hra]
    exact h.owned i r (ho ▸ h1) (hrec i ▸ h2) h3

/-- All off, the agreement is plain (R158, R160). -/
theorem clear (p : Path) : p.clear.Wired := by
  have hrec : ∀ i, p.clear.record i = none := fun i => by simp [Path.clear, Path.record]
  have hen : ∀ n, p.clear.enable n = none := fun n => by
    by_cases hn : n < 24 <;> simp [Path.clear, Path.enable, hn]
  refine ⟨fun i r h => ?_, fun i r h => ?_, fun n e h => ?_, fun _ => ⟨rfl, rfl⟩, fun i r h => by cases h⟩
  · rw [hrec] at h; cases h
  · rw [hrec] at h; cases h
  · rw [hen] at h; cases h

/-! ### A change of owner -/

/-- A new content leaves every context as lit as it was. -/
theorem lit_setContent (h : p.Wired) (i j : Ref) (c : Content) : (p.setContent i c).lit j = p.lit j := by
  cases hr : p.record i with
  | none => rw [Path.setContent_none hr]
  | some r =>
    refine Path.lit_congr (by simp) fun n => ?_
    rw [Path.enable_setContent hr]
    split
    next hn =>
      rw [h.lights i r hr hn.1 n hn.2.2.1 hn.2.2.2]
      simp
    next => exact Iff.rfl

theorem lit_changeOwner (h : p.Wired) (o : Option Ref) (j : Ref) : (p.changeOwner o).lit j = p.lit j := by
  refine Path.lit_congr (by simp) fun n => ?_
  have hw : ∀ (q : Path), (∃ e, q.enable n = some e ∧ e.ref = j) ↔ ∃ e, (q.withOwner o).enable n = some e ∧ e.ref = j := fun q => by
    rw [Path.enable_withOwner]
  have hstep : ∀ (q : Path) (c : Content) (i : Ref), q.record i = p.record i → q.lit i = p.lit i →
      ((∃ e, q.enable n = some e ∧ e.ref = j) ↔ ∃ e, p.enable n = some e ∧ e.ref = j) →
      ((∃ e, (q.setContent i c).enable n = some e ∧ e.ref = j) ↔ ∃ e, p.enable n = some e ∧ e.ref = j) := fun q c i hq hl hiff => by
    cases hr : q.record i with
    | none => rwa [Path.setContent_none hr]
    | some r =>
      rw [Path.enable_setContent hr]
      split
      next hn =>
        rw [h.lights i r (hq ▸ hr) (hl ▸ hn.1) n hn.2.2.1 hn.2.2.2]
        simp
      next => exact hiff
  unfold Path.changeOwner
  rw [← hw]
  cases p.owner with
  | none =>
    cases o with
    | none => exact Iff.rfl
    | some k => exact hstep p _ k rfl rfl Iff.rfl
  | some m =>
    have h1 := hstep p .silence m rfl rfl Iff.rfl
    cases o with
    | none => exact h1
    | some k => exact hstep _ _ k (by simp) (h.lit_setContent m k _) h1

/-- The enables after a change of owner: the old owner's in SILENCE, the new owner's in STREAM (R154). -/
theorem enable_changeOwner (h : p.Wired) {o : Option Ref} (hne : o ≠ p.owner) (hr : p.record i = some r) (hl : p.lit i = true) {n : Nat}
    (h1 : r.base ≤ n) (h2 : n < r.base + r.width) :
    (p.changeOwner o).enable n = some ⟨i, r.sendHalf, if o = some i then .stream else .silence⟩ := by
  have hn : n < 24 := Path.enable_lt (h.lights i r hr hl n h1 h2)
  have hset : ∀ (q : Path) (c : Content) (k : Ref), (∀ m, q.record m = p.record m) → (∀ m, q.lit m = p.lit m) →
      ∀ x, q.enable n = some ⟨i, r.sendHalf, x⟩ → (q.setContent k c).enable n = some ⟨i, r.sendHalf, if k = i then c else x⟩ :=
      fun q c k hq hlq x hx => by
    by_cases hk : k = i
    · subst hk
      rw [Path.enable_setContent ((hq k).trans hr), if_pos ⟨(hlq k).trans hl, hn, h1, h2⟩, if_pos rfl]
    · rw [if_neg hk]
      cases hrk : q.record k with
      | none => rwa [Path.setContent_none hrk]
      | some rk =>
        rw [Path.enable_setContent hrk, if_neg, hx]
        rintro ⟨hlk, -, h3, h4⟩
        exact hk (h.ref_eq ((hq k) ▸ hrk) ((hlq k) ▸ hlk) h3 h4 (h.lights i r hr hl n h1 h2)).symm
  have hold := h.lights i r hr hl n h1 h2
  unfold Path.changeOwner
  rw [Path.enable_withOwner]
  cases ho : p.owner with
  | none =>
    have hc : p.contentOf i r = .silence := by simp [Path.contentOf, ho]
    rw [hc] at hold
    cases o with
    | none => exact absurd ho.symm hne
    | some k => simpa using hset p .stream k (fun _ => rfl) (fun _ => rfl) _ hold
  | some m =>
    have hsil : (p.setContent m .silence).enable n = some ⟨i, r.sendHalf, .silence⟩ := by
      rw [hset p .silence m (fun _ => rfl) (fun _ => rfl) _ hold]
      by_cases hm : m = i
      · rw [if_pos hm]
      · rw [if_neg hm, Path.contentOf, if_neg (by rw [ho]; simp [hm])]
    cases o with
    | none => simpa using hsil
    | some k => simpa using hset _ .stream k (by simp) (fun j => h.lit_setContent m j _) _ hsil

/-- A change of owner turns nothing ON. -/
theorem enable_of_changeOwner (h : p.Wired) (o : Option Ref) {n : Nat} {e : Enable} (he : (p.changeOwner o).enable n = some e) :
    ∃ e', p.enable n = some e' ∧ e'.ref = e.ref := by
  by_contra hno
  have hstep : ∀ (q : Path) (c : Content) (k : Ref), (∀ m, q.record m = p.record m) → (∀ m, q.lit m = p.lit m) →
      (∀ e', q.enable n = some e' → e'.ref ≠ e.ref) → ∀ e', (q.setContent k c).enable n = some e' → e'.ref ≠ e.ref :=
      fun q c k hq hlq hx e' he' => by
    cases hrk : q.record k with
    | none => rw [Path.setContent_none hrk] at he'; exact hx e' he'
    | some rk =>
      rw [Path.enable_setContent hrk] at he'
      split at he'
      next hn =>
        obtain rfl := Option.some.inj he'
        intro hk
        exact hno ⟨_, h.lights k rk ((hq k) ▸ hrk) ((hlq k) ▸ hn.1) n hn.2.2.1 hn.2.2.2, hk⟩
      next => exact hx e' he'
  have h0 : ∀ e', p.enable n = some e' → e'.ref ≠ e.ref := fun e' h1 h2 => hno ⟨e', h1, h2⟩
  unfold Path.changeOwner at he
  rw [Path.enable_withOwner] at he
  cases ho : p.owner with
  | none =>
    rw [ho] at he
    cases o with
    | none => exact h0 e he rfl
    | some k => exact hstep p _ k (fun _ => rfl) (fun _ => rfl) h0 e he rfl
  | some m =>
    rw [ho] at he
    have h1 := hstep p .silence m (fun _ => rfl) (fun _ => rfl) h0
    cases o with
    | none => exact h1 e he rfl
    | some k => exact hstep _ _ k (by simp) (fun j => h.lit_setContent m j _) h1 e he rfl

end Path.Wired

end Sys2Proof.Machine
end


section
/-! PROOFS. The operations of PATH keep enables, owner, rate and gate in agreement with the records (R149, R154, R156 to R158). -/

namespace Sys2Proof.Machine

/-! ### The re-reckoning -/

/-- PATH with its best owner (R154). -/
def Path.reckoned (p : Path) : Path := if p.bestOwner = p.owner then p else p.changeOwner p.bestOwner

theorem reckonOwner_reckoned (s : State) : s.reckonOwner.path = s.path.reckoned := State.reckonOwner_path s

@[simp] theorem Path.record_reckoned (p : Path) (j : Ref) : p.reckoned.record j = p.record j := by
  unfold Path.reckoned; split <;> simp

theorem Path.owner_changeOwner_some {p : Path} {i : Ref} {r : PathRec} (hr : p.record i = some r) :
    (p.changeOwner (some i)).owner = some i ∧ (p.changeOwner (some i)).rate = r.width
      ∧ (p.changeOwner (some i)).gate = decide (r.stage = .opened) := by
  unfold Path.changeOwner
  exact Path.withOwner_some (by cases p.owner <;> simp [hr])

theorem Path.owner_changeOwner_none (p : Path) : (p.changeOwner none).owner = none ∧ (p.changeOwner none).rate = 1
    ∧ (p.changeOwner none).gate = false := Path.withOwner_none _

theorem Path.owner_reckoned (p : Path) : p.reckoned.owner = p.bestOwner := by
  unfold Path.reckoned
  split
  next h => exact h.symm
  next =>
    cases hb : p.bestOwner with
    | none => exact (Path.owner_changeOwner_none p).1
    | some i =>
      obtain ⟨r, hr, -⟩ := Path.bestOwner_some hb
      exact (Path.owner_changeOwner_some hr).1

namespace Path.Wired

variable {p q : Path} {i j : Ref} {r r' : PathRec}

theorem lit_reckoned (h : p.Wired) (j : Ref) : p.reckoned.lit j = p.lit j := by
  unfold Path.reckoned
  split
  · rfl
  · exact h.lit_changeOwner _ j

theorem bestOwner_reckoned (h : p.Wired) : p.reckoned.bestOwner = p.bestOwner :=
  Path.bestOwner_congr fun j => Path.claimOrder_congr (by simp) (h.lit_reckoned j)

theorem changeOwner_bestOwner (h : p.Wired) (hne : p.bestOwner ≠ p.owner) : (p.changeOwner p.bestOwner).Wired := by
  have howner : (p.changeOwner p.bestOwner).owner = p.bestOwner := by
    have := p.owner_reckoned
    rwa [Path.reckoned, if_neg hne] at this
  refine ⟨fun i r hr => h.width i r (by simpa using hr), fun i r hr hl n h1 h2 => ?_, fun n e he => ?_, fun ho => ?_, fun i r ho hr hm => ?_⟩
  · rw [Path.record_changeOwner] at hr
    rw [h.lit_changeOwner] at hl
    rw [h.enable_changeOwner hne hr hl h1 h2, Path.contentOf, howner]
    congr 2
    by_cases hb : p.bestOwner = some i
    · obtain ⟨r0, hr0, hm, -⟩ := Path.bestOwner_some hb
      obtain rfl := Option.some.inj (hr.symm.trans hr0)
      simp [hb, hm]
    · simp [hb]
  · obtain ⟨e', he', href⟩ := h.enable_of_changeOwner _ he
    obtain ⟨r, hr, h1⟩ := h.within n e' he'
    exact ⟨r, by simpa [← href] using hr, h1⟩
  · rw [howner] at ho
    rw [ho]
    exact ⟨(Path.owner_changeOwner_none p).2.2, (Path.owner_changeOwner_none p).2.1⟩
  · rw [howner] at ho
    rw [Path.record_changeOwner] at hr
    rw [ho]
    exact (Path.owner_changeOwner_some hr).2

/-- Once re-reckoned the best owner owns the port, and PATH agrees with its records (R154). -/
theorem reckoned (h : p.Wired) : p.reckoned.Wired := by
  unfold Path.reckoned
  split
  next => exact h
  next hne => exact h.changeOwner_bestOwner hne

/-! ### A record redrawn on its block -/

theorem lit_redraw (h : p.Wired) (hr : p.record i = some r) (hb : r'.block = r.block)
    (hrec : ∀ j, q.record j = if j = i then some r' else p.record j)
    (hen : ∀ n, q.enable n = if p.lit i = true ∧ r.base ≤ n ∧ n < r.base + r.width then some ⟨i, r.sendHalf, q.contentOf i r'⟩
      else p.enable n) (j : Ref) : q.lit j = p.lit j := by
  have hsame : ∀ n, (∃ e, q.enable n = some e ∧ e.ref = j) ↔ ∃ e, p.enable n = some e ∧ e.ref = j := fun n => by
    rw [hen]
    split
    next hn =>
      rw [h.lights i r hr hn.1 n hn.2.1 hn.2.2]
      simp
    next => exact Iff.rfl
  by_cases hj : j = i
  · subst hj
    have hbase : r'.base = r.base := congrArg Prod.fst hb
    have hwidth : r'.width = r.width := congrArg Prod.snd hb
    rw [Bool.eq_iff_iff, Path.lit_iff hr, Path.lit_iff ((hrec j).trans (if_pos rfl)), hbase, hwidth]
    refine exists_congr fun n => ?_
    have := hsame n
    constructor
    · rintro ⟨e, h1, h2, h3⟩
      obtain ⟨e', h4⟩ := this.mp ⟨e, h3⟩
      exact ⟨e', h1, h2, h4⟩
    · rintro ⟨e, h1, h2, h3⟩
      obtain ⟨e', h4⟩ := this.mpr ⟨e, h3⟩
      exact ⟨e', h1, h2, h4⟩
  · exact Path.lit_congr ((hrec j).trans (if_neg hj)) hsame

/-- A record changed on its own block, its enables given the content that suits it. -/
theorem redraw (h : p.Wired) (hr : p.record i = some r) (hb : r'.block = r.block) (hs : r'.sendHalf = r.sendHalf)
    (hrec : ∀ j, q.record j = if j = i then some r' else p.record j) (ho : q.owner = p.owner)
    (hen : ∀ n, q.enable n = if p.lit i = true ∧ r.base ≤ n ∧ n < r.base + r.width then some ⟨i, r.sendHalf, q.contentOf i r'⟩
      else p.enable n)
    (hown : p.owner = some i → r'.stage ≠ .mute → q.rate = r'.width ∧ q.gate = decide (r'.stage = .opened))
    (hoth : p.owner ≠ some i → q.gate = p.gate ∧ q.rate = p.rate) : q.Wired := by
  have hlit := h.lit_redraw hr hb hrec hen
  have hbase : r'.base = r.base := congrArg Prod.fst hb
  have hwidth : r'.width = r.width := congrArg Prod.snd hb
  refine ⟨fun j x hx => ?_, fun j x hx hl n h1 h2 => ?_, fun n e he => ?_, fun hno => ?_, fun j x hj hx hm => ?_⟩
  · rw [hrec] at hx
    split at hx
    · obtain rfl := Option.some.inj hx
      rw [hwidth]
      exact h.width i r hr
    · exact h.width j x hx
  · rw [hrec] at hx
    rw [hlit] at hl
    split at hx
    next hj =>
      subst hj
      obtain rfl := Option.some.inj hx
      rw [hbase] at h1 h2
      rw [hwidth] at h2
      rw [hen, if_pos ⟨hl, h1, h2⟩, hs]
    next hj =>
      have hold := h.lights j x hx hl n h1 h2
      rw [hen, if_neg, hold, Path.contentOf, Path.contentOf, ho]
      rintro ⟨hli, h3, h4⟩
      exact hj (h.ref_eq hr hli h3 h4 hold)
  · rw [hen] at he
    split at he
    next hn =>
      obtain rfl := Option.some.inj he
      exact ⟨r', by rw [hrec, if_pos rfl], by omega, by omega⟩
    next =>
      obtain ⟨x, hx, h1, h2⟩ := h.within n e he
      by_cases hi : e.ref = i
      · rw [hi] at hx
        obtain rfl := Option.some.inj (hr.symm.trans hx)
        exact ⟨r', by rw [hrec, if_pos hi], by omega, by omega⟩
      · exact ⟨x, by rw [hrec, if_neg hi, hx], h1, h2⟩
  · rw [ho] at hno
    obtain ⟨hg, hra⟩ := hoth (by rw [hno]; simp)
    rw [hg, hra]
    exact h.unowned hno
  · rw [ho] at hj
    rw [hrec] at hx
    split at hx
    next hji =>
      obtain rfl := Option.some.inj hx
      exact hown (hji ▸ hj) hm
    next hji =>
      obtain ⟨hg, hra⟩ := hoth (by rw [hj]; simpa using hji)
      rw [hg, hra]
      exact h.owned j x hj hx hm

/-! ### Enables turned OFF -/

/-- The contexts of a set lose their enables, and their records or those timers that no agreement reads. -/
theorem dim (h : p.Wired) (D : Ref → Prop) (hoff : ∀ n e, q.enable n = some e → p.enable n = some e ∧ ¬ D e.ref)
    (hkeep : ∀ n e, p.enable n = some e → ¬ D e.ref → q.enable n = some e) (hrec : ∀ j, ¬ D j → q.record j = p.record j)
    (hdrop : ∀ j x, D j → q.record j = some x → ∃ r, p.record j = some r ∧ x.block = r.block ∧ x.stage = r.stage)
    (ho : q.owner = p.owner) (hg : q.gate = p.gate) (hra : q.rate = p.rate) :
    q.Wired ∧ ∀ j, q.lit j = true ↔ p.lit j = true ∧ ¬ D j := by
  have hcase : ∀ j x, q.record j = some x → ∃ r, p.record j = some r ∧ x.block = r.block ∧ x.stage = r.stage :=
      fun j x hx => by
    by_cases hd : D j
    · obtain ⟨r, h1, h2, h3⟩ := hdrop j x hd hx
      exact ⟨r, h1, h2, h3⟩
    · exact ⟨x, hrec j hd ▸ hx, rfl, rfl⟩
  have hlit : ∀ j, q.lit j = true ↔ p.lit j = true ∧ ¬ D j := fun j => by
    constructor
    · intro hl
      cases hx : q.record j with
      | none => rw [Path.lit_none hx] at hl; cases hl
      | some x =>
        obtain ⟨n, e, -, -, he, hi⟩ := (Path.lit_iff hx).mp hl
        obtain ⟨he', hd⟩ := hoff n e he
        exact ⟨hi ▸ h.lit he', hi ▸ hd⟩
    · rintro ⟨hl, hd⟩
      cases hx : p.record j with
      | none => rw [Path.lit_none hx] at hl; cases hl
      | some x =>
        obtain ⟨n, e, h1, h2, he, hi⟩ := (Path.lit_iff hx).mp hl
        exact Path.lit_of_enable ((hrec j hd).trans hx) h1 h2 (hkeep n e he (hi ▸ hd)) hi
  refine ⟨⟨fun j x hx => ?_, fun j x hx hl n h1 h2 => ?_, fun n e he => ?_, fun hno => ?_, fun j x hj hx hm => ?_⟩, hlit⟩
  · obtain ⟨r, hr, hb, -⟩ := hcase j x hx
    have hwidth : x.width = r.width := congrArg Prod.snd hb
    rw [hwidth]
    exact h.width j r hr
  · obtain ⟨hl', hd⟩ := (hlit j).mp hl
    rw [hrec j hd] at hx
    have hold := h.lights j x hx hl' n h1 h2
    rw [hkeep n _ hold hd, Path.contentOf, Path.contentOf, ho]
  · obtain ⟨he', hd⟩ := hoff n e he
    rw [hrec e.ref hd]
    exact h.within n e he'
  · rw [hg, hra]
    exact h.unowned (ho ▸ hno)
  · obtain ⟨r, hr, hb, hst⟩ := hcase j x hx
    have hwidth : x.width = r.width := congrArg Prod.snd hb
    rw [hg, hra, hst, hwidth]
    exact h.owned j r (ho ▸ hj) hr (hst ▸ hm)

theorem remove (h : p.Wired) (i : Ref) : (p.remove i).Wired ∧ ∀ j, (p.remove i).lit j = true ↔ p.lit j = true ∧ j ≠ i := by
  have hfix : (p.remove i).owner = p.owner ∧ (p.remove i).gate = p.gate ∧ (p.remove i).rate = p.rate := by
    unfold Path.remove
    split
    · split <;> exact ⟨rfl, rfl, rfl⟩
    · exact ⟨rfl, rfl, rfl⟩
  refine h.dim (· = i) (fun n e he => ⟨Path.enable_of_remove he, ?_⟩) (fun n e he hi => ?_) (fun j hj => ?_) (fun j x hj hx => ?_)
    hfix.1 hfix.2.1 hfix.2.2
  · rintro rfl
    have hon := Path.enable_of_remove he
    obtain ⟨r, hr, h1, h2⟩ := h.within n e hon
    rw [Path.enable_remove hr, if_pos ⟨h.lit hon, Path.enable_lt hon, h1, h2⟩] at he
    cases he
  · cases hr : p.record i with
    | none => rwa [Path.remove_none hr]
    | some r =>
      rw [Path.enable_remove hr, if_neg, he]
      rintro ⟨hl, -, h1, h2⟩
      exact hi (h.ref_eq hr hl h1 h2 he)
  · rw [Path.record_remove, if_neg hj]
  · rw [Path.record_remove, if_pos hj] at hx
    cases hx

end Path.Wired

/-! ### A record made -/

section Settled

variable {s : State} {i : Ref} {side : Side} {b : Block} {trimmed : Bool}

theorem lit_settledPath_of_ne (hfree : ∀ n, b.1 ≤ n → n < b.1 + b.2 → s.path.enable n = none) {j : Ref} (hj : j ≠ i) :
    (s.settledPath i side b trimmed).lit j = s.path.lit j := by
  refine Path.lit_congr (by rw [record_settledPath, if_neg hj]) fun n => ?_
  rw [enable_settledPath]
  split
  next hn => simp [hfree n hn.2.1 hn.2.2, Ne.symm hj]
  next => exact Iff.rfl

/-- A record made on a block that is off, for a context that has none and does not own the port (R149). -/
theorem Path.Wired.settledPath (h : s.path.Wired) (hrec : s.path.record i = none) (howner : s.path.owner ≠ some i)
    (hfree : ∀ n, b.1 ≤ n → n < b.1 + b.2 → s.path.enable n = none) (hw : 0 < b.2) (hle : b.1 + b.2 ≤ 24) :
    (s.settledPath i side b trimmed).Wired := by
  obtain ⟨h1, hhalf, -⟩ := newPathRec_fields s side b trimmed
  have hbase : (s.newPathRec side b trimmed).base = b.1 := congrArg Prod.fst h1
  have hwidth : (s.newPathRec side b trimmed).width = b.2 := congrArg Prod.snd h1
  refine ⟨fun j x hx => ?_, fun j x hx hl n h2 h3 => ?_, fun n e he => ?_, h.unowned, fun j x hj hx hm => ?_⟩
  · rw [record_settledPath] at hx
    split at hx
    · obtain rfl := Option.some.inj hx
      rwa [hwidth]
    · exact h.width j x hx
  · rw [record_settledPath] at hx
    split at hx
    next hj =>
      subst hj
      obtain rfl := Option.some.inj hx
      rw [enable_settledPath, if_pos ⟨by omega, by omega, by omega⟩, hhalf, Path.contentOf, if_neg fun hc => howner hc.1]
    next hj =>
      rw [lit_settledPath_of_ne hfree hj] at hl
      have hold := h.lights j x hx hl n h2 h3
      rw [enable_settledPath, if_neg, hold]
      · rfl
      · rintro ⟨-, h4, h5⟩
        rw [hfree n h4 h5] at hold
        cases hold
  · rw [enable_settledPath] at he
    split at he
    next hn =>
      obtain rfl := Option.some.inj he
      exact ⟨_, by rw [record_settledPath, if_pos rfl], by omega, by omega⟩
    next =>
      rw [record_settledPath, if_neg (h.ref_ne_of_record_none hrec he)]
      exact h.within n e he
  · rw [record_settledPath] at hx
    split at hx
    next hji => exact absurd (hji ▸ hj) howner
    next => exact h.owned j x hj hx hm

end Settled

end Sys2Proof.Machine
end


section
/-! PROOFS. The laws that OutputLawsAreKept and ContextLawsAreKept follow through a step, as one invariant of the operations between
which a step passes: `Lawful`. Which of the laws it holds is a parameter, since each is stated from laws of its own (R101, R102, R127,
R131, R147, R154, R156, R165). -/

namespace Sys2Proof.Machine

/-! ### The invariant -/

/-- The laws that are followed. The contexts below `cut` have been settled against the installed copy: their records are lit, and a
record at `cut` or above may be dark (R73, R158). -/
structure Laws where
  role : Prop
  fits : Prop
  alert : Prop
  door : Prop
  mute : Prop
  path : Prop
  cut : Nat
  fits_of_path : path → fits
  mute_of_alert : alert → mute
  mute_of_door : door → mute

/-- Where the audio port stands within a step: re-reckoned; owned by a context of a call whose record the freed block took along; or
to be re-reckoned (R154, R157). -/
inductive PortPhase where
  | reckoned
  | freed (c : CallId)
  | open_

/-- What holds of the port in each phase. -/
def PortPhase.holds : PortPhase → State → Prop
  | .reckoned, s => s.path.owner = s.path.bestOwner
  | .freed c, s => ∀ i x, s.path.owner = some i → s.path.record i = none → s.ctx i = some x → x.cid = c
  | .open_, _ => True

/-- A context of this call may settle in the phase. -/
def PortPhase.spares : PortPhase → CallId → Prop
  | .reckoned, _ => True
  | .freed c, d => d ≠ c
  | .open_, _ => False

/-- The live contexts and those outside CLEARING keep the role's limits (R101). -/
def State.WithinRole (s : State) : Prop := s.liveCount ≤ s.role.limit ∧ (s.role ≠ .desk → s.activeCount ≤ 1)

/-- What mutes is in CLEARING (R156). -/
def MuteLaw (s : State) : Prop := ∀ i r x, s.path.record i = some r → r.stage = .mute → s.ctx i = some x → x.state = .clearing

/-- Context i's record against its context and the copy; the context named by `l`, which an operation is about to clear or open, need
not fit yet (R147, R156, R158). -/
structure Stands (k : Laws) (l : Option Ref) (s : State) (i : Ref) (r : PathRec) (x : Ctx) : Prop where
  half : r.sendHalf = x.side.sendHalf
  fits : l ≠ some i → r.Fits x s.now
  held : s.path.lit i = true → s.smu.blockOf x.cid = some r.block
  dark : s.path.lit i = false → k.cut ≤ i.val ∧ r.stage ≠ .mute ∧ s.smu.blockOf x.cid ≠ some r.block

/-- The followed laws hold between two operations of a step. -/
structure Lawful (l : Option Ref) (p : PortPhase) (k : Laws) (s : State) : Prop where
  role : k.role → s.WithinRole
  fits : k.fits → ContextLaw s
  alert : k.alert → AlertLaw s
  door : k.door → DoorLaw s
  mute : k.mute → MuteLaw s
  slots : k.path → SlotLaw s.smu
  wired : k.path → s.path.Wired
  stands : k.path → ∀ i r, s.path.record i = some r → ∃ x, s.ctx i = some x ∧ Stands k l s i r x
  port : k.path → p.holds s

/-! ### Role limits -/

theorem activeCount_le {s t : State} (h : ∀ j, t.outsideClearing j = true → s.outsideClearing j = true) : t.activeCount ≤ s.activeCount :=
  List.countP_mono_left fun j _ => h j

theorem liveCount_le {s t : State} (h : ∀ j, (t.ctx j).isSome = true → (s.ctx j).isSome = true) : t.liveCount ≤ s.liveCount :=
  List.countP_mono_left fun j _ => h j

theorem outsideClearing_iff {s : State} {j : Ref} : s.outsideClearing j = true ↔ ∃ x, s.ctx j = some x ∧ x.state ≠ .clearing := by
  unfold State.outsideClearing
  cases s.ctx j <;> simp

/-- No context becomes live, and none leaves CLEARING. -/
theorem State.WithinRole.mono {s t : State} (h : s.WithinRole) (hr : t.role = s.role)
    (hx : ∀ j x, t.ctx j = some x → ∃ y, s.ctx j = some y ∧ (y.state = .clearing → x.state = .clearing)) : t.WithinRole := by
  obtain ⟨h1, h2⟩ := h
  rw [State.WithinRole, hr]
  refine ⟨(liveCount_le fun j hj => ?_).trans h1, fun hd => (activeCount_le fun j hj => ?_).trans (h2 hd)⟩
  · obtain ⟨x, hx'⟩ := Option.isSome_iff_exists.mp hj
    obtain ⟨y, hy, -⟩ := hx j x hx'
    rw [hy]; rfl
  · obtain ⟨x, hx', hs⟩ := outsideClearing_iff.mp hj
    obtain ⟨y, hy, hc⟩ := hx j x hx'
    exact outsideClearing_iff.mpr ⟨y, hy, fun h => hs (hc h)⟩

/-! ### What the invariant reads -/

/-- From s to t no law's subject changes; the clock may run on. -/
structure Alike (s t : State) : Prop where
  ctxs : t.ctxs = s.ctxs
  path : t.path = s.path
  alerting : t.oku.alerting = s.oku.alerting
  door : t.oku.door = s.oku.door
  smu : t.smu = s.smu
  now : s.now ≤ t.now
  role : t.role = s.role

/-- From s to t context i, its alerting and its door request alone may have changed. -/
structure Touches (i : Ref) (s t : State) : Prop where
  ctx : ∀ j, j ≠ i → t.ctx j = s.ctx j
  alerting : ∀ j : Ref, j ≠ i → t.oku.alerting[j] = s.oku.alerting[j]
  door : ∀ j : Ref, j ≠ i → t.oku.door[j] = s.oku.door[j]
  path : t.path = s.path
  smu : t.smu = s.smu
  now : s.now ≤ t.now
  role : t.role = s.role

section Reads

variable {i : Ref} {s t u : State}

theorem Alike.refl (s : State) : Alike s s := ⟨rfl, rfl, rfl, rfl, rfl, le_refl _, rfl⟩

theorem Alike.trans (h : Alike s t) (k : Alike t u) : Alike s u :=
  ⟨k.ctxs.trans h.ctxs, k.path.trans h.path, k.alerting.trans h.alerting, k.door.trans h.door, k.smu.trans h.smu, h.now.trans k.now,
    k.role.trans h.role⟩

theorem Alike.ctx (h : Alike s t) (j : Ref) : t.ctx j = s.ctx j := State.ctx_congr h.ctxs j

theorem Alike.touches (h : Alike s t) (i : Ref) : Touches i s t :=
  ⟨fun j _ => h.ctx j, fun j _ => by rw [h.alerting], fun j _ => by rw [h.door], h.path, h.smu, h.now, h.role⟩

theorem Touches.trans (h : Touches i s t) (k : Touches i t u) : Touches i s u :=
  ⟨fun j hj => (k.ctx j hj).trans (h.ctx j hj), fun j hj => (k.alerting j hj).trans (h.alerting j hj),
    fun j hj => (k.door j hj).trans (h.door j hj), k.path.trans h.path, k.smu.trans h.smu, h.now.trans k.now, k.role.trans h.role⟩

theorem touches_setCtx (s : State) (i : Ref) (c : Option Ctx) : Touches i s (s.setCtx i c) :=
  ⟨fun j hj => by rw [State.ctx_setCtx, if_neg hj], fun _ _ => rfl, fun _ _ => rfl, rfl, rfl, le_refl _, rfl⟩

theorem door_setAlerting (s : State) (i : Ref) (b : Bool) : (s.setAlerting i b).oku.door = s.oku.door := by
  show (Oku.followAlerting _ s.now).door = _
  unfold Oku.followAlerting
  repeat' split
  all_goals rfl

theorem touches_setAlerting (s : State) (i : Ref) (b : Bool) : Touches i s (s.setAlerting i b) :=
  ⟨fun _ _ => rfl, fun j hj => (alerting_setAlerting s i j b).trans (if_neg hj), fun j _ => by rw [door_setAlerting], rfl, rfl, le_refl _,
    rfl⟩

theorem door_setDoor (s : State) (i j : Ref) (e : Timer) : (s.setDoor i e).oku.door[j] = if j = i then e else s.oku.door[j] := by
  unfold State.setDoor
  by_cases h : j = i
  · subst h; simp
  · simp [h, Vector.getElem_set_ne, Fin.val_ne_of_ne (Ne.symm h)]

theorem touches_setDoor (s : State) (i : Ref) (e : Timer) : Touches i s (s.setDoor i e) :=
  ⟨fun _ _ => rfl, fun _ _ => rfl, fun j hj => (door_setDoor s i j e).trans (if_neg hj), rfl, rfl, le_refl _, rfl⟩

/-- A record keeps fitting as the clock runs on. -/
theorem PathRec.Fits.mono {r : PathRec} {x : Ctx} {m n : Nat} (h : r.Fits x m) (hle : m ≤ n) : r.Fits x n := by
  unfold PathRec.Fits at h ⊢
  cases hs : r.stage <;> simp only [hs] at h ⊢
  · exact h
  · exact h
  · exact h
  · obtain ⟨h1, h2, h3, h4, h5, h6, e, he, hle'⟩ := h
    exact ⟨h1, h2, h3, h4, h5, h6, e, he, by omega⟩

end Reads

/-! ### One context touched -/

/-- Context i as t leaves it suits the followed laws. -/
structure Suits (l : Option Ref) (p : PortPhase) (k : Laws) (i : Ref) (s t : State) : Prop where
  role : k.role → t.WithinRole
  fits : k.fits → ∀ x, t.ctx i = some x → x.Fits
  alert : k.alert → (t.oku.alerting[i] = true ↔ ∃ y, t.ctx i = some y ∧ y.state = .alerting)
  door : k.door → t.oku.door[i] ≠ none → ∃ y, t.ctx i = some y ∧ y.side = .answer ∧ y.state = .talk
  mute : k.mute → ∀ r x, s.path.record i = some r → r.stage = .mute → t.ctx i = some x → x.state = .clearing
  stands : k.path → ∀ r, s.path.record i = some r → ∃ x, t.ctx i = some x ∧ Stands k l s i r x
  port : k.path → ∀ c, p = .freed c → ∀ x, t.ctx i = some x → ∃ y, s.ctx i = some y ∧ y.cid = x.cid

section Touch

variable {l : Option Ref} {p : PortPhase} {k : Laws} {i : Ref} {s t : State}

theorem Stands.later {r : PathRec} {x : Ctx} (h : Stands k l s i r x) (hp : t.path = s.path) (hm : t.smu = s.smu) (hn : s.now ≤ t.now) :
    Stands k l t i r x :=
  ⟨h.half, fun hl => (h.fits hl).mono hn, by rw [hp, hm]; exact h.held, by rw [hp, hm]; exact h.dark⟩

/-- The laws outlast whatever touches one context and leaves it suiting them. -/
theorem Lawful.touch (h : Lawful l p k s) (ht : Touches i s t) (hi : Suits l p k i s t) : Lawful l p k t where
  role := hi.role
  fits hk j x hx := by
    by_cases hj : j = i
    · exact hi.fits hk x (hj ▸ hx)
    · exact h.fits hk j x (ht.ctx j hj ▸ hx)
  alert hk j := by
    by_cases hj : j = i
    · subst hj; exact hi.alert hk
    · rw [ht.alerting j hj, ht.ctx j hj]; exact h.alert hk j
  door hk j := by
    by_cases hj : j = i
    · subst hj; exact hi.door hk
    · rw [ht.door j hj, ht.ctx j hj]; exact h.door hk j
  mute hk j r x hr hs hx := by
    rw [ht.path] at hr
    by_cases hj : j = i
    · subst hj; exact hi.mute hk r x hr hs hx
    · exact h.mute hk j r x hr hs (ht.ctx j hj ▸ hx)
  slots hk := by rw [ht.smu]; exact h.slots hk
  wired hk := by rw [ht.path]; exact h.wired hk
  stands hk j r hr := by
    rw [ht.path] at hr
    by_cases hj : j = i
    · subst hj
      obtain ⟨x, hx, hst⟩ := hi.stands hk r hr
      exact ⟨x, hx, hst.later ht.path ht.smu ht.now⟩
    · obtain ⟨x, hx, hst⟩ := h.stands hk j r hr
      exact ⟨x, (ht.ctx j hj).trans hx, hst.later ht.path ht.smu ht.now⟩
  port hk := by
    have hp := h.port hk
    cases p with
    | reckoned => rw [PortPhase.holds, ht.path]; exact hp
    | open_ => trivial
    | freed c =>
      intro j x ho hr hx
      rw [ht.path] at ho hr
      by_cases hj : j = i
      · subst hj
        obtain ⟨y, hy, hc⟩ := hi.port hk c rfl x hx
        exact hc ▸ hp j y ho hr hy
      · exact hp j x ho hr (ht.ctx j hj ▸ hx)

/-- The laws read nothing else. -/
theorem Lawful.alike (h : Lawful l p k s) (ht : Alike s t) : Lawful l p k t := by
  refine h.touch (ht.touches 0) ⟨fun hk => (h.role hk).mono ht.role fun j x hx => ?_, fun hk x hx => ?_, fun hk => ?_, fun hk => ?_,
    fun hk r x hr hs hx => ?_, fun hk r hr => ?_, fun hk c _ x hx => ?_⟩
  · exact ⟨x, ht.ctx j ▸ hx, id⟩
  · exact h.fits hk 0 x (ht.ctx 0 ▸ hx)
  · rw [ht.alerting, ht.ctx]; exact h.alert hk 0
  · rw [ht.door, ht.ctx]; exact h.door hk 0
  · exact h.mute hk 0 r x hr hs (ht.ctx 0 ▸ hx)
  · rw [ht.ctx]; exact h.stands hk 0 r hr
  · exact ⟨x, ht.ctx 0 ▸ hx, rfl⟩

/-- A re-reckoned port serves any phase. -/
theorem Lawful.anyPort (h : Lawful l .reckoned k s) (p : PortPhase) : Lawful l p k s where
  __ := h
  port hk := by
    have hp := h.port hk
    cases p with
    | reckoned => exact hp
    | open_ => trivial
    | freed c =>
      intro i x ho hr _
      obtain ⟨r, hr', -⟩ := Path.bestOwner_some ((show s.path.owner = s.path.bestOwner from hp) ▸ ho)
      rw [hr] at hr'
      cases hr'

theorem Lawful.openPort (h : Lawful l p k s) : Lawful l .open_ k s := { h with port := fun _ => trivial }

theorem Lawful.loosen (h : Lawful none p k s) (i : Ref) : Lawful (some i) p k s where
  __ := h
  stands hk j r hr := by
    obtain ⟨x, hx, hst⟩ := h.stands hk j r hr
    exact ⟨x, hx, hst.half, fun _ => hst.fits nofun, hst.held, hst.dark⟩

theorem Lawful.tighten (h : Lawful (some i) p k s)
    (hfit : k.path → ∀ r x, s.path.record i = some r → s.ctx i = some x → r.Fits x s.now) : Lawful none p k s where
  __ := h
  stands hk j r hr := by
    obtain ⟨x, hx, hst⟩ := h.stands hk j r hr
    refine ⟨x, hx, hst.half, fun _ => ?_, hst.held, hst.dark⟩
    by_cases hj : j = i
    · subst hj; exact hfit hk r x hr hx
    · exact hst.fits (by simpa using Ne.symm hj)

/-! ### A live context replaced -/

/-- A live context replaced by one of the same call: a context of the same state, path and wait keeps its record, any other has none. -/
theorem Lawful.setCtx (h : Lawful l p k s) {x y : Ctx} (hx : s.ctx i = some x) (hfit : k.fits → x.Fits → y.Fits) (hcid : y.cid = x.cid)
    (halert : y.state = .alerting ↔ x.state = .alerting)
    (hdoor : x.side = .answer → x.state = .talk → y.side = .answer ∧ y.state = .talk) (hclear : x.state = .clearing → y.state = .clearing)
    (hrec : (y.side = x.side ∧ (l ≠ some i → y.state = x.state ∧ (x.state = .clearing ∨ y.path = x.path) ∧ y.awaits = x.awaits))
      ∨ (k.path → s.path.record i = none)) :
    Lawful l p k (s.setCtx i (some y)) := by
  have hy : (s.setCtx i (some y)).ctx i = some y := by rw [State.ctx_setCtx, if_pos rfl]
  refine h.touch (touches_setCtx s i _) ⟨fun hk => (h.role hk).mono rfl fun j z hz => ?_, fun hk z hz => ?_, fun hk => ?_,
    fun hk hd => ?_, fun hk r z hr hs hz => ?_, fun hk r hr => ?_, fun hk c _ z hz => ?_⟩
  · rw [State.ctx_setCtx] at hz
    split at hz
    next hj =>
      obtain rfl := Option.some.inj hz
      exact ⟨x, hj ▸ hx, hclear⟩
    next => exact ⟨z, hz, id⟩
  · obtain rfl := Option.some.inj (hy.symm.trans hz)
    exact hfit hk (h.fits hk i x hx)
  · rw [hy]
    simpa [hx, halert] using h.alert hk i
  · obtain ⟨z, hz, h1, h2⟩ := h.door hk i hd
    obtain rfl := Option.some.inj (hx.symm.trans hz)
    exact ⟨y, hy, hdoor h1 h2⟩
  · obtain rfl := Option.some.inj (hy.symm.trans hz)
    exact hclear (h.mute hk i r x hr hs hx)
  · rcases hrec with ⟨h1, hsame⟩ | hnone
    · obtain ⟨x', hx', hst⟩ := h.stands hk i r hr
      obtain rfl := Option.some.inj (hx.symm.trans hx')
      refine ⟨y, hy, hst.half.trans (by rw [h1]), fun hl => ?_, by rw [hcid]; exact hst.held, by rw [hcid]; exact hst.dark⟩
      have hfit := hst.fits hl
      obtain ⟨h2, h3, h4⟩ := hsame hl
      unfold PathRec.Fits at hfit ⊢
      rw [h1, h2, h4]
      rcases h3 with hc | h3
      · cases hst : r.stage <;> simp only [hst] at hfit ⊢
        · exact absurd (hfit.2.1.symm.trans hc) (by simp)
        · exact absurd (hfit.2.1.symm.trans hc) (by simp)
        · exact absurd (hfit.2.1.symm.trans hc) (by simp)
        · exact hfit
      · rw [h3]
        exact hfit
    · rw [hnone hk] at hr
      cases hr
  · obtain rfl := Option.some.inj (hy.symm.trans hz)
    exact ⟨x, hx, hcid.symm⟩

/-- Nothing of OKU or PATH belongs to context i. -/
structure Bare (k : Laws) (s : State) (i : Ref) : Prop where
  alert : k.alert → s.oku.alerting[i] = false
  door : k.door → s.oku.door[i] = none
  record : k.path → s.path.record i = none

/-- A context of which nothing is left elsewhere is freed. -/
theorem Lawful.vacate (h : Lawful l p k s) (hb : Bare k s i) : Lawful l p k (s.setCtx i none) := by
  have hy : (s.setCtx i none).ctx i = none := by rw [State.ctx_setCtx, if_pos rfl]
  refine h.touch (touches_setCtx s i _) ⟨fun hk => (h.role hk).mono rfl fun j z hz => ?_, fun hk z hz => ?_, fun hk => ?_,
    fun hk hd => absurd (hb.door hk) hd, fun hk r z hr hs hz => ?_, fun hk r hr => ?_, fun hk c _ z hz => ?_⟩
  · rw [State.ctx_setCtx] at hz
    split at hz
    · cases hz
    · exact ⟨z, hz, id⟩
  · rw [hy] at hz; cases hz
  · have ha : (s.setCtx i none).oku.alerting[i] = false := hb.alert hk
    rw [ha, hy]; simp
  · rw [hy] at hz; cases hz
  · rw [hb.record hk] at hr; cases hr
  · rw [hy] at hz; cases hz

/-! ### What a state says of the record -/

/-- Outside SETTLING, TALK and CLEARING a context has no record (R147). -/
theorem Lawful.record_none (h : Lawful l p k s) (hk : k.path) (hl : l ≠ some i) {x : Ctx} (hx : s.ctx i = some x)
    (hs : x.state ≠ .settling ∧ x.state ≠ .talk ∧ (x.state = .clearing → x.awaits ≠ .pathOff)) : s.path.record i = none := by
  cases hr : s.path.record i with
  | none => rfl
  | some r =>
    obtain ⟨x', hx', hst⟩ := h.stands hk i r hr
    obtain rfl := Option.some.inj (hx.symm.trans hx')
    have hf := hst.fits hl
    unfold PathRec.Fits at hf
    cases hst : r.stage <;> simp only [hst] at hf
    · exact absurd hf.2.1 hs.1
    · exact absurd hf.2.1 hs.1
    · exact absurd hf.2.1 hs.2.1
    · exact absurd hf.2.2.1 (hs.2.2 hf.2.1)

theorem Lawful.record_none_of_free (h : Lawful l p k s) (hk : k.path) (hx : s.ctx i = none) : s.path.record i = none := by
  cases hr : s.path.record i with
  | none => rfl
  | some r =>
    obtain ⟨x', hx', -⟩ := h.stands hk i r hr
    rw [hx] at hx'
    cases hx'

/-- A context outside ALERTING and TALK has nothing at OKU. -/
theorem Lawful.bare (h : Lawful l p k s) {x : Ctx} (hx : s.ctx i = some x) (ha : x.state ≠ .alerting) (ht : x.state ≠ .talk)
    (hr : k.path → s.path.record i = none) : Bare k s i where
  alert hk := by
    rw [← Bool.not_eq_true, h.alert hk i]
    rintro ⟨y, hy, hs⟩
    obtain rfl := Option.some.inj (hx.symm.trans hy)
    exact ha hs
  door hk := by
    by_contra hd
    obtain ⟨y, hy, -, hs⟩ := h.door hk i hd
    obtain rfl := Option.some.inj (hx.symm.trans hy)
    exact ht hs
  record := hr

theorem Lawful.bare_of_free (h : Lawful l p k s) (hx : s.ctx i = none) : Bare k s i where
  alert hk := by
    rw [← Bool.not_eq_true, h.alert hk i, hx]
    simp
  door hk := by
    by_contra hd
    obtain ⟨y, hy, -⟩ := h.door hk i hd
    rw [hx] at hy
    cases hy
  record hk := h.record_none_of_free hk hx

end Touch

end Sys2Proof.Machine
end


section
/-! PROOFS. PATH's own operations keep the followed laws: the re-reckoning, the cut, the teardown and the settle command (R149, R154,
R156, R158). -/

namespace Sys2Proof.Machine

section PathOps

variable {l : Option Ref} {p : PortPhase} {k : Laws} {i : Ref} {s t : State}

/-- PATH alone changes, in agreement with its records. -/
theorem Lawful.withPath (h : Lawful l p k s) {q : Path} {p' : PortPhase} (hmute : k.mute → MuteLaw { s with path := q })
    (hwired : k.path → q.Wired)
    (hstands : k.path → ∀ i r, q.record i = some r → ∃ x, s.ctx i = some x ∧ Stands k l { s with path := q } i r x)
    (hport : k.path → p'.holds { s with path := q }) : Lawful l p' k { s with path := q } :=
  ⟨h.role, h.fits, h.alert, h.door, hmute, h.slots, hwired, hstands, hport⟩

/-- A record that stays as it was, as lit as it was, stands. -/
theorem Stands.relit {r : PathRec} {x : Ctx} (h : Stands k l s i r x) {q : Path} (hl : q.lit i = s.path.lit i) :
    Stands k l { s with path := q } i r x :=
  ⟨h.half, h.fits, fun hq => h.held (hl ▸ hq), fun hq => h.dark (hl ▸ hq)⟩

theorem alike_postPath (s : State) (i : Ref) (b : Bool) : Alike s (s.postPath i b) := by
  unfold State.postPath
  split
  · exact ⟨by simp, by simp, by simp, by simp, by simp, by simp, by simp [State.role]⟩
  · exact .refl s

theorem alike_reckoned (s : State) : Alike { s with path := s.path.reckoned } s.reckonOwner :=
  ⟨by simp, reckonOwner_reckoned s, by simp, by simp, by simp, by simp, by simp [State.role]⟩

/-- The port's best owner takes it (R154). -/
theorem Lawful.reckonOwner (h : Lawful l p k s) : Lawful l .reckoned k s.reckonOwner := by
  refine Lawful.alike ?_ (alike_reckoned s)
  refine h.withPath (fun hk i r x hr => ?_) (fun hk => (h.wired hk).reckoned) (fun hk i r hr => ?_) fun hk => ?_
  · exact h.mute hk i r x (by simpa using hr)
  · obtain ⟨x, hx, hst⟩ := h.stands hk i r (by simpa using hr)
    exact ⟨x, hx, hst.relit ((h.wired hk).lit_reckoned i)⟩
  · show s.path.reckoned.owner = s.path.reckoned.bestOwner
    rw [Path.owner_reckoned, (h.wired hk).bestOwner_reckoned]

/-- The cut of a record (R158). -/
theorem Lawful.cutPath (h : Lawful l p k s) (i : Ref) : Lawful l .open_ k (s.cutPath i) := by
  refine h.withPath (q := s.path.remove i) (fun hk j r x hr => ?_) (fun hk => ((h.wired hk).remove i).1) (fun hk j r hr => ?_)
    fun _ => trivial
  · rw [Path.record_remove] at hr
    split at hr
    · cases hr
    · exact h.mute hk j r x hr
  · rw [Path.record_remove] at hr
    split at hr
    · cases hr
    next hj =>
      obtain ⟨x, hx, hst⟩ := h.stands hk j r hr
      refine ⟨x, hx, hst.relit ?_⟩
      rw [Bool.eq_iff_iff, ((h.wired hk).remove i).2]
      simp [hj]

theorem record_cutPath (s : State) (i : Ref) : (s.cutPath i).path.record i = none :=
  (Path.record_remove s.path i i).trans (if_pos rfl)

/-! ### Teardown -/

/-- A record as the teardown command leaves it lit: in MUTE for 10 ms (R156). -/
def PathRec.muting (r : PathRec) (now : Nat) : PathRec := { r.stopped with stage := .mute, muteTimer := some (now + Config.muteMs) }

/-- PATH with a lit record torn down, before the owner is re-reckoned (R156). -/
def State.mutedPath (s : State) (i : Ref) (r : PathRec) : Path := (s.path.setRec i (some (r.muting s.now))).setContent i .silence

theorem teardown_lit {r : PathRec} (hr : s.path.record i = some r) (hl : s.path.lit i = true) :
    s.teardown i = State.reckonOwner { s with path := s.mutedPath i r } := by
  have hd : s.pathDark i = false := by rw [State.pathDark, hl]; rfl
  unfold State.teardown
  rw [hr]
  dsimp only
  rw [hd]
  rfl

theorem teardown_unlit (hl : s.path.lit i = false) :
    (s.teardown i = s ∧ s.path.record i = none) ∨ s.teardown i = (s.cutPath i).reckonOwner := by
  have hd : s.pathDark i = true := by rw [State.pathDark, hl]; rfl
  unfold State.teardown
  cases hr : s.path.record i with
  | none => exact .inl ⟨rfl, rfl⟩
  | some r => dsimp only; rw [hd]; exact .inr rfl

theorem record_mutedPath (r : PathRec) (j : Ref) :
    (s.mutedPath i r).record j = if j = i then some (r.muting s.now) else s.path.record j := by
  simp [State.mutedPath]

theorem lit_setRec_muting {r : PathRec} (hr : s.path.record i = some r) :
    (s.path.setRec i (some (r.muting s.now))).lit i = s.path.lit i := by
  rw [Bool.eq_iff_iff, Path.lit_iff hr, Path.lit_iff (r := r.muting s.now) (by simp)]
  exact Iff.rfl

theorem enable_mutedPath {r : PathRec} (h : s.path.Wired) (hr : s.path.record i = some r) (n : Nat) :
    (s.mutedPath i r).enable n = if s.path.lit i = true ∧ r.base ≤ n ∧ n < r.base + r.width
      then some ⟨i, r.sendHalf, (s.mutedPath i r).contentOf i (r.muting s.now)⟩ else s.path.enable n := by
  have hc : (s.mutedPath i r).contentOf i (r.muting s.now) = .silence := by simp [Path.contentOf, PathRec.muting]
  have hrec : (s.path.setRec i (some (r.muting s.now))).record i = some (r.muting s.now) := by simp
  rw [hc, State.mutedPath, Path.enable_setContent hrec, lit_setRec_muting hr, Path.enable_setRec]
  by_cases hn : s.path.lit i = true ∧ r.base ≤ n ∧ n < r.base + r.width
  · rw [if_pos hn, if_pos ⟨hn.1, Path.enable_lt (h.lights i r hr hn.1 n hn.2.1 hn.2.2), hn.2⟩]
    rfl
  · rw [if_neg hn, if_neg fun hm => hn ⟨hm.1, hm.2.2⟩]

theorem mutedPath_port (s : State) (i : Ref) (r : PathRec) : (s.mutedPath i r).owner = s.path.owner
    ∧ (s.mutedPath i r).gate = s.path.gate ∧ (s.mutedPath i r).rate = s.path.rate := by
  unfold State.mutedPath Path.setContent
  repeat' split
  all_goals exact ⟨rfl, rfl, rfl⟩

/-- A lit record of a context in CLEARING torn down: it mutes, in silence, and the port passes on (R156). -/
theorem Lawful.mutedPath (h : Lawful (some i) p k s) {y : Ctx} (hy : s.ctx i = some y) (hs : y.state = .clearing) {r : PathRec}
    (hr : s.path.record i = some r) (hl : s.path.lit i = true) :
    Lawful (some i) .open_ k { s with path := s.mutedPath i r } := by
  have hlit : k.path → ∀ j, (s.mutedPath i r).lit j = s.path.lit j := fun hk =>
    (h.wired hk).lit_redraw (r' := r.muting s.now) hr rfl (record_mutedPath r) (enable_mutedPath (h.wired hk) hr)
  obtain ⟨ho, hg, hra⟩ := mutedPath_port s i r
  refine h.withPath (fun hk j x z hx hm hz => ?_) (fun hk => ?_) (fun hk j x hx => ?_) fun _ => trivial
  · have hx' : (s.mutedPath i r).record j = some x := hx
    rw [record_mutedPath] at hx'
    split at hx'
    next hj =>
      subst hj
      obtain rfl := Option.some.inj (hy.symm.trans hz)
      exact hs
    next => exact h.mute hk j x z hx' hm hz
  · exact (h.wired hk).redraw (r' := r.muting s.now) hr rfl rfl (record_mutedPath r) ho (enable_mutedPath (h.wired hk) hr)
      (fun _ hm => absurd rfl hm) fun _ => ⟨hg, hra⟩
  · rw [record_mutedPath] at hx
    split at hx
    next hj =>
      subst hj
      obtain rfl := Option.some.inj hx
      obtain ⟨z, hz, hst⟩ := h.stands hk j r hr
      refine ⟨z, hz, hst.half, fun hn => absurd rfl hn, fun _ => hst.held hl, fun hd => ?_⟩
      rw [hlit hk, hl] at hd
      cases hd
    next =>
      obtain ⟨z, hz, hst⟩ := h.stands hk j x hx
      exact ⟨z, hz, hst.relit (hlit hk j)⟩

/-! ### The settle command -/

/-- Each call id is held once, on a block within the channels. -/
theorem SlotLaw.holdOf_aligned {m : Smu} (h : SlotLaw m) {c : CallId} {k : Hold} (hk : m.holdOf c = some k) :
    0 < k.width ∧ k.base + k.width ≤ 24 :=
  ⟨(h.1 k (holdOf_some hk).1).width_pos, (h.1 k (holdOf_some hk).1).2.2⟩

/-- A new record fits its context in SETTLING (R149, R150). -/
theorem fits_newPathRec {x : Ctx} {b : Block} (hs : x.state = .settling) (hp : x.path = some b) (trimmed : Bool) :
    (s.newPathRec x.side b trimmed).Fits x s.now := by
  unfold State.newPathRec
  dsimp only
  split
  · exact ⟨rfl, hs, hp, rfl, rfl⟩
  · exact ⟨rfl, hs, hp, rfl, rfl, rfl⟩

/-- The port is not owned by a context that has no record and may settle. -/
theorem PortPhase.owner_ne {x : Ctx} (h : p.holds s) (hp : p.spares x.cid) (hx : s.ctx i = some x) (hr : s.path.record i = none) :
    s.path.owner ≠ some i := by
  intro ho
  cases p with
  | reckoned =>
    obtain ⟨r, hr', -⟩ := Path.bestOwner_some ((show s.path.owner = s.path.bestOwner from h) ▸ ho)
    rw [hr] at hr'
    cases hr'
  | freed c => exact hp (h i x ho hr hx)
  | open_ => exact hp

/-- A met settle command: the record is made on the block that the copy holds for the call (R148, R149, R154). -/
theorem Lawful.startSettle (h : Lawful none p k s) {x : Ctx} {b : Block} (hx : s.ctx i = some x) (hs : x.state = .settling)
    (hb : x.path = some b) (hp : k.path → p.spares x.cid) (hr : s.path.record i = none) (hmet : s.settleMet i x.cid b = true)
    (trimmed : Bool) : Lawful none .reckoned k (s.startSettle i x.side b trimmed) := by
  obtain ⟨-, ⟨hold, hhold, hblock⟩, hfree⟩ := settleMet_iff.mp hmet
  obtain ⟨hnew, hhalf, -, hmute, -⟩ := newPathRec_fields s x.side b trimmed
  have hoff : k.path → ∀ n, b.1 ≤ n → n < b.1 + b.2 → s.path.enable n = none := fun hk n h1 h2 => by
    cases he : s.path.enable n with
    | none => rfl
    | some e => exact absurd (hfree n h1 h2 e he) ((h.wired hk).ref_ne_of_record_none hr he)
  have hin : k.path → 0 < b.2 ∧ b.1 + b.2 ≤ 24 := fun hk => hblock ▸ (h.slots hk).holdOf_aligned hhold
  refine Lawful.reckonOwner (p := .open_) (h.withPath (q := s.settledPath i x.side b trimmed) (fun hk j r z hr' hm hz => ?_)
    (fun hk => ?_) (fun hk j r hr' => ?_) fun _ => trivial)
  · rw [show ({ s with path := s.settledPath i x.side b trimmed } : State).path.record j = _ from record_settledPath j] at hr'
    split at hr'
    · obtain rfl := Option.some.inj hr'
      exact absurd hm hmute
    · exact h.mute hk j r z hr' hm hz
  · exact (h.wired hk).settledPath hr (PortPhase.owner_ne (h.port hk) (hp hk) hx hr) (hoff hk) (hin hk).1 (hin hk).2
  · rw [record_settledPath] at hr'
    split at hr'
    next hj =>
      subst hj
      obtain rfl := Option.some.inj hr'
      refine ⟨x, hx, hhalf, fun _ => fits_newPathRec hs hb trimmed, fun _ => ?_, fun hd => ?_⟩
      · rw [hnew]
        exact Smu.blockOf_eq_some_iff.mpr ⟨hold, hhold, hblock.symm⟩
      · have hd' : (s.settledPath j x.side b trimmed).lit j = false := hd
        rw [lit_settledPath (hin hk).1 (hin hk).2] at hd'
        cases hd'
    next hj =>
      obtain ⟨z, hz, hst⟩ := h.stands hk j r hr'
      exact ⟨z, hz, hst.relit (lit_settledPath_of_ne (hoff hk) hj)⟩

end PathOps

end Sys2Proof.Machine
end


section
/-! PROOFS. The endings and clearings of a context keep the followed laws (R121, R123, R131, R140, R156, R166). -/

namespace Sys2Proof.Machine

/-! ### Operations that no law reads -/

section AlikeOps

variable (s : State) (i : Ref)

theorem alike_post (n : Notice) : Alike s (s.post n) :=
  ⟨by simp, by simp, by simp, by simp, by simp, by simp, by simp [State.role]⟩

theorem alike_queueFrame (f : Frame) : Alike s (s.queueFrame f) :=
  ⟨by simp, by simp, by simp, by simp, by simp, by simp, by simp [State.role]⟩

theorem alike_askRecall (id : FrameId) : Alike s (s.askRecall id) :=
  ⟨by simp, by simp, by simp, by simp, by simp, by simp, by simp [State.role]⟩

theorem alike_recallCall (c : CallId) : Alike s (s.recallCall c) :=
  ⟨by simp, by simp, by simp, by simp, by simp, by simp, by simp [State.role]⟩

theorem alike_withUdir (d : Udir) : Alike s { s with udir := d } := ⟨rfl, rfl, rfl, rfl, rfl, le_refl _, rfl⟩

theorem alike_withRif (r : Rif) : Alike s { s with rif := r } := ⟨rfl, rfl, rfl, rfl, rfl, le_refl _, rfl⟩

theorem alike_withStc (c : Stc) : Alike s { s with stc := c } := ⟨rfl, rfl, rfl, rfl, rfl, le_refl _, rfl⟩

theorem alike_leaveSeek : Alike s (s.leaveSeek i) := by
  obtain ⟨d, id, h | h⟩ := leaveSeek_eq s i
  · rw [h]; exact alike_withUdir s d
  · rw [h]; exact (alike_withUdir s d).trans (alike_askRecall _ id)

theorem alike_callState (d : CallDetail) : Alike s (s.callState i d) := by
  unfold State.callState
  split
  · exact alike_post s _
  · exact .refl s

theorem touches_dropDuties : Touches i s (s.dropDuties i) :=
  (((alike_leaveSeek s i).touches i).trans (touches_setAlerting _ i false)).trans (touches_setDoor _ i none)

theorem door_dropDuties : (s.dropDuties i).oku.door[i] = none := (door_setDoor _ i i none).trans (if_pos rfl)

theorem touches_modifyCtx (f : Ctx → Ctx) : Touches i s (s.modifyCtx i f) := by
  unfold State.modifyCtx
  split
  · exact touches_setCtx s i _
  · exact (Alike.refl s).touches i

theorem touches_postEnd : Touches i s (s.postEnd i) := by
  obtain h | ⟨n, c, h⟩ := postEnd_cases s i
  · rw [h]; exact (Alike.refl s).touches i
  · rw [h]; exact ((alike_post s n).touches i).trans (touches_setCtx _ i c)

theorem touches_freeCtx : Touches i s (s.freeCtx i) := (touches_postEnd s i).trans (touches_setCtx _ i none)

theorem touches_endNow (x : Cause) : Touches i s (s.endNow i x) :=
  ((touches_modifyCtx s i _).trans (touches_dropDuties _ i)).trans (touches_freeCtx _ i)

end AlikeOps

section Endings

variable {l : Option Ref} {p : PortPhase} {k : Laws} {i : Ref} {s t : State}

/-! ### Freeing -/

/-- A change of a live context that no law reads. -/
theorem Lawful.adjust (h : Lawful l p k s) {x y : Ctx} (hx : s.ctx i = some x) (hfit : x.Fits → y.Fits) (hcid : y.cid = x.cid)
    (hside : y.side = x.side) (hstate : y.state = x.state) (hpath : y.path = x.path) (hawaits : y.awaits = x.awaits) :
    Lawful l p k (s.setCtx i (some y)) :=
  h.setCtx hx (fun _ => hfit) hcid (by rw [hstate]) (by rw [hside, hstate]; exact And.intro) (by rw [hstate]; exact id)
    (.inl ⟨hside, fun _ => ⟨hstate, .inr hpath, hawaits⟩⟩)

theorem Lawful.postEnd (h : Lawful l p k s) (i : Ref) : Lawful l p k (s.postEnd i) := by
  cases hx : s.ctx i with
  | none => rw [postEnd_of_free hx]; exact h
  | some x =>
    rw [postEnd_eq hx]
    split
    · exact h
    · exact (h.alike (alike_post s _)).adjust ((alike_post s _).ctx i |>.trans hx) id rfl rfl rfl rfl rfl

theorem Bare.of_eq (h : Bare k s i) (ho : t.oku = s.oku) (hp : t.path = s.path) : Bare k t i :=
  ⟨by rw [ho]; exact h.alert, by rw [ho]; exact h.door, by rw [hp]; exact h.record⟩

theorem Lawful.freeCtx (h : Lawful l p k s) (hb : Bare k s i) : Lawful l p k (s.freeCtx i) :=
  (h.postEnd i).vacate (hb.of_eq (postEnd_oku s i) (postEnd_path s i))

/-- A context without a record ends at once. -/
theorem Lawful.endNow (h : Lawful l p k s) (hr : k.path → s.path.record i = none) (x : Cause) : Lawful l p k (s.endNow i x) := by
  have ht := touches_endNow s i x
  have hfree := ctx_endNow s i x
  refine h.touch ht ⟨fun hk => (h.role hk).mono ht.role fun j z hz => ?_, fun _ z hz => ?_, fun _ => ?_, fun _ hd => ?_,
    fun _ r z _ _ hz => ?_, fun hk r hr' => ?_, fun _ c _ z hz => ?_⟩
  · by_cases hj : j = i
    · rw [hj, hfree] at hz; cases hz
    · exact ⟨z, ht.ctx j hj ▸ hz, id⟩
  · rw [hfree] at hz; cases hz
  · rw [alerting_endNow, hfree]; simp
  · rw [State.endNow, freeCtx_oku] at hd
    exact absurd (door_dropDuties _ i) hd
  · rw [hfree] at hz; cases hz
  · rw [hr hk] at hr'; cases hr'
  · rw [hfree] at hz; cases hz

theorem Lawful.setAwaits (h : Lawful l p k s) (hr : k.path → s.path.record i = none) (a : Awaits) :
    Lawful l p k (s.setAwaits i a) := by
  cases hx : s.ctx i with
  | none => simpa only [State.setAwaits, State.modifyCtx, hx] using h
  | some x =>
    rw [State.setAwaits, modifyCtx_live hx]
    exact h.setCtx hx (fun _ => id) rfl Iff.rfl And.intro id (.inr hr)

theorem Lawful.makeFinal (h : Lawful l p k s) (i : Ref) : Lawful l p k (s.makeFinal i) := by
  cases hx : s.ctx i with
  | none => simpa only [State.makeFinal, State.modifyCtx, hx] using h
  | some x =>
    rw [State.makeFinal, modifyCtx_live hx]
    exact h.adjust hx (fun ⟨h1, h2, h3, h4, h5, h6, _⟩ => ⟨h1, h2, h3, h4, h5, h6, nofun⟩) rfl rfl rfl rfl rfl

theorem Lawful.supersede (h : Lawful l p k s) (i : Ref) : Lawful l p k (s.supersede i) := by
  cases hx : s.ctx i with
  | none => simpa only [State.supersede, State.modifyCtx, hx] using h
  | some x =>
    rw [State.supersede, modifyCtx_live hx]
    split
    · exact h.adjust hx id rfl rfl rfl rfl rfl
    · exact h.adjust hx id rfl rfl rfl rfl rfl

/-! ### The RELEASE -/

theorem Lawful.queueRelease (h : Lawful l p k s) (hb : Bare k s i) : Lawful l p k (s.queueRelease i) := by
  unfold State.queueRelease
  split
  · dsimp only
    split
    · exact (h.alike (alike_queueFrame s _)).setAwaits (by simpa using hb.record) _
    · exact (h.alike (alike_post s _)).freeCtx (hb.of_eq (by simp) (by simp))
  · exact h

theorem Lawful.sendRelease (h : Lawful l p k s) (hb : Bare k s i) : Lawful l p k (s.sendRelease i) := by
  unfold State.sendRelease
  split
  · split
    · exact h.queueRelease hb
    · split
      · exact h.setAwaits hb.record _
      · exact h.freeCtx hb
  · exact h

/-! ### CLEARING -/

/-- A context that runs no timer fits in any state of its side. -/
theorem Ctx.fits_of_stopped {x y : Ctx} (hside : y.side = x.side) (hstate : x.side.has y.state = true) (hring : y.ring = none)
    (hwait : y.wait = none) (htalk : y.talk = none) (halert : y.alert = none) (hpath : y.pathWait = none)
    (hrev : y.reversible = true → x.side = .origin) : y.Fits := by
  refine ⟨by rw [hside]; exact hstate, by simp [hring], by simp [hwait], by simp [htalk], by simp [halert], by simp [hpath], ?_⟩
  rw [hside]
  exact hrev

theorem Side.has_clearing (d : Side) : d.has .clearing = true := by cases d <;> rfl

theorem Side.has_settling (d : Side) : d.has .settling = true := by cases d <;> rfl

/-- A context as it enters CLEARING, final or reversible (R113, R121). -/
def Ctx.entersClearing (x : Ctx) (c : Cause) (final : Bool) : Ctx :=
  { (x.stopTimers).firstCause c with
    state := .clearing, reversible := !final, forward := if x.forward = .seeking then .none else x.forward }

theorem enterClearing_eq {x : Ctx} (hx : s.ctx i = some x) (c : Cause) (final : Bool) :
    s.enterClearing i c final = if final then ((s.setCtx i (some (x.entersClearing c final))).dropDuties i).postEnd i
      else (s.setCtx i (some (x.entersClearing c final))).dropDuties i := by
  unfold State.enterClearing
  rw [modifyCtx_live hx]
  rfl

theorem ctx_enterClearing_any {x : Ctx} (hx : s.ctx i = some x) (c : Cause) (final : Bool) :
    ∃ y, (s.enterClearing i c final).ctx i = some y ∧ y.state = .clearing ∧ y.side = x.side ∧ y.cid = x.cid ∧ y.awaits = x.awaits := by
  rw [enterClearing_eq hx]
  split
  · exact ⟨{ x.entersClearing c final with endPosted := true }, by simp [ctx_postEnd], rfl, rfl, rfl, rfl⟩
  · exact ⟨x.entersClearing c final, by simp, rfl, rfl, rfl, rfl⟩

/-- A context enters CLEARING: its record, if it has one, is to be torn down or cut next. -/
theorem Lawful.enterClearing (h : Lawful none p k s) {x : Ctx} (hx : s.ctx i = some x) (c : Cause) {final : Bool}
    (hf : k.fits → final = true ∨ x.side = .origin) : Lawful (some i) p k (s.enterClearing i c final) := by
  have ht : Touches i s ((s.setCtx i (some (x.entersClearing c final))).dropDuties i) :=
    (touches_setCtx s i _).trans (touches_dropDuties _ i)
  have hy : ((s.setCtx i (some (x.entersClearing c final))).dropDuties i).ctx i = some (x.entersClearing c final) := by simp
  have hd : Lawful (some i) p k ((s.setCtx i (some (x.entersClearing c final))).dropDuties i) := by
    refine (h.loosen i).touch ht ⟨fun hk => (h.role hk).mono ht.role fun j z hz => ?_, fun hk z hz => ?_, fun _ => ?_,
      fun _ hd => absurd (door_dropDuties _ i) hd, fun _ r z _ _ hz => ?_, fun hk r hr => ?_, fun _ c' _ z hz => ?_⟩
    · by_cases hj : j = i
      · rw [hj] at hz ⊢
        obtain rfl := Option.some.inj (hy.symm.trans hz)
        exact ⟨x, hx, fun _ => rfl⟩
      · exact ⟨z, ht.ctx j hj ▸ hz, id⟩
    · obtain rfl := Option.some.inj (hy.symm.trans hz)
      refine Ctx.fits_of_stopped (x := x) (y := x.entersClearing c final) rfl x.side.has_clearing rfl rfl rfl rfl rfl fun hrev => ?_
      rcases hf hk with rfl | hside
      · cases hrev
      · exact hside
    · rw [alerting_dropDuties, hy]
      simp [Ctx.entersClearing]
    · obtain rfl := Option.some.inj (hy.symm.trans hz)
      rfl
    · obtain ⟨x', hx', hst⟩ := h.stands hk i r hr
      obtain rfl := Option.some.inj (hx.symm.trans hx')
      exact ⟨_, hy, hst.half, fun hn => absurd rfl hn, hst.held, hst.dark⟩
    · obtain rfl := Option.some.inj (hy.symm.trans hz)
      exact ⟨x, hx, rfl⟩
  rw [enterClearing_eq hx]
  split
  · exact hd.postEnd i
  · exact hd

/-- Without a record nothing is left to fit. -/
theorem Lawful.tightenBare (h : Lawful (some i) p k s) (hr : k.path → s.path.record i = none) : Lawful none p k s :=
  h.tighten fun hk r x hr' => by rw [hr hk] at hr'; cases hr'

/-- The teardown of a path whose context has entered CLEARING, and its RELEASE when it falls due (R121 step 4, R140 step 3, R156). -/
theorem Lawful.teardownThenRelease (h : Lawful (some i) p k s) {y : Ctx} (hy : s.ctx i = some y) (hs : y.state = .clearing) :
    Lawful none p k (s.teardownThenRelease i) := by
  have hfree : ∀ {t : State} {p' : PortPhase}, Lawful (some i) p' k t → t.ctx i = some y → t.path.record i = none →
      Lawful none p' k (t.sendRelease i) := fun ht hty hr =>
    (ht.tightenBare fun _ => hr).sendRelease (ht.bare hty (by simp [hs]) (by simp [hs]) fun _ => hr)
  cases hl : s.path.lit i with
  | false =>
    have hd : s.teardownThenRelease i = (s.teardown i).sendRelease i := if_pos (by rw [State.pathDark, hl]; rfl)
    rw [hd]
    rcases teardown_unlit hl with ⟨ht, hr⟩ | ht
    · rw [ht]
      exact hfree h hy hr
    · rw [ht]
      exact (hfree (h.cutPath i).reckonOwner ((ctx_reckonOwner _ i).trans hy)
        ((State.record_reckonOwner _ i).trans (record_cutPath s i))).anyPort p
  | true =>
    obtain ⟨r, hr⟩ : ∃ r, s.path.record i = some r := by
      cases hr : s.path.record i with
      | none => rw [Path.lit_none hr] at hl; cases hl
      | some r => exact ⟨r, rfl⟩
    rw [teardownThenRelease_lit hl, teardown_lit hr hl]
    have hm := (h.mutedPath hy hs hr hl).reckonOwner
    have hty : (State.reckonOwner { s with path := s.mutedPath i r }).ctx i = some y := (ctx_reckonOwner _ i).trans hy
    rw [State.setAwaits, modifyCtx_live hty]
    refine ((hm.setCtx hty (y := { y with awaits := .pathOff }) (fun _ => id) rfl Iff.rfl And.intro id
      (.inl ⟨rfl, fun hn => absurd rfl hn⟩)).tighten fun hk q z hq hz => ?_).anyPort p
    rw [State.ctx_setCtx, if_pos rfl] at hz
    obtain rfl := Option.some.inj hz
    have hq' : (s.mutedPath i r).record i = some q := by rw [← hq]; simp
    rw [record_mutedPath, if_pos rfl] at hq'
    obtain rfl := Option.some.inj hq'
    obtain ⟨z, hz', hst⟩ := h.stands hk i r hr
    obtain rfl := Option.some.inj (hy.symm.trans hz')
    exact ⟨hst.half, hs, rfl, rfl, rfl, rfl, s.now + 10, rfl, by simp⟩

/-- The clearing of an ORIGIN context outside CLEARING (R113, R121). -/
theorem Lawful.clearOrigin (h : Lawful none p k s) {x : Ctx} (hx : s.ctx i = some x) (hs : k.path → x.state ≠ .clearing) (c : Cause)
    {final : Bool} (hf : k.fits → final = true ∨ x.side = .origin) : Lawful none p k (s.clearOrigin i c final) := by
  obtain ⟨y, hy, hclear, -⟩ := ctx_enterClearing_any hx c final
  have h1 := (h.enterClearing hx c hf).alike (alike_recallCall _ x.cid)
  have hy1 := ((alike_recallCall (s.enterClearing i c final) x.cid).ctx i).trans hy
  simp only [State.clearOrigin, hx]
  split
  next => exact h1.teardownThenRelease hy1 hclear
  next hn =>
    have hr : k.path → ((s.enterClearing i c final).recallCall x.cid).path.record i = none := fun hk => by
      rw [recallCall_path, enterClearing_path]
      exact h.record_none hk nofun hx ⟨fun hc => hn (.inl hc), fun hc => hn (.inr hc), fun hc => absurd hc (hs hk)⟩
    exact (h1.tightenBare hr).sendRelease (h1.bare hy1 (by simp [hclear]) (by simp [hclear]) hr)

theorem Lawful.awaitAnswerRecall (h : Lawful none p k s) (hb : Bare k s i) (c : CallId) : Lawful none p k (s.awaitAnswerRecall i c) := by
  unfold State.awaitAnswerRecall
  split
  · exact (h.alike (alike_askRecall s _)).setAwaits (by simpa using hb.record) _
  · exact h.freeCtx hb

/-- The clearing of a context without a record leaves nothing of it elsewhere. -/
theorem Lawful.enterClearingBare (h : Lawful none p k s) {x : Ctx} (hx : s.ctx i = some x) (hr : k.path → s.path.record i = none) (c : Cause) :
    Lawful none p k (s.enterClearing i c true) ∧ Bare k (s.enterClearing i c true) i := by
  obtain ⟨y, hy, hclear, -⟩ := ctx_enterClearing_any hx c true
  have h1 := h.enterClearing hx c (final := true) fun _ => .inl rfl
  have hr1 : k.path → (s.enterClearing i c true).path.record i = none := by rwa [enterClearing_path]
  exact ⟨h1.tightenBare hr1, h1.bare hy (by simp [hclear]) (by simp [hclear]) hr1⟩

/-- The clearing of an ANSWER-side context (R140). -/
theorem Lawful.clearAnswer (h : Lawful none p k s) (i : Ref) (c : Cause) : Lawful none p k (s.clearAnswer i c) := by
  cases hx : s.ctx i with
  | none => simpa only [State.clearAnswer, hx] using h
  | some x =>
    obtain ⟨y, hy, hclear, -⟩ := ctx_enterClearing_any hx c true
    have h1 := h.enterClearing hx c (final := true) fun _ => .inl rfl
    simp only [State.clearAnswer, hx]
    split
    next hs =>
      obtain ⟨h2, hb⟩ := h.enterClearingBare hx (fun hk => h.record_none hk nofun hx (by simp [hs])) c
      exact h2.awaitAnswerRecall hb _
    next => exact h1.teardownThenRelease hy hclear
    next => exact h1.teardownThenRelease hy hclear
    next hs =>
      obtain ⟨h2, hb⟩ := h.enterClearingBare hx (fun hk => h.record_none hk nofun hx (by simp [hs])) c
      exact h2.queueRelease hb
    next hs => exact h.endNow (fun hk => h.record_none hk nofun hx (by simp [hs])) c
    next => exact h

theorem Lawful.clearCall (h : Lawful none p k s) {x : Ctx} (hx : s.ctx i = some x) (hs : k.path → x.state ≠ .clearing) (c : Cause) :
    Lawful none p k (s.clearCall i c) := by
  simp only [State.clearCall, hx]
  split
  · exact h.clearOrigin hx hs c fun _ => .inl rfl
  · exact h.clearAnswer i c

/-- An ANSWER-side context ends without a RELEASE (R132, R136, R139). -/
theorem Lawful.endAnswer (h : Lawful none p k s) (i : Ref) (c : Cause) : Lawful none p k (s.endAnswer i c) := by
  cases hx : s.ctx i with
  | none => simpa only [State.endAnswer, hx] using h
  | some x =>
    simp only [State.endAnswer, hx]
    split
    next hs =>
      obtain ⟨h2, hb⟩ := h.enterClearingBare hx (fun hk => h.record_none hk nofun hx (by simp [hs])) c
      rw [modifyCtx_live (ctx_enterClearing c hx)]
      exact (h2.adjust (y := { x.cleared c with superseded := true }) (ctx_enterClearing c hx) id rfl rfl rfl rfl rfl).awaitAnswerRecall (hb.of_eq rfl rfl) _
    next => exact h
    next => exact (((h.cutPath i).endNow (fun _ => record_cutPath s i) c).reckonOwner).anyPort p

/-- An ORIGIN context ends as another station, or a RECLAIM, ends its call (R120). -/
theorem Lawful.endOrigin (h : Lawful none p k s) (i : Ref) (c : Cause) : Lawful none p k (s.endOrigin i c) := by
  cases hx : s.ctx i with
  | none => simpa only [State.endOrigin, hx] using h
  | some x =>
    have h1 := h.enterClearing hx c (final := true) fun _ => .inl rfl
    have h2 := ((((h1.cutPath i).tightenBare fun _ => record_cutPath _ i).alike (alike_recallCall _ x.cid)).reckonOwner).anyPort p
    have hy : (((s.enterClearing i c true).cutPath i).recallCall x.cid).reckonOwner.ctx i = some (x.cleared c) :=
      (ctx_reckonOwner _ i).trans ((ctx_recallCall _ _ i).trans (ctx_enterClearing c hx))
    have hr : (((s.enterClearing i c true).cutPath i).recallCall x.cid).reckonOwner.path.record i = none := by
      rw [State.record_reckonOwner, recallCall_path]
      exact record_cutPath _ i
    simp only [State.endOrigin, hx]
    split
    · exact h2.setAwaits (fun _ => hr) _
    · exact h2.freeCtx (h2.bare hy (by simp [Ctx.cleared]) (by simp [Ctx.cleared]) fun _ => hr)

end Endings

end Sys2Proof.Machine
end


section
/-! PROOFS. Settling, placing, reversal and the outcomes of CLAIM and WAIT keep the followed laws (R7, R28, R113 to R118, R136, R138). -/

namespace Sys2Proof.Machine

section Placing

variable {p : PortPhase} {k : Laws} {i : Ref} {s t : State} {x : Ctx}

/-! ### SETTLING and WAITING -/

/-- A context that waits for its block enters SETTLING on it (R118, R138, R149). -/
theorem Lawful.enterSettling (h : Lawful none p k s) (hx : s.ctx i = some x)
    (hs : x.state = .claiming ∨ x.state = .waiting ∨ x.state = .awaitPath) (hp : k.path → p.spares x.cid) (b : Block) (trimmed : Bool) :
    Lawful none p k (s.enterSettling i b trimmed) := by
  have hne : x.state ≠ .settling ∧ x.state ≠ .talk ∧ x.state ≠ .clearing ∧ x.state ≠ .alerting := by
    rcases hs with hs | hs | hs <;> simp [hs]
  have h1 : Lawful none p k (s.setCtx i (some (x.settled b trimmed))) :=
    h.setCtx hx (fun _ hf => Ctx.fits_of_stopped (x := x) (y := x.settled b trimmed) rfl x.side.has_settling rfl rfl rfl rfl rfl hf.2.2.2.2.2.2) rfl
      (by simp [Ctx.settled, hne]) (fun _ ht => absurd ht hne.2.1) (fun hc => absurd hc hne.2.2.1)
      (.inr fun hk => h.record_none hk nofun hx ⟨hne.1, hne.2.1, fun hc => absurd hc hne.2.2.1⟩)
  have ha := alike_callState (s.setCtx i (some (x.settled b trimmed))) i (.settling b.1 b.2 trimmed)
  have h2 := h1.alike ha
  have hy : ((s.setCtx i (some (x.settled b trimmed))).callState i (.settling b.1 b.2 trimmed)).ctx i = some (x.settled b trimmed) :=
    (ha.ctx i).trans (by simp)
  simp only [State.enterSettling, hx]
  change Lawful none p k (match ((s.setCtx i (some (x.settled b trimmed))).callState i (.settling b.1 b.2 trimmed)).path.record i with
    | some _ => _
    | none => _)
  split
  next => exact h2
  next hr =>
    split
    next hmet => exact (h2.startSettle hy rfl rfl hp hr hmet trimmed).anyPort p
    next => exact h2.clearCall hy (fun _ => by simp [Ctx.settled]) _

theorem Lawful.settleOn (h : Lawful none p k s) (hx : s.ctx i = some x)
    (hs : x.state = .claiming ∨ x.state = .waiting ∨ x.state = .awaitPath) (hp : k.path → p.spares x.cid) (b : Block) :
    Lawful none p k (s.settleOn i b) := by
  simp only [State.settleOn, hx]
  exact h.enterSettling hx hs hp b _

theorem Lawful.record_none_of_claiming (h : Lawful none p k s) (hx : s.ctx i = some x) (hs : x.state = .claiming) :
    k.path → s.path.record i = none := fun hk => h.record_none hk nofun hx (by simp [hs])

/-- A context as it enters WAITING (R116). -/
def Ctx.waitsFrom (x : Ctx) (e : Timer) : Ctx := { x.stopTimers with state := .waiting, wait := e }

/-- A CLAIMING context enters WAITING (R116, R126). -/
theorem Lawful.enterWaiting (h : Lawful none p k s) (hx : s.ctx i = some x) (hs : x.state = .claiming) (n : Nat) :
    Lawful none p k (s.enterWaiting i n) := by
  unfold State.enterWaiting
  rw [modifyCtx_live hx]
  refine (h.setCtx (y := x.waitsFrom (some (s.now + 1000 * s.sport.config.waitLimit))) hx (fun _ hf => ?_) rfl
    (by simp [hs, Ctx.waitsFrom]) (by simp [hs]) (by simp [hs])
    (.inr (h.record_none_of_claiming hx hs))).alike (alike_callState _ i _)
  obtain ⟨h1, -, -, -, -, -, h7⟩ := hf
  refine ⟨?_, nofun, fun _ => rfl, nofun, nofun, nofun, h7⟩
  rw [hs] at h1
  show x.side.has .waiting = true
  cases hd : x.side with
  | origin => rfl
  | answer => rw [hd] at h1; cases h1

theorem Lawful.queueWait (h : Lawful none p k s) (hx : s.ctx i = some x) (hs : x.state = .claiming) : Lawful none p k (s.queueWait i) := by
  simp only [State.queueWait, hx]
  split
  · exact h.alike (alike_queueFrame s _)
  · exact h.clearOrigin hx (fun _ => by simp [hs]) _ fun _ => .inl rfl

theorem Lawful.failClaim (h : Lawful none p k s) (hx : s.ctx i = some x) (r : ClaimReason) :
    Lawful none p k (s.setCtx i (some (x.failClaim r))) := h.adjust hx id rfl rfl rfl rfl rfl

theorem Lawful.chooseFrame (n : Nat) : ∀ {s : State} {x : Ctx}, Lawful none .reckoned k s → s.ctx i = some x → x.state = .claiming →
    Lawful none .reckoned k (State.chooseFrame n s i) := by
  induction n with
  | zero => intro s x h hx hs; exact h.queueWait hx hs
  | succ n ih =>
    intro s x h hx hs
    have hfail := h.failClaim hx .dropped
    have hxf : (s.setCtx i (some (x.failClaim .dropped))).ctx i = some (x.failClaim .dropped) := by simp
    simp only [State.chooseFrame, hx]
    split
    · exact h.settleOn hx (.inl hs) (fun _ => trivial) _
    · split
      · exact h.enterWaiting hx hs _
      · split
        · split
          · exact h.alike (alike_queueFrame s _)
          · split
            · exact ih hfail hxf hs
            · exact hfail.queueWait hxf hs
        · exact h.queueWait hx hs

theorem Lawful.choose (h : Lawful none .reckoned k s) (hx : s.ctx i = some x) (hs : x.state = .claiming) :
    Lawful none .reckoned k (s.choose i) := Lawful.chooseFrame _ h hx hs

theorem Lawful.claimFailed (h : Lawful none .reckoned k s) (hx : s.ctx i = some x) (hs : x.state = .claiming) (r : ClaimReason) :
    Lawful none .reckoned k (s.claimFailed i r) := by
  have hfail := h.failClaim hx r
  have hxf : (s.setCtx i (some (x.failClaim r))).ctx i = some (x.failClaim r) := by simp
  simp only [State.claimFailed, hx]
  split
  · exact hfail.choose hxf hs
  · exact hfail.queueWait hxf hs

/-! ### Reversal -/

theorem Lawful.askReversal (h : Lawful none p k s) (i : Ref) : Lawful none p k (s.askReversal i) := by
  unfold State.askReversal
  split
  · split
    · exact h.alike (alike_askRecall s _)
    · exact h.makeFinal i
  · exact h

/-- A reversal that is allowed keeps the role limit (R101, R113). -/
theorem State.WithinRole.reverse (h : s.WithinRole) (hx : s.ctx i = some x) (ha : s.reversalAllowed i = true) (y : Ctx) :
    (s.setCtx i (some y)).WithinRole := by
  have hlive : ∀ j, ((s.setCtx i (some y)).ctx j).isSome = true → (s.ctx j).isSome = true := fun j hj => by
    by_cases hji : j = i
    · rw [hji, hx]; rfl
    · rwa [State.ctx_setCtx, if_neg hji] at hj
  refine ⟨(liveCount_le hlive).trans h.1, fun hd => ?_⟩
  simp only [State.reversalAllowed, Bool.or_eq_true, decide_eq_true_eq, List.all_eq_true, Bool.not_eq_true'] at ha
  have hall := ha.resolve_left hd
  have hle : (s.setCtx i (some y)).activeCount ≤ refs.countP fun j => decide (j = i) := List.countP_mono_left fun j _ hj => by
    by_contra hji
    have hji' : j ≠ i := by simpa using hji
    have hout : s.outsideClearing j = true := by
      obtain ⟨z, hz, hc⟩ := outsideClearing_iff.mp hj
      rw [State.ctx_setCtx, if_neg hji'] at hz
      exact outsideClearing_iff.mpr ⟨z, hz, hc⟩
    rcases hall j (mem_refs j) with h1 | h1
    · exact hji' h1
    · rw [h1] at hout; cases hout
  refine hle.trans ?_
  clear * -
  revert i
  decide

/-- A clearing context taken back into the call (R113). -/
def Ctx.reversed (x : Ctx) : Ctx := { x with reversible := false, cause := none, awaits := .nothing, state := .claiming }

theorem Lawful.reversed (h : Lawful none p k s) (hx : s.ctx i = some x) (hs : x.state = .clearing) (hrev : x.reversible = true)
    (ha : s.reversalAllowed i = true) (hr : k.path → s.path.record i = none) (hm : k.mute → s.path.record i = none) :
    Lawful none p k (s.setCtx i (some x.reversed)) := by
  have hy : (s.setCtx i (some x.reversed)).ctx i = some x.reversed := by simp
  refine h.touch (touches_setCtx s i _) ⟨fun hk => (h.role hk).reverse hx ha _, fun hk z hz => ?_, fun hk => ?_, fun hk hd => ?_,
    fun hk r z hr' => ?_, fun hk r hr' => ?_, fun _ c _ z hz => ?_⟩
  · obtain rfl := Option.some.inj (hy.symm.trans hz)
    obtain ⟨-, h2, h3, h4, h5, h6, h7⟩ := h.fits hk i x hx
    have hside := h7 hrev
    rw [hs] at h2 h3 h4 h5 h6
    refine ⟨by rw [show x.reversed.side = .origin from hside]; rfl, fun hc => ?_, fun hc => ?_, fun hc => ?_, fun hc => ?_, fun hc => ?_, nofun⟩
    · cases h2 hc
    · cases h3 hc
    · cases h4 hc
    · cases h5 hc
    · cases h6 hc
  · rw [hy]
    simpa [hx, hs, Ctx.reversed] using h.alert hk i
  · obtain ⟨z, hz, -, h2⟩ := h.door hk i hd
    obtain rfl := Option.some.inj (hx.symm.trans hz)
    rw [hs] at h2
    cases h2
  · rw [hm hk] at hr'; cases hr'
  · rw [hr hk] at hr'; cases hr'
  · obtain rfl := Option.some.inj (hy.symm.trans hz)
    exact ⟨x, hx, rfl⟩

/-- SETTLING is entered from whatever state. -/
theorem enterSettling_congr (s : State) (i : Ref) {x y : Ctx} (h : x.settled = y.settled) (hside : x.side = y.side) (hcid : x.cid = y.cid)
    (b : Block) (trimmed : Bool) :
    (s.setCtx i (some x)).enterSettling i b trimmed = (s.setCtx i (some y)).enterSettling i b trimmed := by
  have hset : ∀ z : Ctx, { z.stopTimers with state := .settling, path := some b, trimmed := trimmed } = z.settled b trimmed := fun _ => rfl
  simp only [State.enterSettling, State.ctx_setCtx, if_true, setCtx_setCtx, hset, h, hside, hcid]

/-- The RELEASE of a clearing context is recalled: the call goes on, or the RELEASE is queued again (R113). -/
theorem Lawful.releaseRecalled (h : Lawful none .reckoned k s) (hx : s.ctx i = some x) (hs : x.state = .clearing) (ha : x.awaits = .release)
    (hm : k.mute → s.path.record i = none) : Lawful none .reckoned k (s.releaseRecalled i) := by
  have hr : k.path → s.path.record i = none := fun hk => h.record_none hk nofun hx (by simp [hs, ha])
  simp only [State.releaseRecalled, hx]
  split
  next hc =>
    rw [Bool.and_eq_true] at hc
    have h1 := h.reversed hx hs hc.1 hc.2 hr hm
    have hy : (s.setCtx i (some x.reversed)).ctx i = some x.reversed := by simp
    split
    next b _ _ =>
      rw [enterSettling_congr s i (x := { x with reversible := false, cause := none, awaits := .nothing }) (y := x.reversed) rfl rfl rfl]
      exact h1.enterSettling hy (.inl rfl) (fun _ => trivial) _ _
    next =>
      have hcall := alike_callState (s.setCtx i (some x.reversed)) i (.claiming (x.answerer.getD 0#8) x.wanted)
      exact (h1.alike hcall).choose ((hcall.ctx i).trans hy) rfl
  next => exact (h.makeFinal i).queueRelease ((h.bare hx (by simp [hs]) (by simp [hs]) hr).of_eq (by simp [State.makeFinal]) (by simp [State.makeFinal]))

/-! ### Outcomes -/

/-- A pass over the contexts keeps what its operation keeps at each live context. -/
theorem eachCtx_keeps {P : State → Prop} {f : State → Ref → Ctx → State} (h : P s) (hf : ∀ t j y, P t → t.ctx j = some y → P (f t j y)) :
    P (s.eachCtx f) :=
  eachCtx_end (M := fun _ => P) h (fun _ _ ht _ => ht) fun j t y ht hy => hf t j y ht hy

theorem Lawful.outcomeAtAnswer (h : Lawful none p k s) (i : Ref) (x : Ctx) : Lawful none p k (s.outcomeAtAnswer i x) := by
  unfold State.outcomeAtAnswer
  split
  · exact h.endAnswer i _
  · exact h.endAnswer i _
  · exact h.supersede i
  · exact h

theorem Lawful.claimOutcome (h : Lawful none .reckoned k s) (sender : Byte) (id : CallId) (r : Option ClaimReason) (b : Block) :
    Lawful none .reckoned k (s.claimOutcome sender id r b) := by
  refine eachCtx_keeps h fun t j y ht hy => ?_
  split
  · exact ht
  · split
    · exact ht.outcomeAtAnswer j y
    · split
      next hc =>
        split
        · exact ht.settleOn hy (.inl hc.1) (fun _ => trivial) b
        · exact ht.claimFailed hy hc.1 _
      next => exact ht

theorem Lawful.waitOutcome (h : Lawful none .reckoned k s) (sender : Byte) (id : CallId) (r : WaitResult) :
    Lawful none .reckoned k (s.waitOutcome sender id r) := by
  refine eachCtx_keeps h fun t j y ht hy => ?_
  split
  · exact ht
  · split
    · exact ht.outcomeAtAnswer j y
    · split
      next hc =>
        have hne : k.path → y.state ≠ .clearing := fun _ => by simp [hc.1]
        split
        · exact ht
        · exact ht.enterWaiting hy hc.1 _
        · exact ht.clearOrigin hy hne _ fun _ => .inl rfl
        · exact ht.clearOrigin hy hne _ fun _ => .inl rfl
      next => exact ht

end Placing

end Sys2Proof.Machine
end


section
/-! PROOFS. A change of the copy, the block it frees and the report of it keep the followed laws (R6 to R14, R26 to R28, R30, R157). -/

namespace Sys2Proof.Machine

section Reports

variable {l : Option Ref} {p : PortPhase} {k : Laws} {i : Ref} {s t : State} {x : Ctx}

/-! ### The copy -/

/-- The copy changes, and every record keeps its block. -/
theorem Lawful.withSmu (h : Lawful l p k s) (hcut : k.path → 4 ≤ k.cut) {m : Smu} (hm : k.path → SlotLaw m)
    (hkeep : k.path → ∀ c b, s.smu.blockOf c = some b → m.blockOf c = some b) : Lawful l p k { s with smu := m } where
  role := h.role
  fits := h.fits
  alert := h.alert
  door := h.door
  mute := h.mute
  slots := hm
  wired := h.wired
  stands hk i r hr := by
    obtain ⟨x, hx, hst⟩ := h.stands hk i r hr
    refine ⟨x, hx, hst.half, hst.fits, fun hl => hkeep hk _ _ (hst.held hl), fun hd => ?_⟩
    obtain ⟨h1, -⟩ := hst.dark hd
    exact absurd (hcut hk) (by omega)
  port hk := by
    have hp := h.port hk
    cases p <;> exact hp

/-- A lawful copy that has the holds of another gives their calls their blocks. -/
theorem SlotLaw.blockOf_of_subset {m m' : Smu} (h : SlotLaw m') (hsub : ∀ x ∈ m.holds, x ∈ m'.holds) (c : CallId) (b : Block)
    (hb : m.blockOf c = some b) : m'.blockOf c = some b := by
  obtain ⟨x, hx, rfl⟩ := Smu.blockOf_eq_some_iff.mp hb
  obtain ⟨hmem, rfl⟩ := holdOf_some hx
  exact Smu.blockOf_eq_some_iff.mpr ⟨x, h.holdOf_of_mem (hsub x hmem), rfl⟩

/-- Every record stands on its call's block once the contexts are settled against the copy. -/
theorem Lawful.held (h : Lawful l p k s) (hk : k.path) (hcut : 4 ≤ k.cut) {r : PathRec} (hr : s.path.record i = some r) :
    ∃ y, s.ctx i = some y ∧ s.path.lit i = true ∧ s.smu.blockOf y.cid = some r.block := by
  obtain ⟨y, hy, hst⟩ := h.stands hk i r hr
  cases hl : s.path.lit i with
  | true => exact ⟨y, hy, rfl, hst.held hl⟩
  | false => obtain ⟨h1, -⟩ := hst.dark hl; exact absurd hcut (by omega)

theorem Lawful.record_none_of_unheld (h : Lawful l p k s) (hk : k.path) (hcut : 4 ≤ k.cut) (hx : s.ctx i = some x)
    (hb : s.smu.blockOf x.cid = none) : s.path.record i = none := by
  cases hr : s.path.record i with
  | none => rfl
  | some r =>
    obtain ⟨y, hy, -, hheld⟩ := h.held hk hcut hr
    obtain rfl := Option.some.inj (hx.symm.trans hy)
    rw [hb] at hheld
    cases hheld

/-! ### The freed block -/

/-- Two calls with the same block are one call. -/
theorem SlotLaw.cid_eq {m : Smu} (h : SlotLaw m) {c d : CallId} {b b' : Block} (hc : m.blockOf c = some b) (hd : m.blockOf d = some b')
    {n : Nat} (h1 : b.1 ≤ n) (h2 : n < b.1 + b.2) (h3 : b'.1 ≤ n) (h4 : n < b'.1 + b'.2) : c = d := by
  obtain ⟨x, hx, rfl⟩ := Smu.blockOf_eq_some_iff.mp hc
  obtain ⟨y, hy, rfl⟩ := Smu.blockOf_eq_some_iff.mp hd
  obtain rfl := h.heldOnce x (holdOf_some hx).1 y (holdOf_some hy).1 n h1 h2 h3 h4
  exact (holdOf_some hx).2.symm.trans (holdOf_some hy).2

theorem SlotLaw.blockOf_width {m : Smu} (h : SlotLaw m) {c : CallId} {b : Block} (hb : m.blockOf c = some b) : 0 < b.2 := by
  obtain ⟨x, hx, rfl⟩ := Smu.blockOf_eq_some_iff.mp hb
  exact (h.holdOf_aligned hx).1

/-- A lit record on the freed call's block is that call's. -/
theorem Lawful.litOn_iff (h : Lawful l p k s) (hk : k.path) (hcut : 4 ≤ k.cut) {c : CallId} {b : Block} (hb : s.smu.blockOf c = some b) {j : Ref}
    {y : Ctx} (hy : s.ctx j = some y) {r : PathRec} (hr : s.path.record j = some r) : s.path.litOn b j = true ↔ y.cid = c := by
  obtain ⟨z, hz, hl, hheld⟩ := h.held hk hcut hr
  obtain rfl := Option.some.inj (hy.symm.trans hz)
  have hw := (h.slots hk).blockOf_width hb
  constructor
  · intro hon
    obtain ⟨r', hr', hb', -⟩ := Path.litOn_iff.mp hon
    obtain rfl := Option.some.inj (hr.symm.trans hr')
    rw [hb'] at hheld
    exact (h.slots hk).cid_eq hheld hb (n := b.1) (le_refl _) (by omega) (le_refl _) (by omega)
  · rintro rfl
    exact Path.litOn_iff.mpr ⟨r, hr, Option.some.inj (hheld.symm.trans hb), hl⟩

theorem alike_blockFreed (s : State) (c : CallId) :
    Alike { s with smu := s.freedCopy c, path := (s.blockFreed c).path } (s.blockFreed c) := by
  obtain ⟨q, h⟩ := blockFreed_eq (s := s) (c := c)
  rw [h]
  exact ⟨by simp [State.freedBase], rfl, by simp [State.freedBase], by simp [State.freedBase], by simp [State.freedBase],
    by simp [State.freedBase], by simp [State.freedBase, State.role]⟩

theorem path_blockFreed {c : CallId} {b : Block} (hb : s.smu.blockOf c = some b) : (s.blockFreed c).path = (s.freeBlock b).path := by
  unfold State.blockFreed
  rw [hb]
  simp [State.freeBlock]

theorem path_blockFreed_none {c : CallId} (hb : s.smu.blockOf c = none) : (s.blockFreed c).path = s.path := by
  unfold State.blockFreed
  rw [hb]
  simp

theorem freeBlock_port (s : State) (b : Block) : (s.freeBlock b).path.owner = s.path.owner ∧ (s.freeBlock b).path.gate = s.path.gate
    ∧ (s.freeBlock b).path.rate = s.path.rate := by
  have hdrop : ∀ (q : Path) (i : Ref), (if s.path.litOn b i then q.setRec i none else q).owner = q.owner
      ∧ (if s.path.litOn b i then q.setRec i none else q).gate = q.gate
      ∧ (if s.path.litOn b i then q.setRec i none else q).rate = q.rate := fun q i => by
    split <;> exact ⟨rfl, rfl, rfl⟩
  simp only [State.freeBlock, Path.setBlock, hdrop, and_self]

/-- PATH once the block of a held call is cut: the records on it are gone (R13, R157). -/
theorem Lawful.wired_freeBlock (h : Lawful l p k s) (hk : k.path) (hcut : 4 ≤ k.cut) {c : CallId} {b : Block} (hb : s.smu.blockOf c = some b) :
    (s.freeBlock b).path.Wired ∧ ∀ j, (s.freeBlock b).path.lit j = true ↔ s.path.lit j = true ∧ ¬ s.path.litOn b j = true := by
  obtain ⟨ho, hg, hra⟩ := freeBlock_port s b
  refine (h.wired hk).dim (fun j => s.path.litOn b j = true) (fun n e he => ?_) (fun n e he hd => ?_) (fun j hd => ?_) (fun j r hd hr => ?_)
    ho hg hra
  · rw [enable_freeBlock] at he
    split at he
    · cases he
    next hn =>
      refine ⟨he, fun hd => hn ?_⟩
      obtain ⟨r, hr, hblock, hl⟩ := Path.litOn_iff.mp hd
      obtain ⟨h1, h2⟩ := (h.wired hk).in_block hr he rfl
      rw [← hblock]
      exact ⟨Path.enable_lt he, h1, h2⟩
  · rw [enable_freeBlock, if_neg, he]
    rintro ⟨-, h1, h2⟩
    obtain ⟨r, hr, h3, h4⟩ := (h.wired hk).within n e he
    obtain ⟨y, hy, -, hheld⟩ := h.held hk hcut hr
    exact hd ((h.litOn_iff hk hcut hb hy hr).mpr ((h.slots hk).cid_eq hheld hb h3 h4 h1 h2))
  · rw [record_freeBlock, if_neg hd]
  · rw [record_freeBlock, if_pos hd] at hr
    cases hr

/-- A freed call: the copy without it, and its block cut from PATH (R9, R11, R157). -/
theorem Lawful.blockFreed (h : Lawful none .reckoned k s) (hcut : k.path → 4 ≤ k.cut) (c : CallId) :
    Lawful none (.freed c) k (s.blockFreed c) := by
  have hother : k.path → ∀ d b, d ≠ c → s.smu.blockOf d = some b → (s.freedCopy c).blockOf d = some b := fun hk d b hd hb => by
    obtain ⟨x, hx, rfl⟩ := Smu.blockOf_eq_some_iff.mp hb
    exact Smu.blockOf_eq_some_iff.mpr ⟨x, holdOf_freedCopy_of_ne (h.slots hk) hd hx, rfl⟩
  refine Lawful.alike ?_ (alike_blockFreed s c)
  cases hb : s.smu.blockOf c with
  | none =>
    rw [path_blockFreed_none hb]
    refine (h.withSmu hcut (fun hk => (h.slots hk).freedCopy c) fun hk d b hd => hother hk d b ?_ hd).anyPort _
    rintro rfl
    rw [hb] at hd
    cases hd
  | some b =>
    have hpath := path_blockFreed hb
    have hkept : ∀ j r, (s.blockFreed c).path.record j = some r → s.path.record j = some r ∧ ¬ s.path.litOn b j = true := fun j r hr => by
      rw [hpath, record_freeBlock] at hr
      split at hr
      · cases hr
      next hn => exact ⟨hr, hn⟩
    refine ⟨h.role, h.fits, h.alert, h.door, fun hk j r z hr => h.mute hk j r z (hkept j r hr).1, fun hk => (h.slots hk).freedCopy c,
      fun hk => hpath ▸ (h.wired_freeBlock hk (hcut hk) hb).1, fun hk j r hr => ?_, fun hk j z ho hr hz => ?_⟩
    · obtain ⟨hr, hn⟩ := hkept j r hr
      obtain ⟨y, hy, hl, hheld⟩ := h.held hk (hcut hk) hr
      obtain ⟨z, hz, hst⟩ := h.stands hk j r hr
      obtain rfl := Option.some.inj (hy.symm.trans hz)
      have hne : y.cid ≠ c := fun he => hn ((h.litOn_iff hk (hcut hk) hb hy hr).mpr he)
      refine ⟨y, hy, hst.half, hst.fits, fun _ => hother hk _ _ hne hheld, fun hd => ?_⟩
      have hd' : (s.blockFreed c).path.lit j = false := hd
      rw [hpath] at hd'
      rw [((h.wired_freeBlock hk (hcut hk) hb).2 j).mpr ⟨hl, hn⟩] at hd'
      cases hd'
    · have ho' : s.path.owner = some j := by
        rw [← (freeBlock_port s b).1, ← hpath]
        exact ho
      obtain ⟨r, hr', -⟩ := Path.bestOwner_some ((show s.path.owner = s.path.bestOwner from h.port hk) ▸ ho')
      refine (h.litOn_iff hk (hcut hk) hb hz hr').mp ?_
      by_contra hn
      have hr'' : (s.blockFreed c).path.record j = none := hr
      rw [hpath, record_freeBlock, if_neg hn, hr'] at hr''
      cases hr''

/-! ### The RELEASEs of what muted -/

/-- Context i is free or in CLEARING. -/
def State.Cleared (s : State) (i : Ref) : Prop := ∀ x, s.ctx i = some x → x.state = .clearing

theorem State.Cleared.of_ctx (h : s.Cleared i) (ht : t.ctx i = none ∨ t.ctx i = s.ctx i ∨ ∃ x y, s.ctx i = some x ∧ t.ctx i = some y
    ∧ y.state = x.state) : t.Cleared i := by
  intro z hz
  rcases ht with h0 | h0 | ⟨x, y, hx, hy, hs⟩
  · rw [h0] at hz; cases hz
  · exact h z (h0 ▸ hz)
  · obtain rfl := Option.some.inj (hy.symm.trans hz)
    rw [hs]
    exact h x hx

theorem cleared_sendRelease (h : s.Cleared i) (j : Ref) : (s.sendRelease j).Cleared i := by
  by_cases hj : i = j
  · subst hj
    cases hx : s.ctx i with
    | none => simpa only [State.sendRelease, hx] using h
    | some x =>
      have haw : ∀ (t : State) (a : Awaits), t.ctx i = some x → (t.setAwaits i a).Cleared i := fun t a ht z hz => by
        rw [State.setAwaits, modifyCtx_live ht, State.ctx_setCtx, if_pos rfl] at hz
        obtain rfl := Option.some.inj hz
        exact h x hx
      have hfree : ∀ t : State, (t.freeCtx i).Cleared i := fun t z hz => by rw [ctx_freeCtx] at hz; cases hz
      simp only [State.sendRelease, State.queueRelease, hx]
      split
      · split
        · exact haw _ _ (((alike_queueFrame s _).ctx i).trans hx)
        · exact hfree _
      · split
        · exact haw s _ hx
        · exact hfree s
  · intro z hz
    rw [((Spares.refl i s).sendRelease (ks := fun k => k = .release) rfl hj).ctx] at hz
    exact h z hz

theorem path_queueRelease (s : State) (i : Ref) : (s.queueRelease i).path = s.path := by
  unfold State.queueRelease State.setAwaits
  split
  · dsimp only
    split <;> simp
  · rfl

theorem path_sendRelease (s : State) (i : Ref) : (s.sendRelease i).path = s.path := by
  unfold State.sendRelease State.setAwaits
  split
  · split
    · exact path_queueRelease s i
    · split <;> simp
  · rfl

/-- RELEASEs fall due for contexts in CLEARING whose transmitters are off (R121 step 5, R157). -/
theorem Lawful.sendReleases (l : List Ref) : ∀ {s : State}, Lawful none p k s → (k.mute → ∀ j ∈ l, s.Cleared j) →
    (k.path → ∀ j ∈ l, s.path.record j = none) → Lawful none p k (l.foldl State.sendRelease s) := by
  induction l with
  | nil => exact fun h _ _ => h
  | cons i l ih =>
    intro s h hc hr
    have hstep : Lawful none p k (s.sendRelease i) := by
      cases hx : s.ctx i with
      | none => simpa only [State.sendRelease, hx] using h
      | some x =>
        have hs : k.mute → x.state = .clearing := fun hk => hc hk i List.mem_cons_self x hx
        refine h.sendRelease ⟨fun hk => ?_, fun hk => ?_, fun hk => hr hk i List.mem_cons_self⟩
        · rw [← Bool.not_eq_true, h.alert hk i]
          rintro ⟨y, hy, ha⟩
          obtain rfl := Option.some.inj (hx.symm.trans hy)
          rw [hs (k.mute_of_alert hk)] at ha
          cases ha
        · by_contra hd
          obtain ⟨y, hy, -, ha⟩ := h.door hk i hd
          obtain rfl := Option.some.inj (hx.symm.trans hy)
          rw [hs (k.mute_of_door hk)] at ha
          cases ha
    exact ih hstep (fun hk j hj => cleared_sendRelease (hc hk j (List.mem_cons_of_mem i hj)) i)
      fun hk j hj => by rw [path_sendRelease]; exact hr hk j (List.mem_cons_of_mem i hj)

theorem Lawful.freedPort (h : Lawful none .reckoned k s) (hcut : k.path → 4 ≤ k.cut) (c : CallId) :
    Lawful none (.freed c) k (s.freedPort c) := by
  refine (h.blockFreed hcut c).sendReleases _ (fun hk j hj z hz => ?_) fun _ j hj => record_blockFreed_muting hj
  obtain ⟨r, hr, hm, -⟩ := mem_freedMuting.mp hj
  exact h.mute hk j r z hr hm ((ctx_blockFreed (c := c) j) ▸ hz)

/-! ### The report at a context -/

/-- A taken RELEASE at a context of its call (R14, R120, R123, R139, R140). -/
theorem Lawful.releaseAt (h : Lawful none p k s) (hx : s.ctx i = some x) (hr : k.path → s.path.record i = none) (own : Bool) (c : Byte) :
    Lawful none p k (s.releaseAt i x own c) := by
  have hfree : x.state = .clearing → Lawful none p k (s.freeCtx i) := fun hs =>
    h.freeCtx (h.bare hx (by simp [hs]) (by simp [hs]) hr)
  unfold State.releaseAt
  split
  next hs => split; exacts [hfree hs, h.makeFinal i]
  next => split; exacts [h, h.endOrigin i _]
  next hs => split; exacts [hfree hs, h.supersede i]
  next => exact h.endAnswer i _
  next => exact h.endAnswer i _
  next => split; exacts [h, h.endAnswer i _]

theorem Lawful.reclaimAt (h : Lawful none p k s) (i : Ref) (x : Ctx) : Lawful none p k (s.reclaimAt i x) := by
  unfold State.reclaimAt
  split
  · exact h.makeFinal i
  · exact h.endOrigin i _
  · exact h.supersede i
  · exact h.endAnswer i _

/-- A context in CLEARING records the block it is given (R14, R73). -/
theorem Lawful.recordBlock (h : Lawful none p k s) (hx : s.ctx i = some x) (hs : x.state = .clearing) (b : Block) :
    Lawful none p k (s.modifyCtx i fun c => c.record b) := by
  rw [modifyCtx_live hx]
  exact h.setCtx hx (fun _ => id) rfl Iff.rfl And.intro id (.inl ⟨rfl, fun _ => ⟨rfl, .inl hs, rfl⟩⟩)

theorem Lawful.newHoldAt (h : Lawful none p k s) (hx : s.ctx i = some x) (hp : k.path → p.spares x.cid) (n : NewHold) :
    Lawful none p k (s.newHoldAt i x n) := by
  unfold State.newHoldAt
  split
  next hs => exact h.enterSettling hx (.inl hs) hp _ _
  next hs => exact h.enterSettling hx (.inr (.inl hs)) hp _ _
  next hs => exact h.settleOn hx (.inr (.inr hs)) hp _
  next hs =>
    dsimp only
    split
    · exact (h.recordBlock hx hs _).askReversal i
    · exact h.recordBlock hx hs _
  next => exact h

/-- The first rows of a report take a context of its call. -/
def Report.ends (r : Report) : Prop := r.kind = .release ∨ r.kind = .reclaim ∧ r.removed = true

theorem Lawful.reportAt (h : Lawful none p k s) (hx : s.ctx i = some x) {r : Report}
    (hp : k.path → p.spares x.cid ∨ x.cid = r.cid ∧ r.ends) (hr : k.path → x.cid = r.cid → r.kind = .release → s.path.record i = none) :
    Lawful none p k (State.reportAt r s i x) := by
  unfold State.reportAt
  split
  next hc => exact h.releaseAt hx (fun hk => hr hk hc.1 hc.2) _ _
  next h1 =>
    split
    next => exact h.reclaimAt i x
    next h2 =>
      split
      · refine h.newHoldAt hx (fun hk => ?_) _
        rcases hp hk with hp | ⟨hc, he | he⟩
        · exact hp
        · exact absurd ⟨hc, he⟩ h1
        · exact absurd ⟨hc, he⟩ h2
      · exact h

/-- A report that frees nothing, of a frame other than a RELEASE (R12). -/
theorem Lawful.changeReport (h : Lawful none .reckoned k s) {r : Report} (hf : r.freed = none) (hr : r.kind ≠ .release) :
    Lawful none .reckoned k (s.changeReport r) := by
  unfold State.changeReport
  rw [hf]
  exact (eachCtx_keeps h fun t j y ht hy => ht.reportAt hy (fun _ => .inl trivial) fun _ _ hk => absurd hk hr).reckonOwner

/-- A freed call, at the copy, at PATH and at every context (R9, R11, R12, R157). -/
theorem Lawful.freeCall (h : Lawful none .reckoned k s) (hcut : k.path → 4 ≤ k.cut) {kind : FrameKind} {c : CallId}
    (hkind : kind = .release ∨ kind = .reclaim ∧ s.smu.has c = true) (sender : Byte) (cause : Option Byte) :
    Lawful none .reckoned k (s.freeCall kind sender c cause) := by
  have hgone : (s.freedCopy c).blockOf c = none := by
    have := freedCopy_has s c
    simp only [Smu.has, Bool.or_eq_false_iff, Option.isSome_eq_false_iff, Option.isNone_iff_eq_none] at this
    rw [Smu.blockOf, this.1]
    rfl
  have hends : (s.freedReport kind sender c cause).ends := by
    rcases hkind with rfl | ⟨rfl, hh⟩
    · exact .inl rfl
    · exact .inr ⟨rfl, removed_freedReport.trans hh⟩
  have hsmu : (s.freedPort c).smu = s.freedCopy c := by
    have hcalm : Calm (s.blockFreed c) (s.freedPort c) := (Calm.refl _).foldl (fun _ _ ht => ht.sendRelease _) _
    exact hcalm.smu.trans (blockFreed_smu (s := s) (c := c))
  rw [freeCall_eq_pass]
  refine (eachCtx_keeps (P := fun t => Lawful none (.freed c) k t ∧ t.smu = s.freedCopy c) ⟨h.freedPort hcut c, hsmu⟩
    fun t j y ht hy => ⟨ht.1.reportAt hy (fun _ => ?_) fun hk hc _ => ?_, ?_⟩).1.reckonOwner
  · by_cases hc : y.cid = c
    · exact .inr ⟨hc, hends⟩
    · exact .inl hc
  · have hc' : y.cid = c := hc
    exact ht.1.record_none_of_unheld hk (hcut hk) hy (by rw [hc', ht.2]; exact hgone)
  · exact ((Calm.refl t).reportAt _ j y).smu.trans ht.2

/-! ### Frames that change the copy -/

theorem Lawful.sameItems (h : Lawful l p k s) (hcut : k.path → 4 ≤ k.cut) {m : Smu} (hm : SameItems s.smu m) :
    Lawful l p k { s with smu := m } :=
  h.withSmu hcut (fun hk => (h.slots hk).of_sameItems hm) fun _ c b hb => by
    obtain ⟨x, hx, rfl⟩ := Smu.blockOf_eq_some_iff.mp hb
    have := hm.holdOf c
    rw [hx] at this
    obtain ⟨y, hy, he⟩ := Option.map_eq_some_iff.mp this
    simp only [Prod.mk.injEq] at he
    exact Smu.blockOf_eq_some_iff.mpr ⟨y, hy, by rw [he.2.1, he.2.2.1]⟩

theorem Lawful.setAudit (h : Lawful l p k s) (hcut : k.path → 4 ≤ k.cut) (c : CallId) (a : Audit) : Lawful l p k (s.setAudit c a) :=
  h.sameItems hcut (sameItems_setAudit s c a)

theorem Lawful.queueReclaim (h : Lawful l p k s) (hcut : k.path → 4 ≤ k.cut) (c : CallId) : Lawful l p k (s.queueReclaim c) := by
  unfold State.queueReclaim
  split
  · exact (h.alike (alike_queueFrame s _)).setAudit hcut c _
  · exact h

theorem Lawful.nextOverdue (h : Lawful l p k s) (hcut : k.path → 4 ≤ k.cut) : Lawful l p k s.nextOverdue := by
  unfold State.nextOverdue
  split
  · exact h.queueReclaim hcut _
  · exact h

theorem Lawful.claimTaken (h : Lawful none .reckoned k s) (hcut : k.path → 4 ≤ k.cut) (sender : Byte) (c : CallId) (b w : Byte) :
    Lawful none .reckoned k (s.claimTaken sender c b w) := by
  have hreport : ∀ {t : State} (hs : List NewHold), Lawful none .reckoned k t → Lawful none .reckoned k
      (t.changeReport { kind := .claim, cid := c, own := decide (sender = s.own), newHolds := hs }) := fun hs ht =>
    ht.changeReport rfl (by simp)
  unfold State.claimTaken
  dsimp only
  split
  next htest =>
    refine hreport _ (Lawful.claimOutcome ?_ _ _ _ _)
    have hlaw : k.path → SlotLaw (s.addHold c (b.toNat, w.toNat)).smu := fun hk => by
      have := (h.slots hk).claimCopy sender c b w
      rwa [State.claimCopy, if_pos htest] at this
    exact h.withSmu hcut hlaw fun hk => (hlaw hk).blockOf_of_subset fun y hy => mem_insertHold.mpr (.inr hy)
  next => exact hreport _ (h.claimOutcome _ _ _ _)

theorem Lawful.waitTaken (h : Lawful none .reckoned k s) (hcut : k.path → 4 ≤ k.cut) (sender : Byte) (c : CallId) (w : Byte) :
    Lawful none .reckoned k (s.waitTaken sender c w) := by
  have hreport : ∀ {t : State} (hs : List NewHold), Lawful none .reckoned k t → Lawful none .reckoned k
      (t.changeReport { kind := .wait, cid := c, own := decide (sender = s.own), newHolds := hs }) := fun hs ht =>
    ht.changeReport rfl (by simp)
  unfold State.waitTaken
  dsimp only
  split
  next htest =>
    refine hreport _ (Lawful.waitOutcome ?_ _ _ _)
    have hlaw : k.path → SlotLaw (s.appendWait c w.toNat).grantScan.smu := fun hk => by
      have := (h.slots hk).waitCopy sender c w.toNat
      rwa [State.waitCopy, if_pos htest] at this
    exact h.withSmu hcut hlaw fun hk => (hlaw hk).blockOf_of_subset fun y hy => (mem_scanFrom_holds _).mpr (.inl hy)
  next => exact hreport _ (h.waitOutcome _ _ _)

theorem Lawful.releaseTaken (h : Lawful none .reckoned k s) (hcut : k.path → 4 ≤ k.cut) (sender : Byte) (c : CallId) (cause : Byte) :
    Lawful none .reckoned k (s.releaseTaken sender c cause) := h.freeCall hcut (.inl rfl) sender _

theorem Lawful.reclaimTaken (h : Lawful none .reckoned k s) (hcut : k.path → 4 ≤ k.cut) (sender : Byte) (c : CallId) :
    Lawful none .reckoned k (s.reclaimTaken sender c) := by
  have h1 : Lawful none .reckoned k
      (if s.smu.has c then s.freeCall .reclaim sender c none else s.changeReport (s.removalReport .reclaim sender c none)) := by
    split
    next hh => exact h.freeCall hcut (.inr ⟨rfl, hh⟩) sender _
    next hh =>
      refine h.changeReport ?_ (by simp [State.removalReport])
      simp only [Smu.has, Bool.not_eq_true, Bool.or_eq_false_iff, Option.isSome_eq_false_iff, Option.isNone_iff_eq_none] at hh
      simp [State.removalReport, hh.1]
  unfold State.reclaimTaken
  dsimp only
  split
  · exact h1.nextOverdue hcut
  · exact h1

end Reports

end Sys2Proof.Machine
end


section
/-! PROOFS. Ringing and seeking keep the followed laws, and so does the opening of a context (R101, R104 to R113, R131, R74). -/

namespace Sys2Proof.Machine

section AlikeSeeks

variable (s : State)

theorem alike_queueFrame_udir (f : Frame) (d : Udir) : Alike s { s.queueFrame f with udir := d } :=
  (alike_queueFrame s f).trans (alike_withUdir _ d)

theorem alike_handOut : Alike s s.handOut := by
  unfold State.handOut
  dsimp only
  split
  · exact .refl s
  split
  · split
    · exact alike_queueFrame_udir s _ _
    · exact .refl s
  · split
    · split
      · exact alike_queueFrame_udir s _ _
      · exact .refl s
    · exact .refl s

theorem alike_joinSeek (i : Ref) (u : UnitNum) : Alike s (s.joinSeek i u) := by
  unfold State.joinSeek
  split
  · exact alike_withUdir s _
  · exact (alike_withUdir s _).trans (alike_handOut _)

theorem alike_oweOffer : Alike s s.oweOffer := by
  unfold State.oweOffer
  split
  · exact (alike_withUdir s _).trans (alike_handOut _)
  · exact .refl s

theorem alike_openSeek (u : UnitNum) : Alike s (s.openSeek u) := alike_withUdir s _

theorem alike_seekTaken (sender : Byte) (u : UnitNum) : Alike s (s.seekTaken sender u) := by
  have hopen : Alike s (match s.udir.seekOf u with
      | some r =>
        match r.state with
        | .pending => s.openSeek u
        | .queued => (s.askRecall ⟨.seek, .unit u⟩).openSeek u
        | .opened _ => s
      | none => s) := by
    split
    · split
      · exact alike_openSeek s u
      · exact (alike_askRecall s _).trans (alike_openSeek _ u)
      · exact .refl s
    · exact .refl s
  unfold State.seekTaken
  split
  · exact .refl s
  split
  · split
    · refine Alike.trans ?_ (alike_handOut _)
      split
      · exact alike_openSeek s u
      · exact .refl s
    · exact alike_handOut s
  · dsimp only
    split
    · exact hopen.trans (alike_oweOffer _)
    · exact hopen

end AlikeSeeks

section Ringing

variable {p : PortPhase} {k : Laws} {i : Ref} {s t : State} {x y : Ctx}

/-! ### Timers -/

/-- In a state without a timer a context runs none. -/
theorem Ctx.Fits.noTimers (h : x.Fits) (hs : x.state ∈ [CtxState.seeking, .claiming, .settling, .answering, .clearing]) :
    x.ring = none ∧ x.wait = none ∧ x.talk = none ∧ x.alert = none ∧ x.pathWait = none := by
  obtain ⟨-, h1, h2, h3, h4, h5, -⟩ := h
  have hnot : ∀ {e : Timer} {st : CtxState}, (e ≠ none → x.state = st) → st ∉ [CtxState.seeking, .claiming, .settling, .answering, .clearing] →
      e = none := fun he hst => by
    by_contra hn
    exact hst (he hn ▸ hs)
  exact ⟨hnot h1 (by decide), hnot h2 (by decide), hnot h3 (by decide), hnot h4 (by decide), hnot h5 (by decide)⟩

theorem Ctx.Fits.origin_of_ring (h : x.Fits) (hr : x.state = .ringing) : x.side = .origin := by
  obtain ⟨h1, -⟩ := h
  rw [hr] at h1
  cases hd : x.side with
  | origin => rfl
  | answer => rw [hd] at h1; cases h1

/-! ### RINGING -/

theorem Lawful.endBare (h : Lawful none p k s) (hx : s.ctx i = some x)
    (hs : x.state ≠ .settling ∧ x.state ≠ .talk ∧ x.state ≠ .clearing) (c : Cause) : Lawful none p k (s.endNow i c) :=
  h.endNow (fun hk => h.record_none hk nofun hx ⟨hs.1, hs.2.1, fun hc => absurd hc hs.2.2⟩) c

/-- A SEEKING context queues its direct RING (R104, R106, R124). -/
theorem Lawful.startRinging (h : Lawful none p k s) (hx : s.ctx i = some x) (hs : x.state = .seeking) (ms : List Byte) :
    Lawful none p k (s.startRinging i ms) := by
  have h1 : Lawful none p k (s.setCtx i (some { x with state := .ringing, members := ms })) :=
    h.setCtx hx (fun _ hf => by
      obtain ⟨-, h2, h3, h4, h5⟩ := hf.noTimers (by simp [hs])
      obtain ⟨hside, -, -, -, -, -, hrev⟩ := hf
      rw [hs] at hside
      refine ⟨?_, fun _ => rfl, fun hc => absurd h2 hc, fun hc => absurd h3 hc, fun hc => absurd h4 hc, fun hc => absurd h5 hc, hrev⟩
      show x.side.has .ringing = true
      cases hd : x.side with
      | origin => rfl
      | answer => rw [hd] at hside; cases hside) rfl (by simp [hs]) (by simp [hs]) (by simp [hs])
      (.inr fun hk => h.record_none hk nofun hx (by simp [hs]))
  have ha := alike_callState (s.setCtx i (some { x with state := .ringing, members := ms })) i (.ringing 0 ms.length false)
  have hy : ((s.setCtx i (some { x with state := .ringing, members := ms })).callState i (.ringing 0 ms.length false)).ctx i
      = some { x with state := .ringing, members := ms } := (ha.ctx i).trans (by simp)
  simp only [State.startRinging, hx]
  split
  · exact (h1.alike ha).alike (alike_queueFrame _ _)
  · exact (h1.alike ha).endBare hy (by simp) _

/-- The clearing of a context just set. -/
theorem Lawful.clearSet (h : Lawful none p k (s.setCtx i (some y))) (hs : k.path → y.state ≠ .clearing) (c : Cause) {final : Bool}
    (hf : k.fits → final = true ∨ y.side = .origin) : Lawful none p k ((s.setCtx i (some y)).clearOrigin i c final) :=
  h.clearOrigin (x := y) (by simp) hs c hf

theorem Lawful.queueForward (h : Lawful none p k s) (hx : s.ctx i = some x) (hs : k.path → x.state ≠ .clearing) (ms : List Byte) :
    Lawful none p k (s.queueForward i ms) := by
  have hq := alike_queueFrame s (s.ringFrame x 1 ms)
  simp only [State.queueForward, hx]
  split
  · exact (h.alike hq).adjust ((hq.ctx i).trans hx) id rfl rfl rfl rfl rfl
  · exact Lawful.clearSet (y := { x with forward := .none }) (h.adjust hx id rfl rfl rfl rfl rfl) hs _ fun _ => .inl rfl

theorem Lawful.forwardFails (h : Lawful none p k s) (hx : s.ctx i = some x) (hs : x.state = .ringing) : Lawful none p k (s.forwardFails i) := by
  unfold State.forwardFails
  rw [modifyCtx_live hx]
  exact Lawful.clearSet (y := { x with forward := .none }) (h.adjust hx id rfl rfl rfl rfl rfl) (fun _ => by simp [hs]) _
    fun hk => .inr ((h.fits hk i x hx).origin_of_ring hs)

theorem Lawful.seekResult (h : Lawful none p k s) (res : Option (List Byte)) (i : Ref) : Lawful none p k (State.seekResult res s i) := by
  unfold State.seekResult
  split
  next x hx =>
    split
    next hs =>
      split
      · exact h.startRinging hx hs _
      · exact h.endBare hx (by simp [hs]) _
    next =>
      split
      next hs =>
        split
        · exact h.queueForward hx (fun _ => by simp [hs.1]) _
        · exact h.forwardFails hx hs.1
      next => exact h
  next => exact h

theorem foldl_keeps {β : Type} {P : State → Prop} {f : State → β → State} (hf : ∀ t b, P t → P (f t b)) (l : List β) :
    ∀ {s : State}, P s → P (l.foldl f s) := by
  induction l with
  | nil => exact id
  | cons b l ih => exact fun h => ih (hf _ b h)

theorem Lawful.endSeek (h : Lawful none p k s) (r : Seek) : Lawful none p k (s.endSeek r) :=
  foldl_keeps (fun _ j ht => ht.seekResult _ j) _ (h.alike (alike_withUdir s _))

/-- The ring timer expires, in RINGING (R110). -/
theorem Lawful.ringExpires (h : Lawful none p k s) (hx : s.ctx i = some x) (hr : x.ring ≠ none) : Lawful none p k (s.ringExpires i) := by
  have hring : k.fits → x.state = .ringing := fun hk => (h.fits hk i x hx).2.1 hr
  have hs : k.path → x.state ≠ .clearing := fun hk => by simp [hring (k.fits_of_path hk)]
  have h1 := h.adjust (y := { x with ring := none }) hx (fun ⟨h1, _, h3⟩ => ⟨h1, nofun, h3⟩) rfl rfl rfl rfl rfl
  have hy : (s.setCtx i (some { x with ring := none })).ctx i = some { x with ring := none } := by simp
  simp only [State.ringExpires, hx]
  split
  · exact h1.clearOrigin hy hs _ fun hk => .inr ((h.fits hk i x hx).origin_of_ring (hring hk))
  · split
    · exact h1.queueForward hy hs _
    · exact (h1.adjust (y := { x with ring := none, forward := .seeking }) hy id rfl rfl rfl rfl rfl).alike (alike_joinSeek _ i _)

theorem Lawful.queueNarrowing (h : Lawful none p k s) (hx : s.ctx i = some x) (hs : x.state ≠ .clearing) :
    Lawful none p k (s.queueNarrowing i) := by
  have hq := alike_queueFrame s (s.ringFrame x 1 [x.answerer.getD 0#8])
  simp only [State.queueNarrowing, hx]
  split
  · exact (h.alike hq).adjust ((hq.ctx i).trans hx) id rfl rfl rfl rfl rfl
  · exact Lawful.clearSet (y := { x with ringPhase := 1, forward := .none }) (h.adjust hx id rfl rfl rfl rfl rfl)
      (fun _ => hs) _ fun _ => .inl rfl

/-- A ring timer started in RINGING. -/
theorem Lawful.startRing (h : Lawful none p k s) (hx : s.ctx i = some x) (hs : x.state = .ringing) (hstate : y.state = x.state)
    (htimers : y.wait = x.wait ∧ y.talk = x.talk ∧ y.alert = x.alert ∧ y.pathWait = x.pathWait ∧ y.reversible = x.reversible)
    (hcid : y.cid = x.cid) (hside : y.side = x.side) (hpath : y.path = x.path) (hawaits : y.awaits = x.awaits) :
    Lawful none p k (s.setCtx i (some y)) :=
  h.adjust hx (fun hf => by
    obtain ⟨e1, e2, e3, e4, e5⟩ := htimers
    obtain ⟨h1, -, h3, h4, h5, h6, h7⟩ := hf
    unfold Ctx.Fits
    rw [hside, hstate, e1, e2, e3, e4, e5]
    exact ⟨h1, fun _ => hs, h3, h4, h5, h6, h7⟩) hcid hside hstate hpath hawaits

/-- The originator takes its own RING (R107, R112). -/
theorem Lawful.ownRing (h : Lawful none p k s) (i : Ref) (phase : Byte) (ms : List Byte) : Lawful none p k (s.ownRing i phase ms) := by
  unfold State.ownRing
  split
  next x hx =>
    split
    next hs => exact h.startRing hx hs.1 rfl ⟨rfl, rfl, rfl, rfl, rfl⟩ rfl rfl rfl rfl
    split
    next hs =>
      refine Lawful.alike ?_ (alike_callState _ i _)
      exact h.startRing hx hs.1 rfl ⟨rfl, rfl, rfl, rfl, rfl⟩ rfl rfl rfl rfl
    split
    next hs => exact h.queueNarrowing hx hs.1
    split
    next => exact h.adjust hx id rfl rfl rfl rfl rfl
    split
    next hs =>
      have h1 := h.adjust (y := { x with announced := true, ringPhase := x.phaseAfter phase }) hx id rfl rfl rfl rfl rfl
      have hy : (s.setCtx i (some { x with announced := true, ringPhase := x.phaseAfter phase })).ctx i
        = some { x with announced := true, ringPhase := x.phaseAfter phase } := by simp
      dsimp only
      split
      next ha =>
        exact h1.queueRelease (h1.bare hy (by simp [hs]) (by simp [hs]) fun hk => h1.record_none hk nofun hy (by simp [hs, ha]))
      next => exact h1
    split
    next => exact h.adjust hx id rfl rfl rfl rfl rfl
    next => exact h
  next => exact h

theorem Lawful.refuseAt (h : Lawful none p k s) (i : Ref) (sender reason : Byte) : Lawful none p k (s.refuseAt i sender reason) := by
  unfold State.refuseAt
  split
  next x hx =>
    split
    · exact h
    next hn =>
      simp only [not_or, not_not] at hn
      have h1 := h.adjust (y := { x with refused := x.refused ++ [(sender, reason)] }) hx id rfl rfl rfl rfl rfl
      dsimp only
      split
      · exact h1.endBare (x := { x with refused := x.refused ++ [(sender, reason)] }) (by simp) (by simp [hn.1]) _
      · exact h1
  next => exact h

/-- An ANSWER is taken for an ORIGIN context (R109, R112, R113). -/
theorem Lawful.answerAtOrigin (h : Lawful none .reckoned k s) (i : Ref) (sender cap : Byte) :
    Lawful none .reckoned k (s.answerAtOrigin i sender cap) := by
  unfold State.answerAtOrigin
  split
  next x hx =>
    split
    · exact h
    · dsimp only
      split
      next hs =>
        generalize hy : ({ x with state := .claiming, answerer := some sender, wanted := min x.wanted (normWidth cap), ring := none
                                  forward := if x.forward = .seeking then .none else x.forward } : Ctx) = y
        have h1 : Lawful none .reckoned k (s.setCtx i (some y)) := by
          subst hy
          refine h.setCtx hx (fun _ hf => ?_) rfl (by simp [hs]) (by simp [hs]) (by simp [hs])
            (.inr fun hk => h.record_none hk nofun hx (by simp [hs]))
          have hside := hf.origin_of_ring hs
          obtain ⟨-, -, h2, h3, h4, h5, h6⟩ := hf
          rw [hs] at h2 h3 h4 h5
          refine ⟨?_, nofun, fun hc => ?_, fun hc => ?_, fun hc => ?_, fun hc => ?_, h6⟩
          · show x.side.has .claiming = true
            rw [hside]; rfl
          · cases h2 hc
          · cases h3 hc
          · cases h4 hc
          · cases h5 hc
        have hrecall : Alike (s.setCtx i (some y)) (if x.forward = .queued
            then ((s.setCtx i (some y)).leaveSeek i).askRecall ⟨.ring, .call x.cid⟩ else (s.setCtx i (some y)).leaveSeek i) := by
          split
          · exact (alike_leaveSeek _ i).trans (alike_askRecall _ _)
          · exact alike_leaveSeek _ i
        have ha := hrecall.trans (alike_callState _ i (.claiming sender (min x.wanted (normWidth cap))))
        exact (h1.alike ha).choose (x := y) ((ha.ctx i).trans (by simp)) (by rw [← hy])
      next =>
        split
        · refine Lawful.askReversal ?_ i
          exact h.adjust hx id rfl rfl rfl rfl rfl
        · exact h
  next => exact h

/-! ### Opening -/

theorem countP_refs_le_succ {f g : Ref → Bool} (i : Ref) (h : ∀ j, j ≠ i → f j = true → g j = true) : refs.countP f ≤ refs.countP g + 1 := by
  have hj : ∀ j, (if f j then 1 else 0) ≤ (if g j then 1 else 0) + (if j = i then 1 else 0 : Nat) := fun j => by
    by_cases hji : j = i
    · rw [if_pos hji]
      split <;> omega
    · have := h j hji
      cases hf : f j
      · simp
      · simp [this hf]
  have hsum : (if (0 : Ref) = i then 1 else 0) + (if (1 : Ref) = i then 1 else 0) + (if (2 : Ref) = i then 1 else 0)
      + (if (3 : Ref) = i then 1 else 0 : Nat) = 1 := by
    clear * -
    revert i
    decide
  have h0 := hj 0
  have h1 := hj 1
  have h2 := hj 2
  have h3 := hj 3
  simp only [refs, List.countP_cons, List.countP_nil]
  omega

/-- A context is opened within the role limit (R101). -/
theorem State.WithinRole.opening (h : s.WithinRole) (ht : Touches i s t) (hlive : s.liveCount < s.role.limit)
    (hactive : s.role ≠ .desk → t.outsideClearing i = false ∨ ∀ j, s.outsideClearing j = false) : t.WithinRole := by
  have hctx : ∀ j, j ≠ i → t.outsideClearing j = s.outsideClearing j := fun j hj => by
    unfold State.outsideClearing
    rw [ht.ctx j hj]
  refine ⟨?_, fun hd => ?_⟩
  · have hle : t.liveCount ≤ s.liveCount + 1 := countP_refs_le_succ i fun j hj hl => by rwa [ht.ctx j hj] at hl
    rw [ht.role]
    omega
  · rw [ht.role] at hd
    rcases hactive hd with h1 | h1
    · refine le_trans (activeCount_le fun j hj => ?_) (h.2 hd)
      by_cases hji : j = i
      · rw [hji, h1] at hj; cases hj
      · rwa [← hctx j hji]
    · have h0 : s.activeCount = 0 := by simp [State.activeCount, h1]
      have hle : t.activeCount ≤ s.activeCount + 1 := countP_refs_le_succ i fun j hj hl => by rwa [hctx j hj] at hl
      omega

/-- A free context, without a record, is opened. -/
theorem Lawful.opened (h : Lawful none .reckoned k s) (hx : s.ctx i = none) (ht : Touches i s t) (hy : t.ctx i = some y)
    (hrole : k.role → t.WithinRole) (hfits : k.fits → y.Fits) (halert : k.alert → (t.oku.alerting[i] = true ↔ y.state = .alerting))
    (hdoor : k.door → t.oku.door[i] = none) (hm : k.mute → y.state = .clearing ∨ s.path.record i = none) : Lawful none .reckoned k t := by
  refine h.touch ht ⟨hrole, fun hk z hz => ?_, fun hk => ?_, fun hk hd => absurd (hdoor hk) hd, fun hk r z hr _ hz => ?_, fun hk r hr => ?_,
    fun _ c hc => by cases hc⟩
  · obtain rfl := Option.some.inj (hy.symm.trans hz)
    exact hfits hk
  · rw [halert hk, hy]
    simp
  · obtain rfl := Option.some.inj (hy.symm.trans hz)
    rcases hm hk with hc | hn
    · exact hc
    · rw [hn] at hr; cases hr
  · rw [h.record_none_of_free hk hx] at hr
    cases hr

/-- A free context is opened outside ALERTING. -/
theorem Lawful.openSilent (h : Lawful none .reckoned k s) (hx : s.ctx i = none) (hrole : k.role → (s.setCtx i (some y)).WithinRole)
    (hfits : k.fits → y.Fits) (hs : y.state ≠ .alerting) (hm : k.mute → y.state = .clearing ∨ s.path.record i = none) :
    Lawful none .reckoned k (s.setCtx i (some y)) := by
  have hb := h.bare_of_free hx
  refine h.opened hx (touches_setCtx s i _) (by simp) hrole hfits (fun hk => ?_) hb.door hm
  have ha : (s.setCtx i (some y)).oku.alerting[i] = false := hb.alert hk
  rw [ha]
  simp [hs]

/-- A dialled call is opened (R103, R104). -/
theorem Lawful.dialOpen (h : Lawful none .reckoned k s) (hx : s.ctx i = none) (hm : k.mute → s.path.record i = none)
    (hlive : k.role → s.liveCount < s.role.limit) (hactive : k.role → s.role ≠ .desk → ∀ j, s.outsideClearing j = false)
    (u : UnitNum) (w : Byte) : Lawful none .reckoned k (s.dialOpen i u w) := by
  have h0 := h.alike (alike_withStc s { s.stc with sequence := s.nextSeq })
  have h1 : Lawful none .reckoned k (s.dialBase i u w) := by
    refine h0.openSilent (y := s.dialled u w) hx (fun hk => ?_) (fun _ => ⟨rfl, nofun, nofun, nofun, nofun, nofun, nofun⟩) (by simp [State.dialled])
      fun hk => .inr (hm hk)
    exact (h0.role hk).opening (touches_setCtx _ i _) (hlive hk) fun hd => .inr (hactive hk hd)
  have hy := ctx_dialBase s i u w
  rw [dialOpen_eq]
  split
  · exact h1.startRinging hy rfl _
  · exact h1.alike ((alike_joinSeek _ i u).trans (alike_callState _ i _))

/-- A stale call id is released within the role limit (R74). -/
theorem Lawful.releaseStale (h : Lawful none .reckoned k s) (c : CallId) : Lawful none .reckoned k (s.releaseStale c) := by
  unfold State.releaseStale
  split
  · exact h
  next hlive =>
    split
    next i hi =>
      have hx := freeRef_some hi
      generalize hz : ({ side := .origin, cid := c, state := .clearing, cause := some .stale } : Ctx) = z
      have hs : z.state = .clearing := by rw [← hz]
      have h1 : Lawful none .reckoned k (s.setCtx i (some z)) := by
        refine h.openSilent hx (fun hk => ?_) (fun _ => hz ▸ ⟨rfl, nofun, nofun, nofun, nofun, nofun, nofun⟩) (by simp [hs])
          fun _ => .inl hs
        exact (h.role hk).opening (touches_setCtx s i _) (not_le.mp hlive) fun _ => .inl (by simp [State.outsideClearing, hs])
      have hr : k.path → (s.setCtx i (some z)).path.record i = none := fun hk => h.record_none_of_free hk hx
      refine (h1.postEnd i).queueRelease ((h1.bare (x := z) (by simp) (by simp [hs]) (by simp [hs]) hr).of_eq ?_ ?_)
      · rw [postEnd_oku]
      · rw [postEnd_path]
    next => exact h

theorem Lawful.staleSelfRelease (h : Lawful none .reckoned k s) : Lawful none .reckoned k s.staleSelfRelease :=
  foldl_keeps (fun _ c ht => ht.releaseStale c) _ h

end Ringing

end Sys2Proof.Machine
end


section
/-! PROOFS. The answering side, the door request, hanging up, dropped frames and recall answers keep the followed laws (R53, R56, R110
to R113, R120 to R123, R128 to R142, R165 to R167). -/

namespace Sys2Proof.Machine

/-- Neither a free context nor one that waits for its RELEASE has a path record (R147, R156). -/
structure Unrecorded (s : State) : Prop where
  free : ∀ i, s.ctx i = none → s.path.record i = none
  released : ∀ i x, s.ctx i = some x → x.state = .clearing → x.awaits = .release → s.path.record i = none

section AnswerSide

variable {p : PortPhase} {k : Laws} {i : Ref} {s t : State} {x y : Ctx}

theorem Unrecorded.alike (h : Unrecorded s) (ha : Alike s t) : Unrecorded t :=
  ⟨fun i hi => ha.path ▸ h.free i (ha.ctx i ▸ hi), fun i x hx => ha.path ▸ h.released i x (ha.ctx i ▸ hx)⟩

theorem PathLaw.unrecorded (h : PathLaw s) : Unrecorded s where
  free i hi := by
    cases hr : s.path.record i with
    | none => rfl
    | some r => obtain ⟨y, hy⟩ := h.live hr; rw [hi] at hy; cases hy
  released i x hx hs ha := by
    cases hr : s.path.record i with
    | none => rfl
    | some r =>
      obtain ⟨⟨z, -, hz, hfit, -⟩, -⟩ := h.1 i r hr
      obtain rfl := Option.some.inj (hx.symm.trans hz)
      unfold PathRec.Fits at hfit
      cases hst : r.stage <;> simp only [hst] at hfit
      · exact absurd (hfit.2.1.symm.trans hs) (by simp)
      · exact absurd (hfit.2.1.symm.trans hs) (by simp)
      · exact absurd (hfit.2.1.symm.trans hs) (by simp)
      · exact absurd (hfit.2.2.1.symm.trans ha) (by simp)

/-! ### RING at the answering side -/

theorem alike_refuse (s : State) (c : CallId) (r : Byte) : Alike s (s.refuse c r) := alike_queueFrame s _

/-- The context that a RING opens (R131). -/
def State.alerted (s : State) (sender : Byte) (c : CallId) (u : UnitNum) (w role phase : Byte) (ms : List Byte) : Ctx :=
  { side := .answer, cid := c, state := .alerting, peerUnit := u, members := ms, origAddr := sender, origRole := role
    wanted := min (normWidth w) s.sport.config.capability.toNat, ringPhase := phase.toNat, alert := some (s.now + Config.alertMs)
    alertedAt := s.eventNo }

/-- A context is opened in ALERTING (R131). -/
theorem Lawful.openAlerting (h : Lawful none .reckoned k s) (hx : s.ctx i = none) (hm : k.mute → s.path.record i = none)
    (hlive : s.liveCount < s.role.limit) (hactive : s.role ≠ .desk → ∀ j, s.outsideClearing j = false) (sender : Byte) (c : CallId)
    (u : UnitNum) (w role phase : Byte) (ms : List Byte) : Lawful none .reckoned k (s.openAlerting i sender c u w role phase ms) := by
  unfold State.openAlerting
  dsimp only
  refine Lawful.alike ?_ (alike_post _ _)
  have ht : Touches i s ((s.setCtx i (some (s.alerted sender c u w role phase ms))).setAlerting i true) :=
    (touches_setCtx s i _).trans (touches_setAlerting _ i true)
  refine h.opened hx ht (y := s.alerted sender c u w role phase ms) (by rw [ctx_setAlerting, State.ctx_setCtx, if_pos rfl, State.alerted]) (fun hk => (h.role hk).opening ht hlive fun hd => .inr (hactive hd))
    (fun _ => ⟨rfl, nofun, nofun, nofun, fun _ => rfl, nofun, nofun⟩) (fun _ => ?_) (fun hk => ?_) fun hk => .inr (hm hk)
  · rw [alerting_setAlerting, if_pos rfl]
    simp [State.alerted]
  · rw [door_setAlerting]
    exact (h.bare_of_free hx).door hk

/-- A RING that lists this station is accepted or refused by the role (R129). -/
theorem Lawful.acceptRing (h : Lawful none .reckoned k s) (hm : k.mute → Unrecorded s) (sender : Byte) (c : CallId) (u : UnitNum)
    (w role phase : Byte) (ms : List Byte) : Lawful none .reckoned k (s.acceptRing sender c u w role phase ms) := by
  have hopen : (s.role ≠ .desk → ∀ j, s.outsideClearing j = false) → Lawful none .reckoned k
      (if s.liveCount ≥ s.role.limit then s.refuse c refuseNoContext
        else match s.freeRef with
          | some i => s.openAlerting i sender c u w role phase ms
          | none => s.refuse c refuseNoContext) := fun hactive => by
    split
    · exact h.alike (alike_refuse s c _)
    next hlive =>
      split
      next i hi =>
        have hx := freeRef_some hi
        exact h.openAlerting hx (fun hk => (hm hk).free i hx) (not_le.mp hlive) hactive sender c u w role phase ms
      next => exact h.alike (alike_refuse s c _)
  unfold State.acceptRing
  dsimp only
  split
  next => exact h.alike (alike_refuse s c _)
  next =>
    split
    · exact h.alike (alike_refuse s c _)
    · split
      · exact h.alike (alike_refuse s c _)
      next hn =>
        refine hopen fun _ j => ?_
        simp only [List.any_eq_true, not_exists, not_and, Bool.not_eq_true] at hn
        exact hn j (mem_refs j)
  next hd => exact hopen fun hne => absurd hd hne

theorem Lawful.ringAtAnswer (h : Lawful none p k s) (i : Ref) (phase : Byte) (ms : List Byte) : Lawful none p k (s.ringAtAnswer i phase ms) := by
  unfold State.ringAtAnswer
  split
  next x hx =>
    have hend : ∀ (b : Bool) (c : Cause), Lawful none p k (if b then s else s.endAnswer i c) := fun b c => by
      split
      · exact h
      · exact h.endAnswer i c
    dsimp only
    split
    · split
      · exact h
      · exact h.supersede i
    · split
      · exact h.adjust hx id rfl rfl rfl rfl rfl
      · exact h.endAnswer i _
    · split
      · exact h.adjust hx id rfl rfl rfl rfl rfl
      · exact h.endAnswer i _
    · exact hend _ _
  next => exact h

theorem Lawful.ringTaken (h : Lawful none .reckoned k s) (hm : k.mute → Unrecorded s) (sender : Byte) (c : CallId) (u : UnitNum)
    (w role phase : Byte) (ms : List Byte) : Lawful none .reckoned k (s.ringTaken sender c u w role phase ms) := by
  unfold State.ringTaken
  split
  · exact h.alike (alike_refuse s c _)
  split
  · exact h
  · split
    · exact h.ringAtAnswer _ phase ms
    · split
      · exact h.acceptRing hm sender c u w role phase ms
      · exact h

/-- An operation at the context of a call. -/
theorem Lawful.atCall (h : Lawful none p k s) (side : Side) (c : CallId) {f : State → Ref → State}
    (hf : ∀ i x, s.ctx i = some x → x.side = side → Lawful none p k (f s i)) : Lawful none p k (s.atCall side c f) := by
  unfold State.atCall
  split
  next i hi =>
    obtain ⟨x, hx, hside, -⟩ := findCtx_some hi
    exact hf i x hx hside
  next => exact h

theorem Lawful.atParty (h : Lawful none p k s) (c : CallId) {f : State → Ref → State} (hf : ∀ i, Lawful none p k (f s i)) :
    Lawful none p k (s.atParty c f) := by
  unfold State.atParty
  split
  · exact hf _
  · exact h

theorem Lawful.ringAny (h : Lawful none .reckoned k s) (hm : k.mute → Unrecorded s) (sender : Byte) (c : CallId) (u : UnitNum)
    (w role phase : Byte) (ms : List Byte) : Lawful none .reckoned k (s.ringAny sender c u w role phase ms) := by
  unfold State.ringAny
  split
  · exact h.alike (alike_refuse s c _)
  split
  · exact h.atCall _ c fun i _ _ _ => h.ownRing i phase _
  · exact h.ringTaken hm sender c u w role phase _

/-! ### ANSWER -/

/-- A context as it leaves ALERTING with an answer accepted (R134). -/
def Ctx.answers (x : Ctx) : Ctx := { x with alert := none, state := .answering }

theorem Ctx.Fits.answers (h : x.Fits) (hs : x.state = .alerting) : x.answers.Fits := by
  obtain ⟨h1, h2, h3, h4, -, h6, h7⟩ := h
  rw [hs] at h1 h2 h3 h4 h6
  refine ⟨?_, fun hc => ?_, fun hc => ?_, fun hc => ?_, nofun, fun hc => ?_, h7⟩
  · show x.side.has .answering = true
    cases hd : x.side with
    | origin => rw [hd] at h1; cases h1
    | answer => rfl
  · cases h2 hc
  · cases h3 hc
  · cases h4 hc
  · cases h6 hc

theorem Lawful.answers (h : Lawful none p k s) (hx : s.ctx i = some x) (hs : x.state = .alerting) :
    Lawful none p k ((s.setCtx i (some x.answers)).setAlerting i false) := by
  have ht : Touches i s ((s.setCtx i (some x.answers)).setAlerting i false) :=
    (touches_setCtx s i _).trans (touches_setAlerting _ i false)
  have hy : ((s.setCtx i (some x.answers)).setAlerting i false).ctx i = some x.answers := by simp
  refine h.touch ht ⟨fun hk => (h.role hk).mono ht.role fun j z hz => ?_, fun hk z hz => ?_, fun _ => ?_, fun hk hd => ?_,
    fun hk r z hr hm hz => ?_, fun hk r hr => ?_, fun _ c _ z hz => ?_⟩
  · by_cases hj : j = i
    · rw [hj]
      exact ⟨x, hx, by simp [hs]⟩
    · exact ⟨z, ht.ctx j hj ▸ hz, id⟩
  · obtain rfl := Option.some.inj (hy.symm.trans hz)
    exact (h.fits hk i x hx).answers hs
  · rw [alerting_setAlerting, if_pos rfl, hy]
    simp [Ctx.answers]
  · rw [door_setAlerting] at hd
    obtain ⟨z, hz, -, hs'⟩ := h.door hk i hd
    obtain rfl := Option.some.inj (hx.symm.trans hz)
    rw [hs] at hs'
    cases hs'
  · have hclear := h.mute hk i r x hr hm hx
    rw [hs] at hclear
    cases hclear
  · rw [h.record_none hk nofun hx (by simp [hs])] at hr
    cases hr
  · obtain rfl := Option.some.inj (hy.symm.trans hz)
    exact ⟨x, hx, rfl⟩

/-- An ALERTING context queues its ANSWER (R134, R142). -/
theorem Lawful.acceptAnswer (h : Lawful none p k s) (hx : s.ctx i = some x) (hs : x.state = .alerting) : Lawful none p k (s.acceptAnswer i) := by
  have ha := alike_callState ((s.setCtx i (some x.answers)).setAlerting i false) i (.answering s.sport.config.capability)
  have h1 := (h.answers hx hs).alike ha
  simp only [State.acceptAnswer, hx]
  split
  · exact h1.alike (alike_queueFrame _ _)
  · exact h1.endBare (x := x.answers) ((ha.ctx i).trans (by simp)) (by simp [Ctx.answers]) _

theorem earliestAlerting_some (h : s.earliestAlerting = some i) : ∃ x, s.ctx i = some x ∧ x.state = .alerting := by
  have hcand : ∀ (j : Ref) (z : Stamp × Ref), (match s.ctx j with
      | some c => if c.state = .alerting then some ((⟨c.alert.getD 0, c.alertedAt⟩ : Stamp), j) else none
      | none => none) = some z → z.2 = i → ∃ x, s.ctx i = some x ∧ x.state = .alerting := by
    intro j z hz hzi
    split at hz
    next x hx =>
      split at hz
      next hs =>
        obtain rfl := Option.some.inj hz
        obtain rfl : j = i := hzi
        exact ⟨x, hx, hs⟩
      next => cases hz
    next => cases hz
  obtain ⟨z, hz, hi⟩ := Option.map_eq_some_iff.mp h
  rcases earlier_mem hz with hz | hz
  · rcases earlier_mem hz with hz | hz
    · rcases earlier_mem hz with hz | hz
      · exact hcand _ z hz hi
      · exact hcand _ z hz hi
    · exact hcand _ z hz hi
  · exact hcand _ z hz hi

theorem Lawful.offHook (h : Lawful none p k s) : Lawful none p k s.offHook := by
  unfold State.offHook
  split
  next i hi =>
    obtain ⟨x, hx, hs⟩ := earliestAlerting_some hi
    exact h.acceptAnswer hx hs
  next => exact h

/-- The station takes its own ANSWER (R135, R140). -/
theorem Lawful.ownAnswer (h : Lawful none p k s) (i : Ref) : Lawful none p k (s.ownAnswer i) := by
  unfold State.ownAnswer
  split
  next x hx =>
    dsimp only
    split
    next hs =>
      split
      · exact h.endBare hx (by simp [hs]) _
      · refine Lawful.alike ?_ (alike_callState _ i _)
        refine h.setCtx hx (fun _ hf => ?_) rfl (by simp [hs]) (by simp [hs]) (by simp [hs])
          (.inr fun hk => h.record_none hk nofun hx (by simp [hs]))
        obtain ⟨e1, e2, e3, e4, -⟩ := hf.noTimers (by simp [hs])
        obtain ⟨h1, -, -, -, -, -, h7⟩ := hf
        rw [hs] at h1
        refine ⟨?_, fun hc => absurd e1 hc, fun hc => absurd e2 hc, fun hc => absurd e3 hc, fun hc => absurd e4 hc, fun _ => rfl, h7⟩
        show x.side.has .awaitPath = true
        cases hd : x.side with
        | origin => rw [hd] at h1; cases h1
        | answer => rfl
    next =>
      split
      next hs =>
        have hs' : x.state = .clearing := hs.1
        exact h.queueRelease (h.bare hx (by simp [hs']) (by simp [hs']) fun hk => h.record_none hk nofun hx (by simp [hs', hs.2.1]))
      next => exact h
  next => exact h

theorem Lawful.answerAtAnswer (h : Lawful none p k s) (i : Ref) (sender : Byte) : Lawful none p k (s.answerAtAnswer i sender) := by
  unfold State.answerAtAnswer
  split
  · split
    · split
      · exact h.endAnswer i _
      · exact h.endAnswer i _
      · exact h.supersede i
      · exact h
    · exact h
  · exact h

theorem Lawful.answerTaken (h : Lawful none .reckoned k s) (sender : Byte) (c : CallId) (cap : Byte) :
    Lawful none .reckoned k (s.answerTaken sender c cap) := by
  unfold State.answerTaken
  have h1 := h.atCall .origin c (f := fun t i => t.answerAtOrigin i sender cap) fun i _ _ _ => h.answerAtOrigin i sender cap
  refine h1.atCall .answer c fun i _ _ _ => ?_
  split
  · exact h1.ownAnswer i
  · exact h1.answerAtAnswer i sender

/-! ### Hanging up -/

/-- A HANGUP or an on-hook that its test accepts (R122, R141). -/
theorem Lawful.hangUp (h : Lawful none p k s) (hx : s.ctx i = some x) : Lawful none p k (s.hangUp i x) := by
  unfold State.hangUp
  split
  next hs => exact h.endBare hx (by simp [hs]) _
  next => exact h.makeFinal i
  next hn => exact h.clearOrigin hx (fun _ hc => hn hc) _ fun _ => .inl rfl
  next => exact h.clearAnswer i _

theorem Lawful.onHook (h : Lawful none p k s) : Lawful none p k s.onHook := by
  unfold State.onHook
  split
  · exact h
  · refine eachCtx_keeps h fun t j y ht hy => ?_
    split
    · exact ht.hangUp hy
    · exact ht

/-! ### The door request -/

theorem Lawful.setDoor (h : Lawful none p k s) (i : Ref) (e : Timer)
    (hd : k.door → e ≠ none → ∃ y, s.ctx i = some y ∧ y.side = .answer ∧ y.state = .talk) : Lawful none p k (s.setDoor i e) := by
  have ht := touches_setDoor s i e
  refine h.touch ht ⟨fun hk => (h.role hk).mono ht.role fun j z hz => ⟨z, hz, id⟩, fun hk z hz => h.fits hk i z hz, fun hk => h.alert hk i,
    fun hk hne => hd hk ?_, fun hk r z hr hm hz => h.mute hk i r z hr hm hz, fun hk r hr => h.stands hk i r hr, fun _ c _ z hz => ⟨z, hz, rfl⟩⟩
  rwa [door_setDoor, if_pos rfl] at hne

theorem Lawful.endDoor (h : Lawful none p k s) (i : Ref) (c : CallId) (r : DoorResult) : Lawful none p k (s.endDoor i c r) :=
  (h.setDoor i none fun _ hn => absurd rfl hn).alike (alike_post _ _)

/-- An accepted door request (R165, R166). -/
theorem Lawful.requestDoor (h : Lawful none p k s) (hx : s.ctx i = some x) (ht : s.doorTest i x = .accepted) (c : CallId) :
    Lawful none p k (s.requestDoor i c) := by
  have htalk : x.side = .answer ∧ x.state = .talk := by
    unfold State.doorTest at ht
    split at ht
    · cases ht
    next h1 =>
      split at ht
      · cases ht
      next h2 =>
        rw [not_or] at h1
        refine ⟨?_, not_not.mp h2⟩
        cases hd : x.side with
        | origin => exact absurd hd h1.1
        | answer => rfl
  unfold State.requestDoor
  split
  · exact (h.alike (alike_queueFrame s _)).setDoor i _ fun _ _ => ⟨x, ((alike_queueFrame s _).ctx i).trans hx, htalk⟩
  · exact h.endDoor i c _

theorem Lawful.doorPress (h : Lawful none p k s) : Lawful none p k s.doorPress := by
  unfold State.doorPress
  split
  · exact h
  · split
    · split
      next x hx =>
        split
        next ht => exact h.requestDoor hx ht _
        next => exact h
      next => exact h
    · exact h

theorem Lawful.openedTaken (h : Lawful none p k s) (sender : Byte) (c : CallId) (r : Byte) : Lawful none p k (s.openedTaken sender c r) := by
  unfold State.openedTaken
  split
  · split
    · exact h.endDoor _ c _
    · exact h
  · exact h

theorem alike_energize (s : State) : Alike s s.energize := ⟨rfl, rfl, rfl, rfl, rfl, le_refl _, rfl⟩

theorem alike_openTaken (s : State) (sender : Byte) (c : CallId) : Alike s (s.openTaken sender c) := by
  unfold State.openTaken
  split
  · exact .refl s
  · dsimp only
    refine Alike.trans ?_ ((alike_queueFrame _ _).trans (alike_post _ _))
    split
    · exact alike_energize s
    · exact .refl s

/-! ### A DESKKEY press -/

/-- What an accepted DIAL test gives (R101, R103). -/
theorem dialTest_accepted {u : UnitNum} {w : Byte} (h : s.dialTest u w = .accepted) :
    (s.role ≠ .desk → ∀ j, s.outsideClearing j = false) ∧ s.liveCount < s.role.limit := by
  unfold State.dialTest at h
  split at h
  case h_6 =>
    split at h
    · cases h
    split at h
    · cases h
    split at h
    · cases h
    split at h
    · cases h
    next hin =>
      split at h
      · cases h
      next hlive =>
        refine ⟨fun hd j => ?_, not_le.mp hlive⟩
        rw [← Bool.not_eq_true]
        exact fun hj => hin ⟨hd, List.any_eq_true.mpr ⟨j, mem_refs j, hj⟩⟩
  all_goals cases h

theorem Lawful.deskPress (h : Lawful none .reckoned k s) (hm : k.mute → Unrecorded s) : Lawful none .reckoned k s.deskPress := by
  unfold State.deskPress
  split
  next hd =>
    obtain ⟨h1, h2⟩ := dialTest_accepted hd.2
    split
    next i hi =>
      have hx := freeRef_some hi
      exact h.dialOpen hx (fun hk => (hm hk).free i hx) (fun _ => h2) (fun _ => h1) _ _
    next => exact h
  next => exact h

end AnswerSide

section Drops

variable {p : PortPhase} {k : Laws} {i : Ref} {s t : State} {x y : Ctx}

/-! ### Dropped frames and recall answers -/

theorem Lawful.freeClearing (h : Lawful none p k s) (hx : s.ctx i = some x) (hs : x.state = .clearing) (ha : x.awaits ≠ .pathOff) :
    Lawful none p k (s.freeCtx i) :=
  h.freeCtx (h.bare hx (by simp [hs]) (by simp [hs]) fun hk => h.record_none hk nofun hx (by simp [hs, ha]))

theorem Lawful.ringGone (h : Lawful none p k s) (hx : s.ctx i = some x) : Lawful none p k (s.ringGone i x) := by
  unfold State.ringGone
  split
  next hs => exact h.freeClearing hx hs.1 (by simp [hs.2])
  next => exact h.adjust hx id rfl rfl rfl rfl rfl

theorem Lawful.ringDropped (h : Lawful none p k s) (i : Ref) : Lawful none p k (s.ringDropped i) := by
  unfold State.ringDropped
  split
  next x hx =>
    split
    · exact h.ringGone hx
    next hc =>
      split
      next hs => exact h.endBare hx (by simp [hs.1]) _
      next => exact Lawful.clearSet (y := { x with forward := .none }) (h.adjust hx id rfl rfl rfl rfl rfl) (fun _ => hc) _ fun _ => .inl rfl
  next => exact h

theorem Lawful.callFrameGone (h : Lawful none p k s) (hx : s.ctx i = some x) : Lawful none p k (s.callFrameGone i x) := by
  unfold State.callFrameGone
  split
  next hs => exact h.freeClearing hx hs.1 (by simp [hs.2])
  next => exact h

theorem Lawful.claimDropped (h : Lawful none .reckoned k s) (i : Ref) : Lawful none .reckoned k (s.claimDropped i) := by
  unfold State.claimDropped
  split
  next x hx =>
    split
    next hs => exact h.claimFailed hx hs _
    next => exact h.callFrameGone hx
  next => exact h

theorem Lawful.waitDropped (h : Lawful none p k s) (i : Ref) : Lawful none p k (s.waitDropped i) := by
  unfold State.waitDropped
  split
  next x hx =>
    split
    next hs => exact h.clearOrigin hx (fun _ => by simp [hs]) _ fun _ => .inl rfl
    next => exact h.callFrameGone hx
  next => exact h

theorem Lawful.answerDropped (h : Lawful none p k s) (i : Ref) : Lawful none p k (s.answerDropped i) := by
  unfold State.answerDropped
  split
  next x hx =>
    split
    next hs => exact h.endBare hx (by simp [hs]) _
    next =>
      split
      next hs => exact h.freeClearing hx hs.1 (by simp [hs.2])
      next => exact h
  next => exact h

theorem Lawful.releaseDropped (h : Lawful none p k s) (i : Ref) : Lawful none p k (s.releaseDropped i) := by
  unfold State.releaseDropped
  split
  next x hx =>
    split
    next hs => exact (h.alike (alike_post s _)).freeClearing (((alike_post s _).ctx i).trans hx) hs.1 (by simp [hs.2])
    next => exact h
  next => exact h

theorem Lawful.openDropped (h : Lawful none p k s) (i : Ref) : Lawful none p k (s.openDropped i) := by
  unfold State.openDropped
  split
  · split
    · exact h.endDoor i _ _
    · exact h
  · exact h

theorem Lawful.seekDropped (h : Lawful none p k s) (u : UnitNum) : Lawful none p k (s.seekDropped u) := by
  unfold State.seekDropped
  split
  · split
    · exact (h.endSeek _).alike (alike_handOut _)
    · exact h.alike (alike_handOut _)
  · exact h.alike (alike_handOut _)

theorem Lawful.callFrameAnswer (h : Lawful none p k s) (i : Ref) (a : RecallAnswer) : Lawful none p k (s.callFrameAnswer i a) := by
  unfold State.callFrameAnswer
  split
  next x hx =>
    split
    · exact h.callFrameGone hx
    · unfold State.callFrameTaken
      split
      next hs =>
        split
        · exact h.queueRelease (h.bare hx (by simp [hs.1]) (by simp [hs.1]) fun hk => h.record_none hk nofun hx (by simp [hs]))
        · exact h.freeClearing hx hs.1 (by simp [hs.2])
      next => exact h
  next => exact h

theorem Lawful.ringAnswer (h : Lawful none p k s) (i : Ref) (a : RecallAnswer) : Lawful none p k (s.ringAnswer i a) := by
  unfold State.ringAnswer
  split
  next x hx =>
    split
    · exact h.ringGone hx
    · exact h
  next => exact h

theorem Lawful.answerAnswer (h : Lawful none p k s) (i : Ref) : Lawful none p k (s.answerAnswer i) := by
  unfold State.answerAnswer
  split
  next x hx =>
    split
    next hs => exact h.freeClearing hx hs.1 (by simp [hs.2])
    next => exact h
  next => exact h

theorem Lawful.releaseAnswer (h : Lawful none .reckoned k s) (hm : k.mute → Unrecorded s) (i : Ref) (a : RecallAnswer) :
    Lawful none .reckoned k (s.releaseAnswer i a) := by
  unfold State.releaseAnswer
  split
  next x hx =>
    split
    · split
      next hs => exact h.releaseRecalled hx hs.1 hs.2 fun hk => (hm hk).released i x hx hs.1 hs.2
      next => exact h
    · exact h
  next => exact h

theorem Lawful.recallResult (h : Lawful none .reckoned k s) (hcut : k.path → 4 ≤ k.cut) (hm : k.mute → Unrecorded s) (id : FrameId)
    (a : RecallAnswer) : Lawful none .reckoned k (s.recallResult id a) := by
  unfold State.recallResult
  split
  · split
    · exact h.nextOverdue hcut
    · exact h
  · split
    · exact h.alike (alike_handOut s)
    · exact h
  · exact h.atCall _ _ fun i _ _ _ => h.ringAnswer i a
  · exact h.atCall _ _ fun i _ _ _ => h.callFrameAnswer i a
  · exact h.atCall _ _ fun i _ _ _ => h.callFrameAnswer i a
  · exact h.atCall _ _ fun i _ _ _ => h.answerAnswer i
  · exact h.atParty _ fun i => h.releaseAnswer hm i a
  · exact h

end Drops

end Sys2Proof.Machine
end


section
/-! PROOFS. An installed snapshot keeps the followed laws: PATH cut to the copy, the RELEASEs of the muting paths, and the contexts
settled one by one (R20, R72, R73, R158). -/

namespace Sys2Proof.Machine

section Install

variable {l : Option Ref} {p : PortPhase} {k : Laws} {i : Ref} {s t : State} {y : Ctx}

/-! ### How far the contexts are settled -/

/-- The followed laws with the contexts below n settled against the copy. -/
def Laws.upTo (k : Laws) (n : Nat) : Laws := { k with cut := n }

/-- Only the dark records say how far the contexts are settled. -/
theorem Lawful.recut {m n : Nat} (h : Lawful l p (k.upTo n) s)
    (hd : k.path → ∀ j r, s.path.record j = some r → s.path.lit j = false → m ≤ j.val) : Lawful l p (k.upTo m) s :=
  ⟨h.role, h.fits, h.alert, h.door, h.mute, h.slots, h.wired, fun hk j r hr => by
    obtain ⟨x, hx, hst⟩ := h.stands hk j r hr
    exact ⟨x, hx, hst.half, hst.fits, hst.held, fun hl => ⟨hd hk j r hr hl, (hst.dark hl).2⟩⟩, h.port⟩

/-- The next context is settled where its record, if it has one, is lit. -/
theorem Lawful.settleNext (h : Lawful l p (k.upTo i.val) s)
    (hl : k.path → ∀ r, s.path.record i = some r → s.path.lit i = true) : Lawful l p (k.upTo (i.val + 1)) s :=
  h.recut fun hk j r hr hd => by
    obtain ⟨x, -, hst⟩ := h.stands hk j r hr
    have hle : i.val ≤ j.val := (hst.dark hd).1
    have hne : j ≠ i := by
      rintro rfl
      rw [hl hk r hr] at hd
      cases hd
    have := Fin.val_ne_of_ne hne
    omega

theorem Lawful.settleNext_of_none (h : Lawful l p (k.upTo i.val) s) (hr : k.path → s.path.record i = none) :
    Lawful l p (k.upTo (i.val + 1)) s :=
  h.settleNext fun hk r hr' => by rw [hr hk] at hr'; cases hr'

/-- In CLEARING a record mutes, and so is lit. -/
theorem Lawful.settleNext_of_cleared (h : Lawful none p (k.upTo i.val) s) (hc : s.Cleared i) : Lawful none p (k.upTo (i.val + 1)) s :=
  h.settleNext fun hk r hr => by
    obtain ⟨x, hx, hst⟩ := h.stands hk i r hr
    have hs := hc x hx
    have hfit := hst.fits nofun
    by_contra hd
    obtain ⟨-, hm, -⟩ := hst.dark (Bool.not_eq_true _ ▸ hd)
    unfold PathRec.Fits at hfit
    cases hstage : r.stage <;> simp only [hstage] at hfit
    · exact absurd (hfit.2.1.symm.trans hs) (by simp)
    · exact absurd (hfit.2.1.symm.trans hs) (by simp)
    · exact absurd (hfit.2.1.symm.trans hs) (by simp)
    · exact hm hstage

/-! ### A clearing leaves the context cleared -/

theorem cleared_teardownThenRelease (h : s.Cleared i) : (s.teardownThenRelease i).Cleared i := by
  have ht : (s.teardown i).Cleared i := h.of_ctx (.inr (.inl (State.ctx_congr (teardown_ctxs s i) i)))
  unfold State.teardownThenRelease
  split
  · exact cleared_sendRelease ht i
  · intro x hx
    rw [ctx_setAwaits] at hx
    obtain ⟨z, hz, rfl⟩ := Option.map_eq_some_iff.mp hx
    exact ht z hz

theorem cleared_enterClearing (hy : s.ctx i = some y) (c : Cause) (final : Bool) : (s.enterClearing i c final).Cleared i := by
  obtain ⟨z, hz, hs, -⟩ := ctx_enterClearing_any hy c final
  intro x hx
  obtain rfl := Option.some.inj (hz.symm.trans hx)
  exact hs

/-- A call with a path cleared: its context is in CLEARING, or freed. -/
theorem cleared_clearCall (hy : s.ctx i = some y) (hs : y.state = .settling ∨ y.state = .talk) (c : Cause) : (s.clearCall i c).Cleared i := by
  have henter := cleared_enterClearing hy c true
  simp only [State.clearCall, hy]
  split
  · simp only [State.clearOrigin, hy, if_pos hs]
    exact cleared_teardownThenRelease (henter.of_ctx (.inr (.inl (ctx_recallCall _ _ i))))
  · simp only [State.clearAnswer, hy]
    rcases hs with hs | hs
    · simp only [hs]
      exact cleared_teardownThenRelease henter
    · simp only [hs]
      exact cleared_teardownThenRelease henter

/-! ### One context against the copy -/

/-- A context with a path keeps it where the copy holds its block, and clears its call otherwise (R73). -/
theorem Lawful.keepPath (h : Lawful none .reckoned (k.upTo i.val) s) (hy : s.ctx i = some y) (hs : y.state = .settling ∨ y.state = .talk) :
    Lawful none .reckoned (k.upTo (i.val + 1))
      (if (s.smu.blockOf y.cid).isSome && s.smu.blockOf y.cid = y.path then s else s.clearCall i .lostPath) := by
  split
  next hb =>
    simp only [Bool.and_eq_true, decide_eq_true_eq] at hb
    refine h.settleNext fun hk r hr => ?_
    obtain ⟨x, hx, hst⟩ := h.stands hk i r hr
    obtain rfl := Option.some.inj (hy.symm.trans hx)
    have hfit := hst.fits nofun
    by_contra hd
    obtain ⟨-, hm, hne⟩ := hst.dark (Bool.not_eq_true _ ▸ hd)
    have hpath : y.path = some r.block := by
      unfold PathRec.Fits at hfit
      cases hstage : r.stage <;> simp only [hstage] at hfit
      · exact hfit.2.2.1
      · exact hfit.2.2.1
      · exact hfit.2.2.1
      · exact absurd hstage hm
    exact hne (hb.2.trans hpath)
  next =>
    have hne : y.state ≠ .clearing := by rcases hs with hs | hs <;> simp [hs]
    exact (h.clearCall hy (fun _ => hne) _).settleNext_of_cleared (cleared_clearCall hy hs _)

theorem Lawful.settleCtx (h : Lawful none .reckoned (k.upTo i.val) s) (hy : s.ctx i = some y) :
    Lawful none .reckoned (k.upTo (i.val + 1)) (s.settleCtx i y) := by
  have hbare : y.state ≠ .settling ∧ y.state ≠ .talk ∧ y.state ≠ .clearing → Lawful none .reckoned (k.upTo (i.val + 1)) s := fun hs =>
    h.settleNext_of_none fun hk => h.record_none hk nofun hy ⟨hs.1, hs.2.1, fun hc => absurd hc hs.2.2⟩
  unfold State.settleCtx
  dsimp only
  split
  next hs => exact h.keepPath hy (.inl hs)
  next hs => exact h.keepPath hy (.inr hs)
  next hs =>
    have ha := (alike_askRecall s ⟨.claim, .call y.cid⟩).trans (alike_askRecall _ ⟨.wait, .call y.cid⟩)
    have h1 := (hbare (by simp [hs])).alike ha
    have hy1 := (ha.ctx i).trans hy
    split
    · exact h1.settleOn hy1 (.inl hs) (fun _ => trivial) _
    · exact h1.enterWaiting hy1 hs _
    · exact hbare (by simp [hs])
  next hs =>
    have h1 := hbare (by simp [hs])
    split
    · exact h1.settleOn hy (.inr (.inl hs)) (fun _ => trivial) _
    · exact h1
    · exact h1.clearCall hy (fun _ => by simp [hs]) _
  next hs =>
    have h1 := hbare (by simp [hs])
    split
    · exact h1.settleOn hy (.inr (.inr hs)) (fun _ => trivial) _
    · exact h1
  next hs =>
    have h1 : Lawful none .reckoned (k.upTo (i.val + 1)) s := h.settleNext_of_cleared fun x hx => by
      obtain rfl := Option.some.inj (hy.symm.trans hx)
      exact hs
    split
    · exact h1.recordBlock hy hs _
    · exact h1
  next h1 h2 _ _ _ h6 => exact hbare ⟨fun hs => h1 hs, fun hs => h2 hs, fun hs => h6 hs⟩

/-- The four contexts settled, no record is dark. -/
theorem Lawful.settled (h : Lawful l p (k.upTo 4) s) : Lawful l p k s :=
  h.recut (m := k.cut) fun hk j r hr hd => by
    obtain ⟨x, -, hst⟩ := h.stands hk j r hr
    exact absurd (hst.dark hd).1 (not_le.mpr j.isLt)

/-- Every context settled against the copy (R73). -/
theorem Lawful.settlePass (h : Lawful none .reckoned (k.upTo 0) s) : Lawful none .reckoned (k.upTo 4) (s.eachCtx State.settleCtx) :=
  eachCtx_end (M := fun n t => Lawful none .reckoned (k.upTo n) t) h
    (fun _ _ ht hfree => ht.settleNext_of_none fun hk => ht.record_none_of_free hk hfree) fun _ _ _ ht hy => ht.settleCtx hy

/-! ### PATH cut to the copy -/

theorem Lawful.allLit (h : Lawful l p k s) (hk : k.path) (hcut : 4 ≤ k.cut) : s.path.AllLit := by
  refine ⟨fun j r hr => ⟨(h.wired hk).width j r hr, fun n h1 h2 => ?_⟩, (h.wired hk).within⟩
  obtain ⟨x, -, hl, -⟩ := h.held hk hcut hr
  exact ⟨_, (h.wired hk).lights j r hr hl n h1 h2, rfl⟩

/-- A record against the copy is kept, stopped or removed: none comes to mute (R158). -/
theorem mute_of_cutUnbacked {j : Ref} {r : PathRec} (hr : (s.cutUnbacked i).path.record j = some r) (hm : r.stage = .mute) :
    s.path.record j = some r := by
  unfold State.cutUnbacked at hr
  split at hr
  next q hq =>
    split at hr
    next =>
      dsimp only at hr
      rw [Path.record_setRec] at hr
      split at hr
      next hj =>
        split at hr
        · cases hr
        next hne =>
          obtain rfl := Option.some.inj hr
          exact absurd hm hne
      next => rwa [Path.record_setBlock] at hr
    next => exact hr
  next => exact hr

theorem port_cutUnbacked (s : State) (i : Ref) : (s.cutUnbacked i).path.owner = s.path.owner ∧ (s.cutUnbacked i).path.gate = s.path.gate
    ∧ (s.cutUnbacked i).path.rate = s.path.rate := by
  unfold State.cutUnbacked
  repeat' split
  all_goals exact ⟨rfl, rfl, rfl⟩

/-- The installed state before the port is re-reckoned. -/
def State.cutInstalled (s : State) (hs : List SnapHold) (ws : List SnapWait) : State := (s.installBase hs ws).eachRef State.cutUnbacked

variable {hs : List SnapHold} {ws : List SnapWait}

theorem mute_of_cutInstalled {j : Ref} {r : PathRec} (hr : (s.cutInstalled hs ws).path.record j = some r) (hm : r.stage = .mute) :
    s.path.record j = some r := by
  rw [← installBase_path s hs ws]
  exact mute_of_cutUnbacked (mute_of_cutUnbacked (mute_of_cutUnbacked (mute_of_cutUnbacked hr hm) hm) hm) hm

theorem port_cutInstalled : (s.cutInstalled hs ws).path.owner = s.path.owner ∧ (s.cutInstalled hs ws).path.gate = s.path.gate
    ∧ (s.cutInstalled hs ws).path.rate = s.path.rate := by
  have h : ∀ t : State, (t.eachRef State.cutUnbacked).path.owner = t.path.owner ∧ (t.eachRef State.cutUnbacked).path.gate = t.path.gate
      ∧ (t.eachRef State.cutUnbacked).path.rate = t.path.rate := fun t => by
    simp only [State.eachRef, port_cutUnbacked, and_self]
  rw [← installBase_path s hs ws]
  exact h _

theorem cutInstalled_eq : ∃ q r, s.cutInstalled hs ws = { s with smu := s.installedCopy hs ws, path := q, rif := r } := by
  obtain ⟨q, hq⟩ := eachRef_cutUnbacked_eq (s.installBase hs ws)
  obtain ⟨r, hr⟩ := installBase_eq s hs ws
  exact ⟨q, _, by rw [State.cutInstalled, hq, hr]⟩

/-- What the copy leaves of a record (R158). -/
theorem cutRecord_installBase {r x : PathRec} (hy : s.ctx i = some y) (hr : s.path.record i = some r)
    (hx : (s.installBase hs ws).cutRecord i = some x) :
    (s.installedCopy hs ws).blockOf y.cid = some r.block ∧ x = r
      ∨ (s.installedCopy hs ws).blockOf y.cid ≠ some r.block ∧ r.stage ≠ .mute ∧ x = r.stopped := by
  rw [State.cutRecord, installBase_path, hr, Option.bind_some] at hx
  split at hx
  next hb => exact .inl ⟨(backed_installBase s hs ws hy hr).mp hb, (Option.some.inj hx).symm⟩
  next hb =>
    split at hx
    · cases hx
    next hm => exact .inr ⟨fun h => hb ((backed_installBase s hs ws hy hr).mpr h), hm, (Option.some.inj hx).symm⟩

/-- A record that stops its timers still fits (R158). -/
theorem PathRec.Fits.stopped {r : PathRec} {now : Nat} (h : r.Fits y now) (hm : r.stage ≠ .mute) : r.stopped.Fits y now := by
  have hst : r.stopped.stage = r.stage := rfl
  unfold PathRec.Fits at h ⊢
  rw [hst]
  cases hs : r.stage <;> simp only [hs] at h ⊢
  · exact ⟨h.1, h.2.1, h.2.2.1, rfl, h.2.2.2.2.1, rfl⟩
  · exact ⟨h.1, h.2.1, h.2.2.1, rfl, h.2.2.2.2⟩
  · exact ⟨h.1, h.2.1, h.2.2.1, rfl, rfl, h.2.2.2.2.2⟩
  · exact absurd hs hm

/-- The copy replaced and PATH cut to it: the records that the copy does not hold are dark, or removed where they muted (R20, R158). -/
theorem Lawful.cutInstalled (h : Lawful none .reckoned k s) (hcut : k.path → 4 ≤ k.cut) (hv : snapValid hs ws = true)
    (hroom : ws.length ≤ Config.waitCap) : Lawful none .open_ (k.upTo 0) (s.cutInstalled hs ws) := by
  obtain ⟨q, rif, heq⟩ := cutInstalled_eq (s := s) (hs := hs) (ws := ws)
  have hctx : ∀ j, (s.cutInstalled hs ws).ctx j = s.ctx j := fun j => by rw [heq]; rfl
  have hsmu : (s.cutInstalled hs ws).smu = s.installedCopy hs ws := by rw [heq]
  have hnow : (s.cutInstalled hs ws).now = s.now := by rw [heq]
  have hbelow : k.path → CutBelow 4 (s.installBase hs ws) (s.cutInstalled hs ws) := fun hk =>
    cutBelow_eachRef (by rw [installBase_path]; exact h.allLit hk (hcut hk))
  have hdim : k.path → (s.cutInstalled hs ws).path.Wired ∧ ∀ j, (s.cutInstalled hs ws).path.lit j = true ↔
      s.path.lit j = true ∧ ¬ (s.installBase hs ws).backed j = false := fun hk => by
    have hb := hbelow hk
    obtain ⟨ho, hg, hra⟩ := port_cutInstalled (s := s) (hs := hs) (ws := ws)
    refine (h.wired hk).dim (fun j => (s.installBase hs ws).backed j = false) (fun n e he => ?_) (fun n e he hne => ?_)
      (fun j hne => ?_) (fun j x hd hx => ?_) ho hg hra
    · obtain ⟨h1, h2⟩ := hb.on n e he
      rw [installBase_path] at h1
      exact ⟨h1, by simp [h2 e.ref.isLt]⟩
    · obtain ⟨r, hr, h1, h2⟩ := (h.wired hk).within n e he
      rw [hb.kept e.ref r (.inr (Bool.not_eq_false _ ▸ hne)) (by rw [installBase_path]; exact hr) n h1 h2, installBase_path]
      exact he
    · rw [hb.below j j.isLt, State.cutRecord, installBase_path]
      cases s.path.record j with
      | none => rfl
      | some r => rw [Option.bind_some, if_pos (Bool.not_eq_false _ ▸ hne)]
    · rw [hb.below j j.isLt] at hx
      cases hr : s.path.record j with
      | none => rw [State.cutRecord, installBase_path, hr] at hx; cases hx
      | some r =>
        obtain ⟨z, hz, -⟩ := h.stands hk j r hr
        rcases cutRecord_installBase hz hr hx with ⟨-, rfl⟩ | ⟨-, -, rfl⟩
        · exact ⟨x, rfl, rfl, rfl⟩
        · exact ⟨r, rfl, rfl, rfl⟩
  refine ⟨fun hk => ?_, fun hk j z hz => h.fits hk j z (hctx j ▸ hz), fun hk j => ?_, fun hk j => ?_, fun hk j r z hr hm hz => ?_,
    fun _ => hsmu ▸ slotLaw_installedCopy s hv hroom, fun hk => (hdim hk).1, fun hk j x hx => ?_, fun _ => trivial⟩
  · exact (h.role hk).mono (by rw [heq]; rfl) fun j z hz => ⟨z, hctx j ▸ hz, id⟩
  · rw [hctx, heq]
    exact h.alert hk j
  · rw [hctx, heq]
    exact h.door hk j
  · exact h.mute hk j r z (mute_of_cutInstalled hr hm) hm (hctx j ▸ hz)
  · have hx' : (s.installBase hs ws).cutRecord j = some x := (hbelow hk).below j j.isLt ▸ hx
    cases hr : s.path.record j with
    | none => rw [State.cutRecord, installBase_path, hr] at hx'; cases hx'
    | some r =>
      obtain ⟨z, hz, hst⟩ := h.stands hk j r hr
      have hlit := (hdim hk).2 j
      have hback := backed_installBase s hs ws hz hr
      refine ⟨z, (hctx j).trans hz, ?_⟩
      rcases cutRecord_installBase hz hr hx' with ⟨hb, rfl⟩ | ⟨hb, hm, rfl⟩
      · refine ⟨hst.half, fun _ => hnow ▸ hst.fits nofun, fun _ => hsmu ▸ hb, fun hd => ?_⟩
        obtain ⟨w, -, hl, -⟩ := h.held hk (hcut hk) hr
        rw [hlit.mpr ⟨hl, by simp [hback.mpr hb]⟩] at hd
        cases hd
      · refine ⟨hst.half, fun _ => hnow ▸ (hst.fits nofun).stopped hm, fun hl => ?_, fun _ => ⟨Nat.zero_le _, hm, hsmu ▸ hb⟩⟩
        exact absurd (hback.mp (Bool.not_eq_false _ ▸ (hlit.mp hl).2)) hb

/-- A snapshot installed at the SMU and at PATH (R20, R158). -/
theorem Lawful.install (h : Lawful none .reckoned k s) (hcut : k.path → 4 ≤ k.cut) (hv : snapValid hs ws = true)
    (hroom : ws.length ≤ Config.waitCap) : Lawful none .reckoned (k.upTo 0) (s.install hs ws) := by
  have hrecs : ∀ j, ((s.installBase hs ws).installPath).path.record j = (s.cutInstalled hs ws).path.record j := fun j =>
    State.record_reckonOwner _ j
  have hmuting : ∀ j ∈ (s.installBase hs ws).unbackedMuting, ∃ r, s.path.record j = some r ∧ r.stage = .mute
      ∧ (s.installBase hs ws).backed j = false := fun j hj => by
    simp only [State.unbackedMuting, List.mem_filter, Bool.and_eq_true, Bool.not_eq_true', installBase_path] at hj
    obtain ⟨-, ⟨-, hm⟩, hb⟩ := hj
    cases hr : s.path.record j with
    | none => simp [Path.muting, hr] at hm
    | some r => exact ⟨r, rfl, by simpa [Path.muting, hr] using hm, hb⟩
  rw [install_eq]
  refine Lawful.sendReleases _ (h.cutInstalled hcut hv hroom).reckonOwner (fun hk j hj z hz => ?_) fun hk j hj => ?_
  · obtain ⟨r, hr, hm, -⟩ := hmuting j hj
    obtain ⟨q, rif, heq⟩ := cutInstalled_eq (s := s) (hs := hs) (ws := ws)
    refine h.mute hk j r z hr hm ?_
    rw [← hz]
    refine Eq.symm ((ctx_reckonOwner _ j).trans ?_)
    rw [← State.cutInstalled, heq]
    rfl
  · obtain ⟨r, hr, hm, hb⟩ := hmuting j hj
    have hbelow := cutBelow_eachRef (c := s.installBase hs ws) (by rw [installBase_path]; exact h.allLit hk (hcut hk))
    refine (hrecs j).trans ((hbelow.below j j.isLt).trans ?_)
    rw [State.cutRecord, installBase_path, hr, Option.bind_some, if_neg (by simp [hb]), if_pos hm]

/-- A snapshot installed in JOINED, every context settled against it, and the stale calls released (R72 to R74). -/
theorem Lawful.joinedSnapshot (h : Lawful none .reckoned k s) (hcut : k.path → 4 ≤ k.cut) (hroom : ws.length ≤ Config.waitCap)
    (sender : Byte) : Lawful none .reckoned k (s.joinedSnapshot sender hs ws) := by
  have h1 : Lawful none .reckoned k ((s.stopStagger).askRecall ⟨.snapshot, .bare⟩) :=
    h.alike ((alike_withStc s _).trans (alike_askRecall _ _))
  unfold State.joinedSnapshot
  dsimp only
  split
  · exact h1
  next hv =>
    simp only [Bool.or_eq_true, Bool.not_eq_true', not_or, Bool.not_eq_false] at hv
    exact (((h1.alike (alike_post _ _)).install hcut hv.1 hroom).settlePass.settled).staleSelfRelease

end Install

end Sys2Proof.Machine
end


section
/-! PROOFS. PATH's timers and detectors keep the followed laws (R146, R150 to R153, R156). -/

namespace Sys2Proof.Machine

section PathTimers

variable {l : Option Ref} {p : PortPhase} {k : Laws} {i : Ref} {s t : State} {r r' : PathRec}

/-! ### A record's timers and stage -/

/-- Record i changed on its block and the gate set. -/
def State.withRec (s : State) (i : Ref) (r : PathRec) (gate : Bool) : State :=
  { s with path := { s.path.setRec i (some r) with gate := gate } }

theorem record_withRec (g : Bool) (j : Ref) : (s.withRec i r' g).path.record j = if j = i then some r' else s.path.record j :=
  Path.record_setRec s.path i j (some r')

theorem enable_withRec (hw : s.path.Wired) (hr : s.path.record i = some r) (hm : r'.stage = .mute ↔ r.stage = .mute) (g : Bool) (n : Nat) :
    (s.withRec i r' g).path.enable n = if s.path.lit i = true ∧ r.base ≤ n ∧ n < r.base + r.width
      then some ⟨i, r.sendHalf, (s.withRec i r' g).path.contentOf i r'⟩ else s.path.enable n := by
  have hen : (s.withRec i r' g).path.enable n = s.path.enable n := Path.enable_setRec s.path i (some r') n
  rw [hen]
  split
  next hn =>
    rw [hw.lights i r hr hn.1 n hn.2.1 hn.2.2]
    simp only [Path.contentOf, ne_eq, hm]
    rfl
  next => rfl

/-- A record's timers or stage change, and the gate with an owner's stage; it keeps its block, its half and its place in the order of
settling (R149, R154). -/
theorem Lawful.revise (h : Lawful l .reckoned k s) (hr : s.path.record i = some r) (hb : r'.block = r.block)
    (hs : r'.sendHalf = r.sendHalf) (ho : r'.order = r.order) (hm : k.mute → r'.stage = .mute → r.stage = .mute)
    (hm' : k.path → (r'.stage = .mute ↔ r.stage = .mute)) {g : Bool} (hg : k.path → s.path.owner = some i → g = decide (r'.stage = .opened))
    (hg' : s.path.owner ≠ some i → g = s.path.gate)
    (hfit : k.path → l ≠ some i → ∀ x, s.ctx i = some x → r.Fits x s.now → r'.Fits x s.now) :
    Lawful l .reckoned k (s.withRec i r' g) := by
  have hlit : k.path → ∀ j, (s.withRec i r' g).path.lit j = s.path.lit j := fun hk =>
    (h.wired hk).lit_redraw hr hb (record_withRec g) (enable_withRec (h.wired hk) hr (hm' hk) g)
  refine h.withPath (q := (s.withRec i r' g).path) (fun hk j q x hq hst hx => ?_) (fun hk => ?_) (fun hk j q hq => ?_) fun hk => ?_
  · rw [show ({ s with path := (s.withRec i r' g).path } : State).path.record j = _ from record_withRec g j] at hq
    split at hq
    next hj =>
      obtain rfl := Option.some.inj hq
      exact h.mute hk j r x (hj ▸ hr) (hm hk hst) hx
    next => exact h.mute hk j q x hq hst hx
  · refine (h.wired hk).redraw hr hb hs (record_withRec g) rfl (enable_withRec (h.wired hk) hr (hm' hk) g) (fun hown hst => ?_)
      fun hown => ⟨hg' hown, rfl⟩
    have hrate := ((h.wired hk).owned i r hown hr (mt (hm' hk).mpr hst)).1
    exact ⟨hrate.trans (congrArg Prod.snd hb).symm, hg hk hown⟩
  · rw [record_withRec] at hq
    split at hq
    next hj =>
      subst hj
      obtain rfl := Option.some.inj hq
      obtain ⟨x, hx, hst⟩ := h.stands hk j r hr
      refine ⟨x, hx, hs.trans hst.half, fun hl => hfit hk hl x hx (hst.fits hl), fun hl => ?_, fun hl => ?_⟩
      · rw [hb]
        exact hst.held (hlit hk j ▸ hl)
      · obtain ⟨h1, h2, h3⟩ := hst.dark (hlit hk j ▸ hl)
        exact ⟨h1, mt (hm' hk).mp h2, by rw [hb]; exact h3⟩
    next =>
      obtain ⟨x, hx, hst⟩ := h.stands hk j q hq
      exact ⟨x, hx, hst.relit (hlit hk j)⟩
  · have hp : s.path.owner = s.path.bestOwner := h.port hk
    refine hp.trans (Eq.symm (Path.bestOwner_congr fun j => ?_))
    by_cases hj : j = i
    · subst hj
      have hl : ({ s with path := (s.withRec j r' g).path } : State).path.lit j = s.path.lit j := hlit hk j
      have hrec : ({ s with path := (s.withRec j r' g).path } : State).path.record j = some r' := (record_withRec g j).trans (if_pos rfl)
      simp only [Path.claimOrder, hrec, hr, hl, ho, ne_eq, hm' hk]
    · exact Path.claimOrder_congr ((record_withRec g j).trans (if_neg hj)) (hlit hk j)

/-- The port's owner has a record outside MUTE. -/
theorem Lawful.owner_record (h : Lawful l .reckoned k s) (hk : k.path) (hown : s.path.owner = some i) :
    ∃ r, s.path.record i = some r ∧ r.stage ≠ .mute := by
  obtain ⟨r, hr, hm, -⟩ := Path.bestOwner_some ((show s.path.owner = s.path.bestOwner from h.port hk) ▸ hown)
  exact ⟨r, hr, hm⟩

/-- A record's timers alone change. -/
theorem Lawful.retime (h : Lawful l .reckoned k s) (hr : s.path.record i = some r) (hb : r'.block = r.block)
    (hs : r'.sendHalf = r.sendHalf) (ho : r'.order = r.order) (hm : k.mute → r'.stage = .mute → r.stage = .mute)
    (hst : k.path → r'.stage ≠ r.stage → r.stage = .settle ∧ r'.stage = .unmute)
    (hfit : k.path → l ≠ some i → ∀ x, s.ctx i = some x → r.Fits x s.now → r'.Fits x s.now) :
    Lawful l .reckoned k { s with path := s.path.setRec i (some r') } := by
  refine h.revise (g := s.path.gate) hr hb hs ho hm (fun hk => ?_) (fun hk hown => ?_) (fun _ => rfl) hfit
  · by_cases he : r'.stage = r.stage
    · rw [he]
    · obtain ⟨h1, h2⟩ := hst hk he
      simp [h1, h2]
  · obtain ⟨q, hq, hmute⟩ := h.owner_record hk hown
    obtain rfl := Option.some.inj (hr.symm.trans hq)
    rw [((h.wired hk).owned i r hown hr hmute).2]
    by_cases he : r'.stage = r.stage
    · rw [he]
    · obtain ⟨h1, h2⟩ := hst hk he
      simp [h1, h2]

/-! ### The carrier detectors -/

/-- PATH's detectors alone change. -/
theorem Lawful.samePath (h : Lawful l p k s) {q : Path} (he : q.enables = s.path.enables) (hr : q.recs = s.path.recs)
    (ho : q.owner = s.path.owner) (hg : q.gate = s.path.gate) (hra : q.rate = s.path.rate) : Lawful l p k { s with path := q } := by
  have hen : ∀ n, q.enable n = s.path.enable n := fun n => by unfold Path.enable; rw [he]
  have hrec : ∀ j, q.record j = s.path.record j := fun j => by unfold Path.record; rw [hr]
  have hlit : ∀ j, q.lit j = s.path.lit j := fun j => Path.lit_congr (hrec j) fun n => by rw [hen]
  refine h.withPath (fun hk j r x hq => h.mute hk j r x (hrec j ▸ hq)) (fun hk => (h.wired hk).congr he hr ho hg hra) (fun hk j r hq => ?_)
    fun hk => ?_
  · obtain ⟨x, hx, hst⟩ := h.stands hk j r (hrec j ▸ hq)
    exact ⟨x, hx, hst.relit (hlit j)⟩
  · have hp := h.port hk
    cases p with
    | reckoned => exact ho.trans (Eq.trans hp (Eq.symm (Path.bestOwner_congr fun j => Path.claimOrder_congr (hrec j) (hlit j))))
    | open_ => trivial
    | freed c => exact fun j x hj hn hx => hp j x (ho ▸ hj) (hrec j ▸ hn) hx

theorem fits_completeSettle {q : Path} {x : Ctx} {now : Nat} (hs : r.stage = .settle) (h : r.Fits x now) (at_ : Nat) :
    (q.completeSettle r at_).Fits x now := by
  unfold PathRec.Fits at h ⊢
  rw [hs] at h
  exact ⟨h.1, h.2.1, h.2.2.1, rfl, h.2.2.2.2.1⟩

/-- A record at a change of a detector (R150, R153). -/
theorem Lawful.detectorAt (h : Lawful none .reckoned k s) (hr : s.path.record i = some r) (mode : SettleMode) (now : Nat) (half : Half)
    (n : Channel) (b : Bool) : Lawful none .reckoned k { s with path := s.path.setRec i (some (s.path.detectorAt mode now half n b r)) } := by
  have hsame : Lawful none .reckoned k { s with path := s.path.setRec i (some r) } :=
    h.retime hr rfl rfl rfl (fun _ => id) (fun _ hne => absurd rfl hne) fun _ _ _ _ => id
  have hwatch : ∀ v : Vector Timer 4, r.stage = .unmute ∨ r.stage = .opened →
      Lawful none .reckoned k { s with path := s.path.setRec i (some { r with loss := v }) } := fun v hst => by
    refine h.retime (r' := { r with loss := v }) hr rfl rfl rfl (fun _ => id) (fun _ hne => absurd rfl hne) fun _ _ x _ hf => ?_
    unfold PathRec.Fits at hf ⊢
    rcases hst with hst | hst
    · simp only [hst] at hf ⊢
      exact hf
    · simp only [hst] at hf ⊢
      exact hf
  unfold Path.detectorAt
  split
  · split
    next hst =>
      split
      · exact h.retime hr rfl rfl rfl (fun _ hm => by cases hm) (fun _ _ => ⟨hst, rfl⟩) fun _ _ x _ hf => fits_completeSettle hst hf now
      · exact hsame
    next => exact hsame
    next h1 h2 =>
      refine hwatch _ ?_
      cases hst : r.stage with
      | settle => exact absurd hst h1
      | unmute => exact .inl rfl
      | opened => exact .inr rfl
      | mute => exact absurd hst h2
  · exact hsame

theorem Lawful.detectorChanges (h : Lawful none .reckoned k s) (half : Half) (n : Channel) (b : Bool) :
    Lawful none .reckoned k (s.detectorChanges half n b) := by
  have hat : ∀ (t : State) (i : Ref), Lawful none .reckoned k t → Lawful none .reckoned k (match t.path.record i with
      | some r => { t with path := t.path.setRec i (some (t.path.detectorAt t.sport.config.settle t.now half n b r)) }
      | none => t) := fun t i ht => by
    split
    next r hr => exact ht.detectorAt hr _ _ _ _ _
    next => exact ht
  have h0 : Lawful none .reckoned k { s with path := s.path.setDetector half n b } := by
    cases half <;> exact h.samePath rfl rfl rfl rfl rfl
  exact hat _ 3 (hat _ 2 (hat _ 1 (hat _ 0 h0)))

theorem Lawful.loseSupply (h : Lawful l p k s) : Lawful l p k s.loseSupply :=
  (h.samePath (q := { s.path with fwd := Vector.replicate 24 false, ret := Vector.replicate 24 false }) rfl rfl rfl rfl rfl).alike
    (alike_withRif _ _)

/-! ### The timers -/

theorem Lawful.reportClears (h : Lawful none p k s) (i : Ref) {st : CtxState} (hst : st ≠ .clearing) (c : Cause) :
    Lawful none p k (s.reportClears i st c) := by
  unfold State.reportClears
  split
  next x hx =>
    split
    next hs => exact h.clearCall hx (fun _ => hs ▸ hst) c
    next => exact h
  next => exact h

theorem modifyRec_live (hr : s.path.record i = some r) (f : PathRec → PathRec) :
    s.modifyRec i f = { s with path := s.path.setRec i (some (f r)) } := by
  rw [State.modifyRec, hr]

/-- The settle timer expires in SETTLE: "no carrier", or the stage completes (R150, R151). -/
theorem Lawful.settleExpires (h : Lawful none .reckoned k s) (hr : s.path.record i = some r) (hst : k.path → r.stage = .settle) :
    Lawful none .reckoned k (s.settleExpires i) := by
  unfold State.settleExpires
  rw [modifyRec_live hr, modifyRec_live hr]
  split
  · refine Lawful.reportClears (st := .settling) ?_ i (by simp) _
    refine h.retime hr rfl rfl rfl (fun _ => id) (fun _ hne => absurd rfl hne) fun hk _ x _ hf => ?_
    unfold PathRec.Fits at hf ⊢
    simp only [hst hk] at hf ⊢
    exact hf
  · exact h.retime hr rfl rfl rfl (fun _ hm => by cases hm) (fun hk _ => ⟨hst hk, rfl⟩) fun hk _ x _ hf => fits_completeSettle (hst hk) hf _

theorem Lawful.carrierLost (h : Lawful none .reckoned k s) (i : Ref) : Lawful none .reckoned k (s.carrierLost i) := by
  refine Lawful.reportClears ?_ i (by simp) _
  unfold State.modifyRec
  split
  next r hr =>
    refine h.retime hr rfl rfl rfl (fun _ => id) (fun _ hne => absurd rfl hne) fun _ _ x _ hf => ?_
    unfold PathRec.Fits at hf ⊢
    cases hs : r.stage <;> simp only [hs] at hf ⊢
    · exact ⟨hf.1, hf.2.1, hf.2.2.1, hf.2.2.2.1, hf.2.2.2.2.1, trivial⟩
    · exact hf
    · exact hf
    · exact ⟨hf.1, hf.2.1, hf.2.2.1, hf.2.2.2.1, hf.2.2.2.2.1, trivial, hf.2.2.2.2.2.2⟩
  next => exact h

/-- A context as "path up" finds and leaves it (R118, R138). -/
def Ctx.talks (x : Ctx) (e : Timer) : Ctx := { x with state := .talk, talk := e }

theorem Ctx.Fits.talks {x : Ctx} (h : x.Fits) (hs : x.state = .settling) (e : Timer) : (x.talks e).Fits := by
  obtain ⟨h1, h2, -, h4, h5⟩ := h.noTimers (by simp [hs])
  obtain ⟨-, -, -, -, -, -, hrev⟩ := h
  refine ⟨?_, fun hc => absurd h1 hc, fun hc => absurd h2 hc, fun _ => rfl, fun hc => absurd h4 hc, fun hc => absurd h5 hc, hrev⟩
  show x.side.has .talk = true
  cases x.side <;> rfl

theorem Lawful.pathUp (h : Lawful (some i) p k s) : Lawful (some i) p k (s.pathUp i) := by
  unfold State.pathUp
  cases hx : s.ctx i with
  | none => simpa only [State.modifyCtx, hx] using h
  | some x =>
    rw [modifyCtx_live hx]
    split
    next hs =>
      exact h.setCtx (y := x.talks _) hx (fun _ hf => hf.talks hs _) rfl (by simp [hs, Ctx.talks]) (by simp [hs]) (by simp [hs])
        (.inl ⟨rfl, fun hn => absurd rfl hn⟩)
    next => exact h.adjust hx id rfl rfl rfl rfl rfl

theorem ctx_pathUp {x : Ctx} (hx : s.ctx i = some x) (hs : x.state = .settling) : ∃ e, (s.pathUp i).ctx i = some (x.talks e) := by
  refine ⟨if x.side = .origin then some (s.now + 1000 * s.sport.config.talkLimit) else none, ?_⟩
  rw [State.pathUp, modifyCtx_live hx, State.ctx_setCtx, if_pos rfl, if_pos hs]
  rfl

/-- A record in OPEN (R152). -/
def PathRec.unmuted (r : PathRec) : PathRec := { r with stage := .opened, unmuteTimer := none }

theorem unmuteExpires_eq (hr : s.path.record i = some r) : s.unmuteExpires i =
    ((s.withRec i r.unmuted (s.path.gate || decide (s.path.owner = some i))).pathUp i).postPath i (decide (s.path.owner = some i)) := by
  unfold State.unmuteExpires
  rw [modifyRec_live hr]
  rfl

/-- The unmute timer expires in UNMUTE: the gate opens for the owner, and the context goes to TALK (R152, R154). -/
theorem Lawful.unmuteExpires (h : Lawful none .reckoned k s) (hr : s.path.record i = some r) (hst : k.path → r.stage = .unmute) :
    Lawful none .reckoned k (s.unmuteExpires i) := by
  have hopen : Lawful (some i) .reckoned k (s.withRec i r.unmuted (s.path.gate || decide (s.path.owner = some i))) :=
    (h.loosen i).revise (r' := r.unmuted) hr rfl rfl rfl (fun _ hm => by cases hm) (fun hk => by simp [hst hk, PathRec.unmuted])
      (fun _ hown => by simp [hown, PathRec.unmuted]) (fun hown => by simp [hown]) fun _ hl => absurd rfl hl
  rw [unmuteExpires_eq hr]
  refine Lawful.alike (hopen.pathUp.tighten fun hk q x hq hx => ?_) (alike_postPath _ i _)
  have hpath : ((s.withRec i r.unmuted (s.path.gate || decide (s.path.owner = some i))).pathUp i).path
      = (s.withRec i r.unmuted (s.path.gate || decide (s.path.owner = some i))).path := (touches_modifyCtx _ i _).path
  rw [hpath, record_withRec, if_pos rfl] at hq
  obtain rfl := Option.some.inj hq
  obtain ⟨z, hz, hstands⟩ := h.stands hk i r hr
  have hf := hstands.fits nofun
  unfold PathRec.Fits at hf
  rw [hst hk] at hf
  obtain ⟨hhalf, hsettling, hblock, hset, hmute⟩ := hf
  obtain ⟨e, he⟩ := ctx_pathUp (s := s.withRec i r.unmuted (s.path.gate || decide (s.path.owner = some i))) hz hsettling
  obtain rfl := Option.some.inj (he.symm.trans hx)
  exact ⟨hhalf, rfl, hblock, hset, rfl, hmute⟩

theorem alike_leaveCheck (s : State) : Alike s s.leaveCheck := by
  rcases leaveCheck_eq s with h | h
  · rw [h]; exact .refl s
  · rw [h]; exact alike_queueFrame s _

/-- The mute timer expires: the enables go off and the RELEASE falls due (R121, R140, R156). -/
theorem Lawful.muteExpires (h : Lawful none .reckoned k s) (hc : k.mute → s.Cleared i) : Lawful none .reckoned k (s.muteExpires i) := by
  have h1 := (h.cutPath i).reckonOwner
  have hr : ((s.cutPath i).reckonOwner).path.record i = none := (State.record_reckonOwner _ i).trans (record_cutPath s i)
  have hctx : ((s.cutPath i).reckonOwner).ctx i = s.ctx i := ctx_reckonOwner _ i
  unfold State.muteExpires
  dsimp only
  split
  next x hx =>
    split
    · refine Lawful.alike ?_ (alike_leaveCheck _)
      exact Lawful.sendReleases [i] h1 (fun hk j hj z hz => by
        obtain rfl := List.mem_singleton.mp hj
        exact hc hk z (hctx ▸ hz)) fun _ j hj => by
        obtain rfl := List.mem_singleton.mp hj
        exact hr
    · exact h1
  next => exact h1

end PathTimers

end Sys2Proof.Machine
end


section
/-! PROOFS. The station controller keeps the followed laws: off the riser, learning, joining, leaving (R62 to R81). -/

namespace Sys2Proof.Machine

section Station

variable {p : PortPhase} {k : Laws} {i : Ref} {s t : State} {y : Ctx}

/-! ### Operations that no law reads -/

theorem alike_newEvent (s : State) : Alike s s.newEvent := ⟨rfl, rfl, rfl, rfl, rfl, le_refl _, rfl⟩

theorem alike_at (s : State) (e : Nat) : Alike s (s.at e) := ⟨rfl, rfl, rfl, rfl, rfl, Nat.le_max_left _ _, rfl⟩

theorem alike_moveTo (s : State) (n : StationState) (r : StationReason) : Alike s (s.moveTo n r) :=
  (alike_withStc s { s.stc with state := n, locked := n.locks }).trans (alike_post _ _)

theorem alike_setOffer (s : State) (o : OfferState) : Alike s (s.setOffer o) := alike_withUdir s _

theorem alike_armStagger (s : State) : Alike s s.armStagger := by
  unfold State.armStagger
  split
  · exact alike_withStc s _
  · exact .refl s

theorem alike_joinTaken (s : State) (x r : Byte) (u : UnitNum) (w : Byte) : Alike s (s.joinTaken x r u w) := by
  unfold State.joinTaken
  dsimp only
  split
  · exact (alike_withUdir s _).trans (alike_armStagger _)
  · exact alike_withUdir s _

theorem alike_directoryOffer (s : State) (x : Byte) (u : UnitNum) (w : Byte) : Alike s (s.directoryOffer x u w) := by
  unfold State.directoryOffer
  split
  · exact alike_withUdir s _
  · exact .refl s

theorem alike_offerTaken (s : State) (x : Byte) (u : UnitNum) (w : Byte) : Alike s (s.offerTaken x u w) := by
  unfold State.offerTaken
  dsimp only
  split
  · exact (alike_directoryOffer s x u w).trans ((alike_setOffer _ _).trans (alike_handOut _))
  · exact alike_directoryOffer s x u w

theorem alike_staggerExpires (s : State) : Alike s s.staggerExpires := by
  unfold State.staggerExpires
  split
  · exact (alike_withStc s _).trans (alike_queueFrame _ _)
  · exact alike_withStc s _

/-! ### PATH and the copy emptied -/

/-- The copy empty and PATH off. -/
def State.blanked (s : State) : State := { s with smu := { holds := [], waits := [] }, path := s.path.clear }

theorem record_clear (q : Path) (j : Ref) : q.clear.record j = none := by simp [Path.clear, Path.record]

/-- With the copy empty and PATH off its laws hold (R81, R158, R160). -/
theorem Lawful.blanked {l : Option Ref} (hrole : k.role → s.WithinRole) (hfits : k.fits → ContextLaw s) (halert : k.alert → AlertLaw s)
    (hdoor : k.door → DoorLaw s) : Lawful l .reckoned k s.blanked where
  role := hrole
  fits := hfits
  alert := halert
  door := hdoor
  mute _ j r x hr := by rw [show s.blanked.path.record j = none from record_clear s.path j] at hr; cases hr
  slots _ := slotLaw_empty
  wired _ := .clear s.path
  stands _ j r hr := by rw [show s.blanked.path.record j = none from record_clear s.path j] at hr; cases hr
  port _ := by
    cases hb : s.path.clear.bestOwner with
    | none => exact hb.symm
    | some j =>
      obtain ⟨r, hr, -⟩ := Path.bestOwner_some hb
      rw [record_clear] at hr
      cases hr

/-! ### Off the riser -/

/-- The followed laws that an ended context keeps whatever PATH's records. -/
def Laws.noPath (k : Laws) : Laws := { k with path := False, fits_of_path := False.elim }

theorem Lawful.noPath (h : Lawful none p k s) : Lawful none p k.noPath s :=
  ⟨h.role, h.fits, h.alert, h.door, h.mute, False.elim, False.elim, False.elim, False.elim⟩

theorem alike_emptied (t : State) : Alike t.blanked (((t.clearPath.emptyQueue).emptyCopy.stopLearning).closeSeeks) :=
  ⟨rfl, rfl, rfl, rfl, rfl, le_refl _, rfl⟩

theorem Lawful.offRiser (h : Lawful none .reckoned k s) : Lawful none .reckoned k s.offRiser := by
  have h1 : Lawful none .reckoned k.noPath s.endAll := eachCtx_keeps h.noPath fun t j _ ht _ => ht.endNow False.elim _
  exact (Lawful.blanked (k := k) (l := none) h1.role h1.fits h1.alert h1.door).alike (alike_emptied _)

theorem Lawful.enterIsolated (h : Lawful none .reckoned k s) : Lawful none .reckoned k s.enterIsolated := h.offRiser.alike (alike_moveTo _ _ _)

theorem Lawful.enterConfigured (h : Lawful none .reckoned k s) (r : StationReason) : Lawful none .reckoned k (s.enterConfigured r) :=
  h.offRiser.alike ((alike_withUdir _ _).trans (alike_moveTo _ _ _))

theorem Lawful.conflict (h : Lawful none .reckoned k s) : Lawful none .reckoned k s.conflict :=
  h.offRiser.alike ((alike_withUdir _ _).trans ((alike_post _ _).trans (alike_moveTo _ _ _)))

theorem Lawful.riserLost (h : Lawful none .reckoned k s) : Lawful none .reckoned k s.riserLost := by
  unfold State.riserLost
  split
  · exact h.enterIsolated
  · exact h.enterIsolated
  · exact h.enterConfigured _
  · exact h

/-! ### Learning -/

theorem alike_learning (t : State) (f : Frame) :
    Alike t.blanked (((((t.emptyCopy).clearPath.stopLearning).closeSeeks.setOutcome .none).forgetPolarity).queueFrame f) := by
  refine Alike.trans (t := (((t.emptyCopy).clearPath.stopLearning).closeSeeks.setOutcome .none).forgetPolarity) ?_ (alike_queueFrame _ _)
  exact ⟨rfl, rfl, rfl, rfl, rfl, le_refl _, rfl⟩

theorem Lawful.enterLearning (h : Lawful none .reckoned k s) (r : StationReason) : Lawful none .reckoned k (s.enterLearning r) := by
  have h1 := h.alike (alike_moveTo s .learning r)
  exact (Lawful.blanked (k := k) (l := none) h1.role h1.fits h1.alert h1.door).alike (alike_learning _ s.joinFrame)

theorem Lawful.riserReturned (h : Lawful none .reckoned k s) : Lawful none .reckoned k s.riserReturned := by
  unfold State.riserReturned
  split
  · exact h.enterLearning _
  · exact h

/-- A copy emptied while no record stands. -/
theorem Lawful.emptyCopy {l : Option Ref} (h : Lawful l p k s) (hr : k.path → ∀ j, s.path.record j = none) : Lawful l p k s.emptyCopy where
  role := h.role
  fits := h.fits
  alert := h.alert
  door := h.door
  mute := h.mute
  slots _ := slotLaw_empty
  wired := h.wired
  stands hk j r hj := by rw [show s.emptyCopy.path.record j = none from hr hk j] at hj; cases hj
  port hk := by
    have hp := h.port hk
    cases p <;> exact hp

theorem Lawful.learnRestart (h : Lawful none p k s) (hfree : k.path → ∀ j, s.ctx j = none) (r : LearnReason) :
    Lawful none p k (s.learnRestart r) := by
  have h1 := ((h.alike (alike_withStc s { s.stc with buffer := [], learn := none, stagger := none })).emptyCopy fun hk j =>
    h.record_none_of_free hk (hfree hk j)).alike (alike_withStc _ { (s.stopLearning).stc with outcome := .none })
  unfold State.learnRestart
  dsimp only
  refine Lawful.alike ?_ (alike_post _ _)
  split
  · exact h1
  · exact h1.alike (alike_queueFrame _ _)

theorem Lawful.learnFrame (h : Lawful none p k s) (hfree : k.path → ∀ j, s.ctx j = none) (x : Byte) (f : Frame) :
    Lawful none p k (s.learnFrame x f) := by
  unfold State.learnFrame
  split
  · exact h.alike (alike_withStc s _)
  · exact h.learnRestart hfree _

theorem Lawful.becomeJoined (h : Lawful none .reckoned k s) (o : LearnOutcome) : Lawful none .reckoned k (s.becomeJoined o) := by
  refine Lawful.staleSelfRelease (h.alike ?_)
  exact (alike_withStc s _).trans ((alike_withStc _ _).trans (alike_moveTo _ _ _))

/-- A buffered frame applied (R68). -/
theorem Lawful.applyBuffered (h : Lawful none .reckoned k s) (hcut : k.path → 4 ≤ k.cut) (x : Byte × Frame) :
    Lawful none .reckoned k (s.applyBuffered x) := by
  obtain ⟨b, f⟩ := x
  have h1 := h.alike (alike_newEvent s)
  cases f with
  | claim c n w => exact h1.claimTaken hcut b c n w
  | wait c w => exact h1.waitTaken hcut b c w
  | release c r => exact h1.releaseTaken hcut b c r
  | reclaim c => exact h1.reclaimTaken hcut b c
  | join r u w => exact h1.alike (alike_withUdir _ _)
  | offer u w => exact h1.alike (alike_directoryOffer _ b u w)
  | leave => exact h1.alike (alike_withUdir _ _)
  | _ => exact h1

theorem Lawful.learnExpires (h : Lawful none .reckoned k s) (hcut : k.path → 4 ≤ k.cut) : Lawful none .reckoned k s.learnExpires :=
  (foldl_keeps (fun _ x ht => ht.applyBuffered hcut x) _ h).becomeJoined _

theorem ctx_install_of_free {hs : List SnapHold} {ws : List SnapWait} (h : ∀ j, s.ctx j = none) (j : Ref) : (s.install hs ws).ctx j = none := by
  have hctx : ∀ j, (s.installBase hs ws).installPath.ctx j = none := fun j =>
    (State.ctx_congr (installPath_rest (s.installBase hs ws)).2.2.2.1 j).trans ((ctx_installBase s hs ws j).trans (h j))
  rw [install_eq, foldl_sendRelease_of_free hctx]
  exact hctx j

/-- A snapshot ends learning: no context's path is on the copy (R67). -/
theorem Lawful.learnSnapshot (h : Lawful none .reckoned k s) (hcut : k.path → 4 ≤ k.cut) (hfree : k.path → ∀ j, s.ctx j = none)
    {hs : List SnapHold} {ws : List SnapWait} (hroom : ws.length ≤ Config.waitCap) : Lawful none .reckoned k (s.learnSnapshot hs ws) := by
  unfold State.learnSnapshot
  split
  next hv =>
    have h1 := h.install hcut hv hroom
    have h2 : Lawful none .reckoned (k.upTo 4) (s.install hs ws) := h1.recut fun hk j r hr _ => by
      rw [h1.record_none_of_free hk (ctx_install_of_free (hfree hk) j)] at hr
      cases hr
    exact h2.settled.becomeJoined _
  next => exact h

/-! ### Membership -/

theorem Lawful.snapshotTaken (h : Lawful none .reckoned k s) (hcut : k.path → 4 ≤ k.cut) {hs : List SnapHold} {ws : List SnapWait}
    (hroom : ws.length ≤ Config.waitCap) (x : Byte) : Lawful none .reckoned k (s.snapshotTaken x hs ws) := by
  unfold State.snapshotTaken
  split
  · exact h.joinedSnapshot hcut hroom x
  · exact h

theorem Lawful.leaveTaken (h : Lawful none .reckoned k s) (x : Byte) : Lawful none .reckoned k (s.leaveTaken x) := by
  have h1 := h.alike (alike_withUdir s { s.udir with lines := removeStation x s.udir.lines })
  unfold State.leaveTaken
  dsimp only
  split
  · exact h1.enterConfigured _
  · exact h1

theorem Lawful.restartCtx (h : Lawful none p k s) (hy : s.ctx i = some y) : Lawful none p k (s.restartCtx i y) := by
  unfold State.restartCtx
  split
  · split
    · exact h.makeFinal i
    · exact h
  next hs => exact h.clearCall hy (fun _ => hs) _

theorem Lawful.enterLeaving (h : Lawful none p k s) : Lawful none p k s.enterLeaving := by
  have h1 := h.alike ((alike_withStc s _).trans ((alike_askRecall s.stopStagger ⟨.snapshot, .bare⟩).trans (alike_askRecall _ s.joinFrame.ident)))
  have h2 : Lawful none p k _ := eachCtx_keeps (f := State.restartCtx) h1 fun t j y ht hy => ht.restartCtx hy
  unfold State.enterLeaving
  dsimp only
  refine Lawful.alike ?_ ((alike_moveTo _ _ _).trans (alike_leaveCheck _))
  split
  · exact h2.alike (alike_setOffer _ _)
  · exact h2

end Station

end Sys2Proof.Machine
end


section
/-! PROOFS. Every command keeps the followed laws. -/

namespace Sys2Proof.Machine

/-- What the followed laws are stated from: the contexts are settled, and the path, lock and idle laws stand where they are needed. -/
structure Grounds (k : Laws) (s : State) : Prop where
  cut : k.path → 4 ≤ k.cut
  path : k.mute → PathLaw s
  lock : k.role ∨ k.path → LockLaw s
  idle : k.role ∨ k.path → IdleLaw s

section Commands

variable {k : Laws} {i : Ref} {s t : State}

/-- The station stands lawful on its grounds. -/
abbrev Follows (k : Laws) (s : State) : Prop := Lawful none .reckoned k s

theorem Grounds.free_of_learning (g : Grounds k s) (hk : k.path) (hs : s.stc.state = .learning) (j : Ref) : s.ctx j = none := by
  obtain ⟨hidle, -⟩ := g.idle (.inr hk)
  exact (hidle (by simp [State.member, hs])).1 j

theorem Grounds.free_of_unlocked (g : Grounds k s) (hk : k.role) (hs : s.stc.locked = false) (j : Ref) : s.ctx j = none := by
  obtain ⟨hidle, -⟩ := g.idle (.inl hk)
  have hlocks : s.stc.state.locks = false := (g.lock (.inl hk)).symm.trans hs
  refine (hidle ?_).1 j
  cases hst : s.stc.state <;> simp [hst, StationState.locks, State.member] at hlocks ⊢

theorem Grounds.unrecorded (g : Grounds k s) (ha : Alike s t) (hk : k.mute) : Unrecorded t := (g.path hk).unrecorded.alike ha

/-! ### Taken frames -/

/-- A taken frame acts on a state that differs in nothing that a law reads (R54, R60). -/
theorem Lawful.taking (h : Follows k s) (x : Byte) (f : Frame) {learn act : State → State}
    (hl : f.suits = true → s.stc.state = .learning → ∀ t, Alike s t → Follows k t → Follows k (learn t))
    (ha : f.suits = true → ∀ t, Alike s t → Follows k t → Follows k (act t)) : Follows k (s.taking x f learn act) := by
  have hd : ∀ t, Alike s t → t.stc.state = s.stc.state → Follows k (t.deliver x f learn act) := fun t ht hstc => by
    unfold State.deliver
    split
    · exact h.alike ht
    next hs =>
      simp only [Bool.not_eq_true, Bool.not_eq_false', Bool.and_eq_true] at hs
      have htn := ht.trans (alike_newEvent t)
      split
      next hlearn => exact hl hs.2 (hstc ▸ hlearn) _ htn (h.alike htn)
      next => exact (ha hs.2 _ htn (h.alike htn)).alike (alike_leaveCheck _)
  unfold State.taking
  split
  · exact h
  · split
    · split
      · exact hd _ ((alike_withRif s _).trans (alike_withRif _ _)) rfl
      · exact h
    · split
      · exact h.conflict
      · exact hd s (.refl s) rfl

theorem Lawful.takes (h : Follows k s) (g : Grounds k s) (x : Byte) (f : Frame) {act : State → State}
    (ha : ∀ t, Alike s t → Follows k t → Follows k (act t)) : Follows k (s.takes x f act) :=
  h.taking x f (fun _ hs _ ht hf => hf.learnFrame (fun hk j => (ht.ctx j).trans (g.free_of_learning hk hs j)) x f) fun _ => ha

/-! ### Dropped frames and recall answers -/

theorem Lawful.frameDropped (h : Follows k s) (hcut : k.path → 4 ≤ k.cut)
    (hfree : k.path → s.stc.state = .learning → ∀ j, s.ctx j = none) (f : Frame) : Follows k (s.frameDropped f) := by
  cases f with
  | snapshot _ _ => exact h
  | reclaim c => exact (h.setAudit hcut c _).nextOverdue hcut
  | join _ _ _ =>
    show Follows k s.joinDropped
    unfold State.joinDropped
    split
    next hs => exact h.learnRestart (fun hk => hfree hk hs) _
    next => exact h.alike (alike_queueFrame s _)
    next => exact h
  | leave => exact h.enterConfigured _
  | seek u => exact h.seekDropped u
  | offer _ _ => exact h.alike ((alike_setOffer s _).trans (alike_handOut _))
  | ring c _ _ _ _ _ => exact h.atCall _ c fun j _ _ _ => h.ringDropped j
  | answer c _ => exact h.atCall _ c fun j _ _ _ => h.answerDropped j
  | refuse _ _ => exact h
  | claim c _ _ => exact h.atCall _ c fun j _ _ _ => h.claimDropped j
  | wait c _ => exact h.atCall _ c fun j _ _ _ => h.waitDropped j
  | release c _ => exact h.atParty c fun j => h.releaseDropped j
  | open_ c => exact h.atCall _ c fun j _ _ _ => h.openDropped j
  | opened _ _ => exact h

theorem Lawful.ownSpoiled (h : Follows k s) (hcut : k.path → 4 ≤ k.cut) (hfree : k.path → s.stc.state = .learning → ∀ j, s.ctx j = none)
    (e : Entry) : Follows k (s.ownSpoiled e) := by
  unfold State.ownSpoiled
  split
  · exact h.alike ((alike_withRif s _).trans (alike_withRif _ _))
  · split
    · exact h.alike (alike_withRif s _)
    · exact Lawful.frameDropped (s := s.dropCarrying.forgetOpenRecall e.frame.ident)
        (h.alike ((alike_withRif s _).trans (alike_withRif _ _))) hcut hfree e.frame

theorem Lawful.execFrameSpoiled (h : Follows k s) (g : Grounds k s) (x : Byte) (r : List Byte) :
    ∃ t, Machine.execFrameSpoiled x r s = .next t ∧ Follows k t := by
  refine ⟨_, rfl, ?_⟩
  split
  · exact h
  · split
    next e _ =>
      exact (Lawful.ownSpoiled (s := s.newEvent.setMark false) (h.alike ((alike_newEvent s).trans (alike_withRif _ _))) g.cut
        g.free_of_learning e).alike (alike_leaveCheck _)
    next => exact h.alike (alike_withRif s _)

theorem Lawful.deliverAnswer (h : Follows k s) (hcut : k.path → 4 ≤ k.cut) (hm : k.mute → Unrecorded s) (id : FrameId) (a : RecallAnswer) :
    Follows k (s.deliverAnswer id a) := by
  have ha := (alike_newEvent s).trans (alike_withRif _ { s.rif with recalls := s.rif.recalls.eraseP fun r => r.id = id })
  have h1 : Follows k (s.newEvent.forgetRecall id) := h.alike ha
  unfold State.deliverAnswer
  dsimp only
  refine Lawful.alike ?_ (alike_leaveCheck _)
  split
  · exact h1
  · exact h1.recallResult hcut (fun hk => (hm hk).alike ha) id a

theorem Lawful.execRecallAnswered (h : Follows k s) (g : Grounds k s) (id : FrameId) :
    ∃ t, Machine.execRecallAnswered id s = .next t ∧ Follows k t := by
  have hself := g.unrecorded (.refl s)
  refine ⟨_, rfl, ?_⟩
  split
  · exact h
  · split
    · split
      · split
        · exact h.alike (alike_withRif s _)
        · have ha := alike_withRif s (s.dropQueued id).rif
          exact (h.alike ha).deliverAnswer g.cut (g.unrecorded ha) _ _
      · exact h.deliverAnswer g.cut hself _ _
    · exact h
    · exact h.deliverAnswer g.cut hself _ _

/-! ### Expiries -/

/-- An expiry moves the clock alone before it acts. -/
theorem Lawful.expire (h : Follows k s) (e : Timer) {act : State → State}
    (ha : ∀ t at_, e = some at_ → t = s.at at_ → Alike s t → Follows k t → Follows k (act t)) : Follows k (s.expire e act) := by
  unfold State.expire
  split
  next at_ => exact ha _ at_ rfl rfl (alike_at s at_) (h.alike (alike_at s at_))
  next => exact h

theorem ctxTimer_some {get : Ctx → Timer} {e : Nat} (h : s.ctxTimer i get = some e) : ∃ x, s.ctx i = some x ∧ get x = some e := by
  unfold State.ctxTimer at h
  split at h
  next x hx => exact ⟨x, hx, h⟩
  next => cases h

theorem recTimer_some {get : PathRec → Timer} {e : Nat} (h : s.recTimer i get = some e) : ∃ r, s.path.record i = some r ∧ get r = some e := by
  unfold State.recTimer at h
  split at h
  next r hr => exact ⟨r, hr, h⟩
  next => cases h

/-- A context's timer expires. -/
theorem Lawful.expireCtx (h : Follows k s) (i : Ref) (get : Ctx → Timer) {act : State → State}
    (ha : ∀ t x, Follows k t → t.ctx i = some x → get x ≠ none → Follows k (act t)) : Follows k (s.expire (s.ctxTimer i get) act) :=
  h.expire _ fun t e he ht hal hf => by
    obtain ⟨x, hx, hg⟩ := ctxTimer_some he
    exact ha t x hf ((hal.ctx i).trans hx) (by rw [hg]; simp)

/-- A record's timer expires. -/
theorem Lawful.expireRec (h : Follows k s) (i : Ref) (get : PathRec → Timer) {act : State → State}
    (ha : ∀ t r, Alike s t → Follows k t → t.path.record i = some r → get r ≠ none → Follows k (act t)) :
    Follows k (s.expire (s.recTimer i get) act) :=
  h.expire _ fun t e he ht hal hf => by
    obtain ⟨r, hr, hg⟩ := recTimer_some he
    exact ha t r hal hf (hal.path ▸ hr) (by rw [hg]; simp)

/-- Each timer of a record runs in its own stage (R150 to R153, R156). -/
theorem PathRec.Fits.stage_of_timer {r : PathRec} {x : Ctx} {now : Nat} (h : r.Fits x now) : (r.settleTimer ≠ none → r.stage = .settle)
    ∧ (r.unmuteTimer ≠ none → r.stage = .unmute) ∧ (r.muteTimer ≠ none → x.state = .clearing) := by
  unfold PathRec.Fits at h
  cases hs : r.stage <;> simp only [hs] at h
  · exact ⟨fun _ => rfl, fun hn => absurd h.2.2.2.1 hn, fun hn => absurd h.2.2.2.2.1 hn⟩
  · exact ⟨fun hn => absurd h.2.2.2.1 hn, fun _ => rfl, fun hn => absurd h.2.2.2.2 hn⟩
  · exact ⟨fun hn => absurd h.2.2.2.1 hn, fun hn => absurd h.2.2.2.2.1 hn, fun hn => absurd h.2.2.2.2.2 hn⟩
  · exact ⟨fun hn => absurd h.2.2.2.1 hn, fun hn => absurd h.2.2.2.2.1 hn, fun _ => h.2.1⟩

theorem Lawful.stage_of_timer (h : Follows k s) (hk : k.path) {r : PathRec} (hr : s.path.record i = some r) :
    (r.settleTimer ≠ none → r.stage = .settle) ∧ (r.unmuteTimer ≠ none → r.stage = .unmute) := by
  obtain ⟨x, -, hst⟩ := h.stands hk i r hr
  obtain ⟨h1, h2, -⟩ := (hst.fits nofun).stage_of_timer
  exact ⟨h1, h2⟩

theorem PathLaw.cleared_of_timer (h : PathLaw s) {r : PathRec} (hr : s.path.record i = some r) (hm : r.muteTimer ≠ none) : s.Cleared i := by
  obtain ⟨⟨x, -, hx, hf, -⟩, -⟩ := h.1 i r hr
  intro z hz
  obtain rfl := Option.some.inj (hx.symm.trans hz)
  exact hf.stage_of_timer.2.2 hm

theorem Ctx.Fits.state_of_wait {x : Ctx} (h : x.Fits) (hw : x.wait ≠ none) : x.state = .waiting ∧ x.side = .origin := by
  obtain ⟨hside, -, hwait, -⟩ := h
  rw [hwait hw] at hside
  refine ⟨hwait hw, ?_⟩
  cases hd : x.side with
  | origin => rfl
  | answer => rw [hd] at hside; cases hside

theorem Lawful.auditExpires (h : Follows k s) (hcut : k.path → 4 ≤ k.cut) (c : CallId) : Follows k (s.auditExpires c) :=
  (h.setAudit hcut c _).queueReclaim hcut c

/-! ### OKU and the station port -/

/-- OKU changes outside the alerting set and the door requests. -/
theorem alike_withOku (s : State) {o : Oku} (ha : o.alerting = s.oku.alerting) (hd : o.door = s.oku.door) : Alike s { s with oku := o } :=
  ⟨rfl, rfl, ha, hd, rfl, le_refl _, rfl⟩

theorem Oku.setKey_sets (o : Oku) (key : Key) (x : KeyState) : (o.setKey key x).alerting = o.alerting ∧ (o.setKey key x).door = o.door := by
  cases key <;> exact ⟨rfl, rfl⟩

theorem Oku.setFault_sets (o : Oku) (f : FaultKind) (x : FaultInput) :
    (o.setFault f x).alerting = o.alerting ∧ (o.setFault f x).door = o.door := by
  cases f <;> exact ⟨rfl, rfl⟩

theorem Oku.switchOff_sets (o : Oku) (f : FaultKind) : (o.switchOff f).alerting = o.alerting ∧ (o.switchOff f).door = o.door := by
  cases f <;> exact ⟨rfl, rfl⟩

theorem alike_setFault (s : State) (f : FaultKind) (x : FaultInput) : Alike s { s with oku := s.oku.setFault f x } :=
  alike_withOku s (s.oku.setFault_sets f x).1 (s.oku.setFault_sets f x).2

theorem alike_qualify (s : State) (f : FaultKind) : Alike s (s.qualify f) := by
  unfold State.qualify
  refine Alike.trans (alike_withOku s ?_ ?_) (alike_post _ _)
  · exact (Oku.setFault_sets _ f _).1.trans (s.oku.switchOff_sets f).1
  · exact (Oku.setFault_sets _ f _).2.trans (s.oku.switchOff_sets f).2

theorem alike_sampleFault (s : State) (f : FaultKind) (b : Bool) : Alike s (s.sampleFault f b) := by
  unfold State.sampleFault
  dsimp only
  split
  · split
    · exact alike_setFault s f _
    · split
      · exact alike_setFault s f _
      · exact (alike_setFault s f _).trans (alike_qualify _ f)
  · exact alike_setFault s f _

theorem Lawful.debounceExpires (h : Follows k s) (hm : k.mute → Unrecorded s) (key : Key) : Follows k (s.debounceExpires key) := by
  have ha : Alike s { s with oku := s.oku.setKey key { active := !(s.oku.key key).active, timer := none } } :=
    alike_withOku s (s.oku.setKey_sets key _).1 (s.oku.setKey_sets key _).2
  have h1 := h.alike ha
  unfold State.debounceExpires
  dsimp only
  unfold State.keyEvent
  split
  · exact h1.offHook
  · exact h1.onHook
  · exact h1.doorPress
  · exact (h1.alike (alike_newEvent _)).deskPress fun hk => (hm hk).alike (ha.trans (alike_newEvent _))
  · exact h1

theorem Lawful.replyExpires (h : Follows k s) (i : Ref) : Follows k (s.replyExpires i) := by
  unfold State.replyExpires
  split
  · exact h.endDoor i _ _
  · exact h.setDoor i none fun _ hn => absurd rfl hn

/-- A change of the station port that leaves the record. -/
theorem alike_withSport (s : State) {q : Sport} (hq : q.config.role = s.sport.config.role) : Alike s { s with sport := q } :=
  ⟨rfl, rfl, rfl, rfl, rfl, le_refl _, hq⟩

theorem alike_respond (s : State) (st : Status) (fs : List Byte) (e : Tail) : Alike s (s.respond st fs e) := alike_withSport s rfl

theorem alike_reply (s : State) (st : Status) : Alike s (s.reply st) := alike_respond s st [] .nothing

theorem alike_openTransaction (s : State) : Alike s s.openTransaction := alike_withSport s rfl

/-- A request acts on the state with its transaction opened (R174). -/
theorem Lawful.serve (h : Follows k s) (n : Nat) (fs : List Byte) {run : State → State}
    (hr : Follows k s.openTransaction → Follows k (run s.openTransaction)) : Follows k (s.serve n fs run) := by
  have h1 := h.alike (alike_openTransaction s)
  unfold State.serve
  split
  · exact hr h1
  · exact h1.alike (alike_reply _ _)

theorem Lawful.onContext (h : Follows k s) (fs : List Byte) {run : State → Ref → Ctx → State}
    (hr : ∀ i x, s.ctx i = some x → Follows k (run s i x)) : Follows k (s.onContext fs run) := by
  unfold State.onContext
  split
  · exact h.alike (alike_reply s _)
  · split
    · split
      next x hx => exact hr _ x hx
      next => exact h.alike (alike_reply s _)
    · exact h.alike (alike_reply s _)

/-- A new record, at a station without contexts where its role limit counts (R63, R101). -/
theorem Lawful.acceptConfig (h : Follows k s) (hfree : k.role → ∀ j, s.ctx j = none) (r : ConfigRecord) : Follows k (s.acceptConfig r) := by
  have h1 : Follows k ({ s with sport := { s.sport with config := r }.recompute } : State) := by
    refine ⟨fun hk => ⟨?_, fun _ => ?_⟩, h.fits, h.alert, h.door, h.mute, h.slots, h.wired, fun hk j q hq => ?_, h.port⟩
    · have : State.liveCount { s with sport := { s.sport with config := r }.recompute } = 0 := liveCount_eq_zero_iff.mpr (hfree hk)
      omega
    · have hle := activeCount_le (s := s) (t := { s with sport := { s.sport with config := r }.recompute }) fun _ => id
      have : s.activeCount = 0 := by simp [State.activeCount, State.outsideClearing, hfree hk]
      omega
    · obtain ⟨x, hx, hst⟩ := h.stands hk j q hq
      exact ⟨x, hx, hst.later rfl rfl (le_refl _)⟩
  unfold State.acceptConfig
  dsimp only
  split
  · exact h1.alike ((alike_withUdir _ _).trans (alike_moveTo _ _ _))
  · exact h1.alike (alike_withUdir _ _)

theorem Lawful.dial (h : Follows k s) (hm : k.mute → Unrecorded s) (u : UnitNum) (w : Byte) : Follows k (s.dial u w) := by
  unfold State.dial
  split
  next hd =>
    obtain ⟨h1, h2⟩ := dialTest_accepted hd
    split
    next i hi =>
      have hx := freeRef_some hi
      exact ((h.alike (alike_newEvent s)).dialOpen hx (fun hk => (hm hk).free i hx) (fun _ => h2) (fun _ => h1) u w).alike (alike_respond _ _ _ _)
    next => exact h.alike (alike_reply s _)
  next => exact h.alike (alike_reply s _)

end Commands

end Sys2Proof.Machine
end


section
/-! PROOFS. The followed laws through every command and every step. -/

namespace Sys2Proof.Machine

section Exec

variable {k : Laws} {i : Ref} {s t : State}

theorem ctx_reset (i : Ref) : State.reset.ctx i = none := by
  revert i
  decide

/-- After reset every followed law holds. -/
theorem follows_reset (k : Laws) : Follows k State.reset := by
  have hlive : State.reset.liveCount = 0 := liveCount_eq_zero_iff.mpr ctx_reset
  refine Lawful.alike (s := State.reset.blanked) (Lawful.blanked (fun _ => ⟨by omega, fun _ => ?_⟩) (fun _ i x hx => ?_) (fun _ i => ?_)
    fun _ i hd => ?_) ⟨rfl, rfl, rfl, rfl, rfl, le_refl _, rfl⟩
  · simp [State.activeCount, State.outsideClearing, ctx_reset]
  · rw [ctx_reset] at hx; cases hx
  · rw [ctx_reset]
    simp [State.reset]
  · simp [State.reset] at hd

theorem follows_powerOn (k : Laws) (s : State) : Follows k s.powerOn :=
  (follows_reset k).alike ⟨rfl, rfl, rfl, rfl, rfl, Nat.zero_le _, rfl⟩

theorem Lawful.execSupplyRises (h : Follows k s) : ∃ t, Machine.execSupplyRises s = .next t ∧ Follows k t := by
  refine ⟨_, rfl, ?_⟩
  split
  · exact h
  · exact h.alike ⟨rfl, rfl, rfl, rfl, rfl, le_refl _, rfl⟩

theorem Lawful.execSupplyFalls (h : Follows k s) : ∃ t, Machine.execSupplyFalls s = .next t ∧ Follows k t := by
  refine ⟨_, rfl, ?_⟩
  split
  · exact h.alike ⟨rfl, rfl, rfl, rfl, rfl, le_refl _, rfl⟩
  · exact h

theorem Lawful.execOpening (h : Follows k s) (o : Option ArbKey) (n : Nat) : ∃ t, Machine.execOpening o n s = .next t ∧ Follows k t := by
  refine ⟨_, rfl, ?_⟩
  split
  · split
    · split
      · exact h.alike (alike_withRif s _)
      · exact h
    · exact h
  · exact h

theorem Lawful.execRingerPhaseExpiry (h : Follows k s) : ∃ t, Machine.execRingerPhaseExpiry s = .next t ∧ Follows k t := by
  refine ⟨_, rfl, ?_⟩
  split
  · exact h
  · exact h.expire _ fun t _ _ _ _ ht => ht.alike (alike_withOku t rfl rfl)

theorem Lawful.execConfigure (h : Follows k s) (g : Grounds k s) (fs : List Byte) : ∃ t, Machine.execConfigure fs s = .next t ∧ Follows k t := by
  refine ⟨_, rfl, h.serve _ _ fun h1 => ?_⟩
  split
  · exact h1.alike (alike_reply _ _)
  next hl =>
    have hfree : k.role → ∀ j, s.openTransaction.ctx j = none := fun hk j => g.free_of_unlocked hk (Bool.not_eq_true _ ▸ hl) j
    split
    · exact (h1.acceptConfig hfree _).alike (alike_reply _ _)
    · exact h1.alike (alike_reply _ _)

theorem Lawful.execJoin (h : Follows k s) (fs : List Byte) : ∃ t, Machine.execJoin fs s = .next t ∧ Follows k t := by
  refine ⟨_, rfl, h.serve _ _ fun h1 => ?_⟩
  split
  · exact h1.alike (alike_reply _ _)
  · split
    · exact (h1.enterLearning _).alike (alike_reply _ _)
    · exact h1.enterIsolated.alike (alike_reply _ _)
  · exact h1.alike (alike_reply _ _)
  · exact h1.alike (alike_reply _ _)

theorem Lawful.execRestart (h : Follows k s) (fs : List Byte) : ∃ t, Machine.execRestart fs s = .next t ∧ Follows k t := by
  refine ⟨_, rfl, h.serve _ _ fun h1 => ?_⟩
  split
  · exact h1.alike (alike_reply _ _)
  · exact h1.alike (alike_reply _ _)
  · exact (h1.enterConfigured _).alike (alike_reply _ _)
  · exact (h1.enterConfigured _).alike (alike_reply _ _)
  · exact h1.enterLeaving.alike (alike_reply _ _)
  · exact h1.alike (alike_reply _ _)

theorem Lawful.execDial (h : Follows k s) (g : Grounds k s) (fs : List Byte) : ∃ t, Machine.execDial fs s = .next t ∧ Follows k t := by
  refine ⟨_, rfl, h.serve _ _ fun h1 => ?_⟩
  split
  · exact h1.dial (g.unrecorded (alike_openTransaction s)) _ _
  · exact h1.alike (alike_reply _ _)

theorem Lawful.execAnswer (h : Follows k s) (fs : List Byte) : ∃ t, Machine.execAnswer fs s = .next t ∧ Follows k t := by
  refine ⟨_, rfl, h.serve _ _ fun h1 => h1.onContext _ fun i x hx => ?_⟩
  split
  next hs => exact (h1.acceptAnswer hx hs.2).alike (alike_reply _ _)
  next => exact h1.alike (alike_reply _ _)

theorem Lawful.execHangup (h : Follows k s) (fs : List Byte) : ∃ t, Machine.execHangup fs s = .next t ∧ Follows k t := by
  refine ⟨_, rfl, h.serve _ _ fun h1 => h1.onContext _ fun i x hx => ?_⟩
  split
  · exact (h1.hangUp hx).alike (alike_reply _ _)
  · exact h1.alike (alike_reply _ _)

theorem Lawful.execOpenDoor (h : Follows k s) (fs : List Byte) : ∃ t, Machine.execOpenDoor fs s = .next t ∧ Follows k t := by
  refine ⟨_, rfl, h.serve _ _ fun h1 => h1.onContext _ fun i x hx => ?_⟩
  split
  next ht => exact (h1.requestDoor hx ht _).alike (alike_reply _ _)
  next => exact h1.alike (alike_reply _ _)

theorem Lawful.execSetDnd (h : Follows k s) (fs : List Byte) : ∃ t, Machine.execSetDnd fs s = .next t ∧ Follows k t := by
  refine ⟨_, rfl, h.serve _ _ fun h1 => ?_⟩
  split
  · exact h1.alike (alike_reply _ _)
  next b _ =>
    split
    · exact h1.alike (alike_reply _ _)
    · have h2 := h1.alike (alike_withSport s.openTransaction (q := { s.openTransaction.sport with dnd := b }) rfl)
      exact h2.alike (alike_reply _ _)

theorem Lawful.execClearFault (h : Follows k s) (fs : List Byte) : ∃ t, Machine.execClearFault fs s = .next t ∧ Follows k t := by
  refine ⟨_, rfl, h.serve _ _ fun h1 => ?_⟩
  split
  · exact h1.alike (alike_reply _ _)
  · dsimp only
    split
    · exact h1.alike (alike_reply _ _)
    · split
      · exact h1.alike (alike_reply _ _)
      · exact h1.alike ((alike_setFault _ _ _).trans (alike_reply _ _))

theorem Lawful.execReadLine (h : Follows k s) (fs : List Byte) : ∃ t, Machine.execReadLine fs s = .next t ∧ Follows k t := by
  refine ⟨_, rfl, h.serve _ _ fun h1 => ?_⟩
  split
  · exact h1.alike (alike_respond _ _ _ _)
  · exact h1.alike (alike_reply _ _)

theorem Lawful.execReadContext (h : Follows k s) (fs : List Byte) : ∃ t, Machine.execReadContext fs s = .next t ∧ Follows k t := by
  refine ⟨_, rfl, h.serve _ _ fun h1 => ?_⟩
  split
  · exact h1.alike (alike_respond _ _ _ _)
  · exact h1.alike (alike_reply _ _)

theorem Lawful.execNoticeRemoved (h : Follows k s) : ∃ t, Machine.execNoticeRemoved s = .next t ∧ Follows k t := by
  refine ⟨_, rfl, ?_⟩
  split
  · split
    · exact h.alike (alike_withSport s rfl)
    · exact h
  · exact h

theorem Lawful.execOverflowFlagCleared (h : Follows k s) : ∃ t, Machine.execOverflowFlagCleared s = .next t ∧ Follows k t := by
  refine ⟨_, rfl, ?_⟩
  split
  · split
    · exact h.alike (alike_withSport s rfl)
    · exact h
  · exact h

theorem follows_exec (h : Follows k s) (g : Grounds k s) (c : Instr) : ∃ t, exec c s = .next t ∧ Follows k t := by
  have hm : ∀ {t : State}, Alike s t → k.mute → Unrecorded t := fun ha => g.unrecorded ha
  cases c with
  | powerOnReset => exact ⟨_, rfl, follows_powerOn k s⟩
  | supplyFalls => exact h.execSupplyFalls
  | supplyRises => exact h.execSupplyRises
  | supplyLossTimerExpiry =>
    refine ⟨_, rfl, ?_⟩
    split
    next e _ => exact ((h.alike (alike_at s e)).loseSupply).riserLost
    next => exact h
  | returnTimerExpiry =>
    refine ⟨_, rfl, ?_⟩
    split
    next e _ => exact (h.alike ((alike_at s e).trans (alike_withRif _ _))).riserReturned
    next => exact h
  | polarityFound b =>
    refine ⟨_, rfl, ?_⟩
    split
    · exact h.alike (alike_withRif s _)
    · exact h
  | opening o n => exact h.execOpening o n
  | readBackMismatch =>
    refine ⟨_, rfl, ?_⟩
    split
    · exact h.conflict
    · exact h
  | frameSpoiled x r => exact h.execFrameSpoiled g x r
  | recallAnswered id => exact h.execRecallAnswered g id
  | unsuitedFrameTaken x kind b =>
    refine ⟨_, rfl, ?_⟩
    split
    · exact h.conflict
    · exact h
  | snapshotTaken x hs ws =>
    have hroom : (Frame.snapshot hs ws).suits = true → ws.length ≤ Config.waitCap := fun hf => by
      simp only [Frame.suits, Bool.and_eq_true, decide_eq_true_eq] at hf
      exact hf.2
    exact ⟨_, rfl, h.taking _ _
      (fun hf hl _ ht h1 => h1.learnSnapshot g.cut (fun hk j => (ht.ctx j).trans (g.free_of_learning hk hl j)) (hroom hf))
      fun hf _ _ h1 => h1.snapshotTaken g.cut (hroom hf) x⟩
  | reclaimTaken x c => exact ⟨_, rfl, h.takes g _ _ fun _ _ h1 => h1.reclaimTaken g.cut x c⟩
  | joinTaken x r u w => exact ⟨_, rfl, h.takes g _ _ fun _ _ h1 => h1.alike (alike_joinTaken _ x r u w)⟩
  | leaveTaken x => exact ⟨_, rfl, h.takes g _ _ fun _ _ h1 => h1.leaveTaken x⟩
  | seekTaken x u => exact ⟨_, rfl, h.takes g _ _ fun _ _ h1 => h1.alike (alike_seekTaken _ x u)⟩
  | offerTaken x u w => exact ⟨_, rfl, h.takes g _ _ fun _ _ h1 => h1.alike (alike_offerTaken _ x u w)⟩
  | ringTaken x c u w r p ms => exact ⟨_, rfl, h.takes g _ _ fun _ ha h1 => h1.ringAny (hm ha) x c u w r p ms⟩
  | answerTaken x c w => exact ⟨_, rfl, h.takes g _ _ fun _ _ h1 => h1.answerTaken x c w⟩
  | refuseTaken x c r => exact ⟨_, rfl, h.takes g _ _ fun _ _ h1 => h1.atCall _ c fun i _ _ _ => h1.refuseAt i x r⟩
  | claimTaken x c b w => exact ⟨_, rfl, h.takes g _ _ fun _ _ h1 => h1.claimTaken g.cut x c b w⟩
  | waitTaken x c w => exact ⟨_, rfl, h.takes g _ _ fun _ _ h1 => h1.waitTaken g.cut x c w⟩
  | releaseTaken x c r => exact ⟨_, rfl, h.takes g _ _ fun _ _ h1 => h1.releaseTaken g.cut x c r⟩
  | openTaken x c => exact ⟨_, rfl, h.takes g _ _ fun _ _ h1 => h1.alike (alike_openTaken _ x c)⟩
  | openedTaken x c r => exact ⟨_, rfl, h.takes g _ _ fun _ _ h1 => h1.openedTaken x c r⟩
  | learnTimerExpiry => exact ⟨_, rfl, h.expire _ fun _ _ _ _ _ h1 => h1.learnExpires g.cut⟩
  | staggerTimerExpiry => exact ⟨_, rfl, h.expire _ fun _ _ _ _ _ h1 => h1.alike (alike_staggerExpires _)⟩
  | auditExpiry c => exact ⟨_, rfl, h.expire _ fun _ _ _ _ _ h1 => h1.auditExpires g.cut c⟩
  | seekWindowExpiry u =>
    refine ⟨_, rfl, ?_⟩
    split
    · exact h.expire _ fun _ _ _ _ _ h1 => (h1.alike (alike_newEvent _)).endSeek _
    · exact h
  | ringTimerExpiry i => exact ⟨_, rfl, h.expireCtx i _ fun t _ h1 hx hr => (h1.alike (alike_newEvent t)).ringExpires hx hr⟩
  | waitTimerExpiry i =>
    refine ⟨_, rfl, h.expireCtx i _ fun t x h1 hx hw => ?_⟩
    have hstate : k.fits → x.state = .waiting ∧ x.side = .origin := fun hk => (h1.fits hk i x hx).state_of_wait hw
    exact h1.clearOrigin hx (fun hk => by simp [(hstate (k.fits_of_path hk)).1]) _ fun hk => .inr (hstate hk).2
  | talkTimerExpiry i =>
    refine ⟨_, rfl, h.expireCtx i _ fun t x h1 hx ht => h1.clearOrigin hx (fun hk => ?_) _ fun _ => .inl rfl⟩
    obtain ⟨-, -, -, htalk, -⟩ := h1.fits (k.fits_of_path hk) i x hx
    simp [htalk ht]
  | alertLimitExpiry i =>
    refine ⟨_, rfl, h.expireCtx i _ fun t x h1 hx ha => h1.endNow (fun hk => ?_) _⟩
    obtain ⟨-, -, -, -, halert, -⟩ := h1.fits (k.fits_of_path hk) i x hx
    exact h1.record_none hk nofun hx (by simp [halert ha])
  | pathWaitExpiry i => exact ⟨_, rfl, h.expire _ fun _ _ _ _ _ h1 => h1.clearAnswer i _⟩
  | carrierDetectorChange x n b =>
    refine ⟨_, rfl, ?_⟩
    split
    · exact h
    · exact h.detectorChanges x n b
  | settleTimerExpiry i =>
    exact ⟨_, rfl, h.expireRec i _ fun _ _ _ h1 hr he => h1.settleExpires hr fun hk => (h1.stage_of_timer hk hr).1 he⟩
  | unmuteTimerExpiry i =>
    exact ⟨_, rfl, h.expireRec i _ fun _ _ _ h1 hr he => h1.unmuteExpires hr fun hk => (h1.stage_of_timer hk hr).2 he⟩
  | carrierLossTimerExpiry i n => exact ⟨_, rfl, h.expire _ fun _ _ _ _ _ h1 => h1.carrierLost i⟩
  | muteTimerExpiry i =>
    refine ⟨_, rfl, h.expireRec i _ fun t r ha h1 hr he => h1.muteExpires fun hk => ?_⟩
    exact State.Cleared.of_ctx ((g.path hk).cleared_of_timer (ha.path ▸ hr) he) (.inr (.inl (ha.ctx i)))
  | keyInputChange key b =>
    exact ⟨_, rfl, h.alike ⟨rfl, rfl, (s.oku.setKey_sets key _).1, (s.oku.setKey_sets key _).2, rfl, le_refl _, rfl⟩⟩
  | debounceTimerExpiry key => exact ⟨_, rfl, h.expire _ fun _ _ _ _ ha h1 => h1.debounceExpires (hm ha) key⟩
  | replyWaitExpiry i => exact ⟨_, rfl, h.expire _ fun _ _ _ _ _ h1 => h1.replyExpires i⟩
  | strikePulseExpiry => exact ⟨_, rfl, h.expire _ fun t _ _ _ _ h1 => h1.alike (alike_withOku t rfl rfl)⟩
  | ringerPhaseExpiry => exact h.execRingerPhaseExpiry
  | faultQualifies f =>
    refine ⟨_, rfl, ?_⟩
    split
    · exact h
    · exact h.alike (alike_sampleFault s f true)
  | configure fs => exact h.execConfigure g fs
  | join fs => exact h.execJoin fs
  | restart fs => exact h.execRestart fs
  | dial fs => exact h.execDial g fs
  | answer fs => exact h.execAnswer fs
  | hangup fs => exact h.execHangup fs
  | openDoor fs => exact h.execOpenDoor fs
  | setDnd fs => exact h.execSetDnd fs
  | clearFault fs => exact h.execClearFault fs
  | purge fs => exact ⟨_, rfl, h.serve _ _ fun h1 => h1.alike ((alike_withUdir _ _).trans (alike_reply _ _))⟩
  | readNotice fs => exact ⟨_, rfl, h.serve _ _ fun h1 => h1.alike (alike_respond _ _ _ _)⟩
  | noticeRemoved => exact h.execNoticeRemoved
  | readStatus fs => exact ⟨_, rfl, h.serve _ _ fun h1 => h1.alike (alike_respond _ _ _ _)⟩
  | overflowFlagCleared => exact h.execOverflowFlagCleared
  | readSlots fs => exact ⟨_, rfl, h.serve _ _ fun h1 => h1.alike (alike_respond _ _ _ _)⟩
  | readWaits fs => exact ⟨_, rfl, h.serve _ _ fun h1 => h1.alike (alike_respond _ _ _ _)⟩
  | readLine fs => exact h.execReadLine fs
  | readContext fs => exact h.execReadContext fs
  | unknownRequest c fs =>
    refine ⟨_, rfl, ?_⟩
    split
    · exact h
    · exact h.alike ((alike_openTransaction s).trans (alike_reply _ _))
  | transactionDiscarded => exact ⟨_, rfl, h.alike (alike_openTransaction s)⟩
  | faultSample x y =>
    refine ⟨_, rfl, h.alike (Alike.trans (t := { s with now := s.now + 1 }) ⟨rfl, rfl, rfl, rfl, rfl, Nat.le_succ _, rfl⟩ ?_)⟩
    exact (alike_sampleFault _ .strike x).trans (alike_sampleFault _ .ringer y)

/-- Every step keeps the followed laws. -/
theorem follows_step (h : Follows k s) (g : Grounds k s) (hstep : step s = .next t) : Follows k t := by
  unfold step at hstep
  split at hstep
  · cases hstep
    exact h
  next c cs _ =>
    have ha : Alike s { s with pending := cs } := ⟨rfl, rfl, rfl, rfl, rfl, le_refl _, rfl⟩
    obtain ⟨u, hexec, hu⟩ := follows_exec (h.alike ha) (s := { s with pending := cs }) ⟨g.cut, g.path, g.lock, g.idle⟩ c
    rw [hexec] at hstep
    cases hstep
    exact hu

end Exec

end Sys2Proof.Machine
end


section
/-! PROOFS. The output laws: the path law as the followed laws of PATH, and the laws that every command keeps (R147, R148, R154, R168,
R169, R180, R182). -/

namespace Sys2Proof.Machine

section PathLaws

variable {s t : State} {i : Ref}

/-- The path law's followed laws. -/
def Laws.ofPath : Laws where
  role := False
  fits := True
  alert := False
  door := False
  mute := True
  path := True
  cut := 4
  fits_of_path := fun _ => trivial
  mute_of_alert := False.elim
  mute_of_door := False.elim

theorem PathLaw.mute (h : PathLaw s) : MuteLaw s := fun _ _ _ hr hm hx => (h.mute_iff hx hr).1.mp hm

theorem PathLaw.lit (h : PathLaw s) (hl : SlotLaw s.smu) {r : PathRec} (hr : s.path.record i = some r) : s.path.lit i = true := by
  obtain ⟨hw, hlit⟩ := (h.allLit hl).lit i r hr
  obtain ⟨e, he, hi⟩ := hlit r.base (le_refl _) (by omega)
  exact Path.lit_of_enable hr (le_refl _) (by omega) he hi

/-- The port's owner has a record outside MUTE (R154). -/
theorem PathLaw.owner_stage (h : PathLaw s) (ho : s.path.owner = some i) {r : PathRec} (hr : s.path.record i = some r) : r.stage ≠ .mute := by
  obtain ⟨-, -, hbest, -⟩ := h
  obtain ⟨q, hq, hm, -⟩ := Path.bestOwner_some (hbest ▸ ho)
  obtain rfl := Option.some.inj (hr.symm.trans hq)
  exact hm

theorem PathLaw.wired (h : PathLaw s) (hl : SlotLaw s.smu) : s.path.Wired := by
  obtain ⟨hrec, hwithin, -, hunowned, howned⟩ := id h
  refine ⟨fun i r hr => ((h.allLit hl).lit i r hr).1, fun i r hr _ n h1 h2 => ?_, hwithin, hunowned, fun i r ho hr _ => ?_⟩
  · rw [(hrec i r hr).2 n h1 h2, Path.contentOf]
    by_cases ho : s.path.owner = some i
    · rw [if_pos ho, if_pos ⟨ho, h.owner_stage ho hr⟩]
    · rw [if_neg ho, if_neg fun hc => ho hc.1]
  · obtain ⟨q, hq, hport⟩ := howned i ho
    obtain rfl := Option.some.inj (hr.symm.trans hq)
    exact hport

/-- The path law gives the followed laws of PATH. -/
theorem PathLaw.follows (h : PathLaw s) (hl : SlotLaw s.smu) (hc : ContextLaw s) : Follows Laws.ofPath s where
  role := False.elim
  fits _ := hc
  alert := False.elim
  door := False.elim
  mute _ := h.mute
  slots _ := hl
  wired _ := h.wired hl
  stands _ i r hr := by
    obtain ⟨⟨x, m, hx, hfit, hm, hb⟩, -⟩ := h.1 i r hr
    refine ⟨x, hx, hfit.1, fun _ => hfit, fun _ => Smu.blockOf_eq_some_iff.mpr ⟨m, hm, hb.symm⟩, fun hd => ?_⟩
    rw [h.lit hl hr] at hd
    cases hd
  port _ := h.2.2.1

/-- The followed laws of PATH give the path law. -/
theorem Lawful.pathLaw (h : Follows Laws.ofPath s) : PathLaw s := by
  have hbest : s.path.owner = s.path.bestOwner := h.port trivial
  have hw := h.wired trivial
  have hstage : ∀ i r, s.path.owner = some i → s.path.record i = some r → r.stage ≠ .mute := fun i r ho hr => by
    obtain ⟨q, hq, hm⟩ := h.owner_record trivial ho
    obtain rfl := Option.some.inj (hr.symm.trans hq)
    exact hm
  refine ⟨fun i r hr => ?_, hw.within, hbest, hw.unowned, fun i ho => ?_⟩
  · obtain ⟨x, hx, hl, hheld⟩ := h.held trivial (le_refl 4) hr
    obtain ⟨y, hy, hst⟩ := h.stands trivial i r hr
    obtain rfl := Option.some.inj (hx.symm.trans hy)
    obtain ⟨m, hm, hb⟩ := Smu.blockOf_eq_some_iff.mp hheld
    refine ⟨⟨x, m, hx, hst.fits nofun, hm, hb.symm⟩, fun n h1 h2 => ?_⟩
    rw [hw.lights i r hr hl n h1 h2, Path.contentOf]
    by_cases ho : s.path.owner = some i
    · rw [if_pos ho, if_pos ⟨ho, hstage i r ho hr⟩]
    · rw [if_neg ho, if_neg fun hc => ho hc.1]
  · obtain ⟨r, hr, hm⟩ := h.owner_record trivial ho
    exact ⟨r, hr, hw.owned i r ho hr hm⟩

theorem pathLaw_step (hp : PathLaw s) (hl : SlotLaw s.smu) (hr : RoleLaw s) (hc : ContextLaw s) (hstep : step s = .next t) : PathLaw t := by
  obtain ⟨hlock, hidle, -⟩ := hr
  exact (follows_step (hp.follows hl hc) ⟨fun _ => le_refl 4, fun _ => hp, fun _ => hlock, fun _ => hidle⟩ hstep).pathLaw

end PathLaws

/-- Settles O58: every command keeps the laws of the notice queue, the lock, the strike and the ringer (`keeps_exec`), and the path
law is the part of the followed laws that PATH's operations keep (`follows_step`). -/
theorem outputLawsAreKept : Obligations.OutputLawsAreKept := by
  refine ⟨keptByStep_of_keeps (fun _ _ h => h) fun _ _ h => h.notices, keptByStep_of_keeps (fun _ _ h => h) fun _ _ h => h.lock,
    keptByStep_of_keeps (fun _ _ h => h) fun _ _ h => h.strike, keptByStep_of_keeps (fun _ _ h => h) fun _ _ h => h.ringing,
    (follows_reset Laws.ofPath).pathLaw, fun s t hp hl hr hc hstep => pathLaw_step hp hl hr hc hstep⟩

end Sys2Proof.Machine
end


section
/-! PROOFS. Nothing is live off the riser: a member's law is void, and a station that is no member acts on nothing of it (R46, R58, R62,
R99, R125, R160). -/

namespace Sys2Proof.Machine

/-- A station off the riser, or learning: no context, an empty copy, PATH off, no seek, and an empty queue where RIF accepts nothing. -/
structure Off (s : State) : Prop where
  ctxs : ∀ i, s.ctx i = none
  smu : s.smu = { holds := [], waits := [] }
  record : ∀ i, s.path.record i = none
  enable : ∀ n, s.path.enable n = none
  seeks : s.udir.seeks = []
  offer : s.udir.offer = .none
  queue : s.stc.state.sends = false → s.rif.queue = []

/-- From s to t nothing changes that the idle law reads, but for frames where RIF accepts them. -/
structure Still (s t : State) : Prop where
  state : t.stc.state = s.stc.state
  ctxs : t.ctxs = s.ctxs
  smu : t.smu = s.smu
  recs : t.path.recs = s.path.recs
  enables : t.path.enables = s.path.enables
  seeks : t.udir.seeks = s.udir.seeks
  offer : t.udir.offer = s.udir.offer
  queue : s.stc.state.sends = false → s.rif.queue = [] → t.rif.queue = []

section Idle

variable {s t u : State} {i : Ref}

theorem sends_of_member (h : s.member = true) : s.stc.state.sends = true := by
  cases hs : s.stc.state <;> simp [State.member, hs] at h ⊢ <;> rfl

/-- The idle law says something of a station that is no member alone. -/
theorem idleLaw_iff : IdleLaw s ↔ s.member = true ∨ Off s := by
  cases hm : s.member with
  | true =>
    have hsends := sends_of_member hm
    exact ⟨fun _ => .inl rfl, fun _ => ⟨fun hc => by simp [hm] at hc, fun hc => by simp [hsends] at hc⟩⟩
  | false =>
    constructor
    · rintro ⟨h1, h2⟩
      obtain ⟨hc, hsmu, hr, he, hs, ho⟩ := h1 hm
      exact .inr ⟨hc, hsmu, hr, he, hs, ho, h2⟩
    · rintro (hc | h)
      · cases hc
      · exact ⟨fun _ => ⟨h.ctxs, h.smu, h.record, h.enable, h.seeks, h.offer⟩, h.queue⟩

theorem IdleLaw.of_member (h : s.member = true) : IdleLaw s := idleLaw_iff.mpr (.inl h)

theorem Off.idleLaw (h : Off s) : IdleLaw s := idleLaw_iff.mpr (.inr h)

theorem member_congr (h : t.stc.state = s.stc.state) : t.member = s.member := by
  simp only [State.member, h]

theorem Still.refl (s : State) : Still s s := ⟨rfl, rfl, rfl, rfl, rfl, rfl, rfl, fun _ => id⟩

theorem Still.trans (h : Still s t) (k : Still t u) : Still s u :=
  ⟨k.state.trans h.state, k.ctxs.trans h.ctxs, k.smu.trans h.smu, k.recs.trans h.recs, k.enables.trans h.enables,
    k.seeks.trans h.seeks, k.offer.trans h.offer, fun hs hq => k.queue (h.state ▸ hs) (h.queue hs hq)⟩

theorem Off.still (h : Off s) (k : Still s t) : Off t where
  ctxs j := (State.ctx_congr k.ctxs j).trans (h.ctxs j)
  smu := k.smu.trans h.smu
  record j := by
    have := h.record j
    unfold Path.record at this ⊢
    rwa [k.recs]
  enable n := by
    have := h.enable n
    unfold Path.enable at this ⊢
    rwa [k.enables]
  seeks := k.seeks.trans h.seeks
  offer := k.offer.trans h.offer
  queue hs := k.queue (k.state ▸ hs) (h.queue (k.state ▸ hs))

theorem IdleLaw.still (h : IdleLaw s) (k : Still s t) : IdleLaw t := by
  rcases idleLaw_iff.mp h with hm | ho
  · exact .of_member ((member_congr k.state).trans hm)
  · exact (ho.still k).idleLaw

/-- A member goes on as one, and a station that is none stays off. -/
theorem IdleLaw.keep (h : IdleLaw s) (hs : t.stc.state = s.stc.state) (ho : Off s → Off t) : IdleLaw t := by
  rcases idleLaw_iff.mp h with hm | hoff
  · exact .of_member ((member_congr hs).trans hm)
  · exact (ho hoff).idleLaw

/-- A member is one after calm operations, on whatever copy. -/
theorem IdleLaw.of_calm {m : Smu} (hm : s.member = true) (h : Calm { s with smu := m } t) : IdleLaw t :=
  .of_member ((member_congr h.state).trans hm)

theorem State.offTheRiser.off (h : s.offTheRiser) : Off s := by
  obtain ⟨hc, hsmu, hq, hr, he, -, -, -, -, -, -, hseeks, hoffer⟩ := h
  exact ⟨hc, hsmu, hr, he, hseeks, hoffer, fun _ => hq⟩

/-! ### Operations that leave a station off -/

theorem still_post (s : State) (n : Notice) : Still s (s.post n) :=
  ⟨by simp, by simp, by simp, by simp, by simp, by simp, by simp, fun _ hq => by simpa using hq⟩

theorem still_queueFrame (s : State) (f : Frame) : Still s (s.queueFrame f) := by
  refine ⟨by simp, by simp, by simp, by simp, by simp, by simp, by simp, fun hs hq => ?_⟩
  rw [queueFrame_full (by simp [State.accepts, hs])]
  exact hq

theorem still_withOku (s : State) (o : Oku) : Still s { s with oku := o } := ⟨rfl, rfl, rfl, rfl, rfl, rfl, rfl, fun _ => id⟩

theorem still_withSport (s : State) (p : Sport) : Still s { s with sport := p } := ⟨rfl, rfl, rfl, rfl, rfl, rfl, rfl, fun _ => id⟩

theorem still_clock (s : State) (n m : Nat) (p : Pins) : Still s { s with now := n, eventNo := m, pins := p } :=
  ⟨rfl, rfl, rfl, rfl, rfl, rfl, rfl, fun _ => id⟩

theorem still_at (s : State) (e : Nat) : Still s (s.at e) := still_clock s _ _ _

theorem still_newEvent (s : State) : Still s s.newEvent := still_clock s _ _ _

theorem still_withRif (s : State) {r : Rif} (hq : s.rif.queue = [] → r.queue = []) : Still s { s with rif := r } :=
  ⟨rfl, rfl, rfl, rfl, rfl, rfl, rfl, fun _ => hq⟩

theorem still_withStc (s : State) {c : Stc} (hs : c.state = s.stc.state) : Still s { s with stc := c } :=
  ⟨hs, rfl, rfl, rfl, rfl, rfl, rfl, fun _ => id⟩

theorem still_leaveCheck (s : State) : Still s s.leaveCheck := by
  rcases leaveCheck_eq s with h | h
  · rw [h]; exact .refl s
  · rw [h]; exact still_queueFrame s _

theorem still_reply (s : State) (st : Status) : Still s (s.reply st) := still_withSport s _

theorem still_dropCarrying (s : State) : Still s s.dropCarrying := still_withRif s fun hq => by simp [hq]

theorem still_markRecall (s : State) (id : FrameId) (st : RecallStatus) : Still s (s.markRecall id st) := still_withRif s fun hq => hq

section OffOps

variable (h : Off s)
include h

theorem Off.findCtx (side : Side) (c : CallId) : s.findCtx side c = none := by
  cases hf : s.findCtx side c with
  | none => rfl
  | some i => obtain ⟨x, hx, -⟩ := findCtx_some hf; rw [h.ctxs] at hx; cases hx

theorem Off.atCall (side : Side) (c : CallId) (f : State → Ref → State) : s.atCall side c f = s := by
  rw [State.atCall, h.findCtx]

theorem Off.atParty (c : CallId) (f : State → Ref → State) : s.atParty c f = s := by
  have hf : s.findCall c = none := List.find?_eq_none.mpr fun i _ => by simp [h.ctxs i]
  rw [State.atParty, hf]

theorem Off.handOut : s.handOut = s := by
  simp [State.handOut, h.offer, h.seeks]

theorem Off.setAudit (c : CallId) (a : Audit) : s.setAudit c a = s := by
  simp only [State.setAudit, h.smu, List.map_nil]
  rw [← h.smu]

theorem Off.nextOverdue : s.nextOverdue = s := by
  have : oldestOf s.smu.overdue = none := by rw [h.smu]; rfl
  rw [State.nextOverdue, this]

theorem Off.seekOf (u : UnitNum) : s.udir.seekOf u = none := by simp [Udir.seekOf, h.seeks]

theorem Off.ctxTimer (i : Ref) (get : Ctx → Timer) : s.ctxTimer i get = none := by rw [State.ctxTimer, h.ctxs]

theorem Off.recTimer (i : Ref) (get : PathRec → Timer) : s.recTimer i get = none := by rw [State.recTimer, h.record]

theorem Off.auditExpiry (c : CallId) : s.smu.auditExpiry c = none := by rw [h.smu]; rfl

theorem Off.setOffer : Off (s.setOffer .none) := ⟨h.ctxs, h.smu, h.record, h.enable, h.seeks, rfl, h.queue⟩

theorem Off.offHook : s.offHook = s := by
  have : s.earliestAlerting = none := by simp [State.earliestAlerting, h.ctxs, earlier]
  rw [State.offHook, this]

theorem Off.onHook : s.onHook = s := by
  rw [State.onHook, eachCtx_of_free h.ctxs, ite_self]

theorem Off.recallResult (id : FrameId) (a : RecallAnswer) : s.recallResult id a = s := by
  unfold State.recallResult
  split
  · cases a
    · exact h.nextOverdue
    · rfl
  · cases a
    · exact h.handOut
    · rfl
  · exact h.atCall _ _ _
  · exact h.atCall _ _ _
  · exact h.atCall _ _ _
  · exact h.atCall _ _ _
  · exact h.atParty _ _
  · rfl

end OffOps

end Idle

end Sys2Proof.Machine
end


section
/-! PROOFS. Every command keeps the idle law (R46, R58, R62, R99, R125, R160). -/

namespace Sys2Proof.Machine

section IdleCommands

variable {s t : State} {i : Ref}

/-! ### The station controller -/

theorem off_enterIsolated (s : State) : Off s.enterIsolated :=
  (offTheRiser_moveTo (offTheRiser_offRiser s) _ _).off

theorem off_enterConfigured (s : State) (r : StationReason) : Off (s.enterConfigured r) :=
  (offTheRiser_moveTo (u := s.offRiser.purgeLines) (offTheRiser_offRiser s) _ _).off

theorem off_conflict (s : State) : Off s.conflict :=
  (offTheRiser_moveTo (State.offTheRiser.post (t := s.offRiser.purgeLines) (offTheRiser_offRiser s) _) _ _).off

theorem IdleLaw.riserLost (h : IdleLaw s) : IdleLaw s.riserLost := by
  unfold State.riserLost
  split
  · exact (off_enterIsolated s).idleLaw
  · exact (off_enterIsolated s).idleLaw
  · exact (off_enterConfigured s _).idleLaw
  · exact h

theorem enable_clear (p : Path) (n : Nat) : p.clear.enable n = none := by
  by_cases hn : n < 24 <;> simp [Path.clear, Path.enable, hn]

/-- Copy, PATH and seeks emptied at a station without contexts whose RIF accepts frames. -/
theorem off_learning {u : State} (hc : ∀ j, u.ctx j = none) (hs : u.stc.state.sends = true) :
    Off ((((u.emptyCopy).clearPath.stopLearning).closeSeeks.setOutcome .none).forgetPolarity) where
  ctxs := hc
  smu := rfl
  record j := record_clear u.path j
  enable n := enable_clear u.path n
  seeks := rfl
  offer := rfl
  queue hn := by
    have : u.stc.state.sends = false := hn
    rw [hs] at this
    cases this

/-- A station without contexts enters LEARNING (R65). -/
theorem Off.enterLearning (h : Off s) (r : StationReason) : Off (s.enterLearning r) := by
  refine Off.still (off_learning (u := s.moveTo .learning r) (fun j => ?_) ?_) (still_queueFrame _ _)
  · exact ((alike_moveTo s .learning r).ctx j).trans (h.ctxs j)
  · simp [State.moveTo, StationState.sends]

theorem IdleLaw.riserReturned (h : IdleLaw s) : IdleLaw s.riserReturned := by
  unfold State.riserReturned
  split
  next hs =>
    rcases idleLaw_iff.mp h with hm | ho
    · simp [State.member, hs] at hm
    · exact (ho.enterLearning _).idleLaw
  next => exact h

theorem Off.learnRestart (h : Off s) (r : LearnReason) : Off (s.learnRestart r) := by
  have h1 : Off (((s.stopLearning).emptyCopy).setOutcome .none) := ⟨h.ctxs, rfl, h.record, h.enable, h.seeks, h.offer, h.queue⟩
  unfold State.learnRestart
  dsimp only
  refine Off.still ?_ (still_post _ _)
  split
  · exact h1
  · exact h1.still (still_queueFrame _ _)

theorem Off.learnFrame (h : Off s) (x : Byte) (f : Frame) : Off (s.learnFrame x f) := by
  unfold State.learnFrame
  split
  · exact h.still (still_withStc s rfl)
  · exact h.learnRestart _

theorem member_becomeJoined (s : State) (o : LearnOutcome) : (s.becomeJoined o).member = true := by
  rw [(calm_becomeJoined s o).member]
  simp [State.member, State.learned, State.moveTo]

theorem Off.learnSnapshot (h : Off s) (hs : List SnapHold) (ws : List SnapWait) : IdleLaw (s.learnSnapshot hs ws) := by
  unfold State.learnSnapshot
  split
  · exact .of_member (member_becomeJoined _ _)
  · exact h.idleLaw

/-! ### Taken frames -/

/-- A member acts on a taken frame, and a learning station buffers it (R54, R60). -/
theorem IdleLaw.taking (h : IdleLaw s) (x : Byte) (f : Frame) {learn act : State → State} (hl : ∀ t, Off t → IdleLaw (learn t))
    (ha : ∀ t, t.member = true → IdleLaw (act t)) : IdleLaw (s.taking x f learn act) := by
  have hd : ∀ t, IdleLaw t → s.onRiser = true → t.stc.state = s.stc.state → IdleLaw (t.deliver x f learn act) := fun t ht hon hstc => by
    unfold State.deliver
    split
    · exact ht
    · split
      next hlearn =>
        rcases idleLaw_iff.mp ht with hm | ho
        · simp [State.member, hlearn] at hm
        · exact hl _ (ho.still (still_newEvent t))
      next hlearn =>
        refine (ha _ ?_).still (still_leaveCheck _)
        show t.member = true
        rw [hstc] at hlearn
        rw [member_congr hstc]
        unfold State.onRiser at hon
        cases hst : s.stc.state <;> simp [hst, State.member] at hon hlearn ⊢
  unfold State.taking
  split
  · exact h
  next hon =>
    have hon : s.onRiser = true := by simpa using hon
    split
    · split
      · exact hd _ (h.still ((still_dropCarrying s).trans (still_markRecall _ _ _))) hon rfl
      · exact h
    · split
      · exact (off_conflict s).idleLaw
      · exact hd s h hon rfl

theorem IdleLaw.takes (h : IdleLaw s) (x : Byte) (f : Frame) {act : State → State} (ha : ∀ t, t.member = true → IdleLaw (act t)) :
    IdleLaw (s.takes x f act) :=
  h.taking x f (fun _ ht => (ht.learnFrame x f).idleLaw) ha

theorem idleLaw_snapshotTaken (hm : s.member = true) (x : Byte) (hs : List SnapHold) (ws : List SnapWait) :
    IdleLaw (s.snapshotTaken x hs ws) := by
  have h1 : ((s.stopStagger).askRecall ⟨.snapshot, .bare⟩).member = true := by
    rw [((Calm.refl s.stopStagger).askRecall _).member]
    exact hm
  unfold State.snapshotTaken State.joinedSnapshot
  dsimp only
  split
  · split
    · exact .of_member h1
    · generalize (s.stopStagger).askRecall ⟨.snapshot, .bare⟩ = u at h1 ⊢
      refine .of_member ?_
      rw [(((Calm.refl _).eachCtx fun _ j y ht => ht.settleCtx j y).staleSelfRelease).member, (calm_install (s := u.post _) (hs := hs) (ws := ws)).member]
      show (u.post _).member = true
      rw [((Calm.refl u).post _).member]
      exact h1
  · exact .of_member hm

theorem idleLaw_leaveTaken (hm : s.member = true) (x : Byte) : IdleLaw (s.leaveTaken x) := by
  unfold State.leaveTaken
  dsimp only
  split
  · exact (off_enterConfigured _ _).idleLaw
  · exact .of_member hm

theorem idleLaw_joinTaken (hm : s.member = true) (x r : Byte) (u : UnitNum) (w : Byte) : IdleLaw (s.joinTaken x r u w) := by
  refine .of_member ?_
  unfold State.joinTaken State.armStagger
  dsimp only
  split
  · split
    · exact hm
    · exact hm
  · exact hm

theorem idleLaw_offerTaken (hm : s.member = true) (x : Byte) (u : UnitNum) (w : Byte) : IdleLaw (s.offerTaken x u w) := by
  have h1 : (s.directoryOffer x u w).member = true := by
    unfold State.directoryOffer
    split
    · exact hm
    · exact hm
  unfold State.offerTaken
  dsimp only
  split
  · exact .of_member ((((Calm.refl _).setOffer _).handOut).member.trans h1)
  · exact .of_member h1

theorem idleLaw_openTaken (hm : s.member = true) (x : Byte) (c : CallId) : IdleLaw (s.openTaken x c) := by
  unfold State.openTaken
  split
  · exact .of_member hm
  · dsimp only
    refine .of_member (Eq.trans (((Calm.refl _).queueFrame _).post _).member ?_)
    split
    · exact hm
    · exact hm

/-! ### Dropped frames and recall answers -/

theorem Off.frameDropped (h : Off s) (f : Frame) : Off (s.frameDropped f) := by
  have hcall : ∀ side c f, Off (s.atCall side c f) := fun side c f => by
    rw [h.atCall]
    exact h
  have hparty : ∀ c f, Off (s.atParty c f) := fun c f => by
    rw [h.atParty]
    exact h
  cases f with
  | reclaim c =>
    show Off (s.setAudit c _).nextOverdue
    rw [h.setAudit, h.nextOverdue]
    exact h
  | join _ _ _ =>
    show Off s.joinDropped
    unfold State.joinDropped
    split
    · exact h.learnRestart _
    · exact h.still (still_queueFrame s _)
    · exact h
  | leave => exact off_enterConfigured s _
  | seek u =>
    show Off (s.seekDropped u)
    rw [State.seekDropped, h.seekOf, h.handOut]
    exact h
  | offer _ _ =>
    show Off (s.setOffer .none).handOut
    rw [h.setOffer.handOut]
    exact h.setOffer
  | ring c _ _ _ _ _ => exact hcall .origin c _
  | answer c _ => exact hcall .answer c _
  | claim c _ _ => exact hcall .origin c _
  | wait c _ => exact hcall .origin c _
  | release c _ => exact hparty c _
  | open_ c => exact hcall .answer c _
  | _ => exact h

theorem idleLaw_frameDropped (hm : s.member = true) (f : Frame) : IdleLaw (s.frameDropped f) := by
  have hcalm : ∀ {t : State}, Calm s t → IdleLaw t := fun hc => .of_member (hc.member.trans hm)
  cases f with
  | reclaim c => exact .of_member ((calm_nextOverdue _).member.trans hm)
  | join _ _ _ =>
    show IdleLaw s.joinDropped
    unfold State.joinDropped
    split
    next hs => simp [State.member, hs] at hm
    next => exact hcalm ((Calm.refl s).queueFrame _)
    next => exact .of_member hm
  | leave => exact (off_enterConfigured s _).idleLaw
  | seek u => exact hcalm ((Calm.refl s).seekDropped u)
  | offer _ _ => exact hcalm (((Calm.refl s).setOffer _).handOut)
  | ring c _ _ _ _ _ => exact hcalm ((Calm.refl s).atCall _ c fun _ i ht => ht.ringDropped i)
  | answer c _ => exact hcalm ((Calm.refl s).atCall _ c fun _ i ht => ht.answerDropped i)
  | claim c _ _ => exact hcalm ((Calm.refl s).atCall _ c fun _ i ht => ht.claimDropped i)
  | wait c _ => exact hcalm ((Calm.refl s).atCall _ c fun _ i ht => ht.waitDropped i)
  | release c _ => exact hcalm ((Calm.refl s).atParty c fun _ i ht => ht.releaseDropped i)
  | open_ c => exact hcalm ((Calm.refl s).atCall _ c fun _ i ht => ht.openDropped i)
  | _ => exact .of_member hm

theorem IdleLaw.frameDropped (h : IdleLaw s) (f : Frame) : IdleLaw (s.frameDropped f) := by
  rcases idleLaw_iff.mp h with hm | ho
  · exact idleLaw_frameDropped hm f
  · exact (ho.frameDropped f).idleLaw

theorem still_forgetOpenRecall (s : State) (id : FrameId) : Still s (s.forgetOpenRecall id) := still_withRif s fun hq => hq

theorem IdleLaw.execFrameSpoiled (h : IdleLaw s) (x : Byte) (r : List Byte) :
    ∃ t, Machine.execFrameSpoiled x r s = .next t ∧ IdleLaw t := by
  refine ⟨_, rfl, ?_⟩
  split
  · exact h
  · split
    next e _ =>
      have h1 : IdleLaw (s.newEvent.setMark false) := h.still ((still_newEvent s).trans (still_withRif _ fun hq => hq))
      refine IdleLaw.still ?_ (still_leaveCheck _)
      unfold State.ownSpoiled
      split
      · exact h1.still ((still_dropCarrying _).trans (still_markRecall _ _ _))
      · split
        · exact h1.still (still_withRif _ fun hq => by simp [hq])
        · exact IdleLaw.frameDropped (h1.still ((still_dropCarrying _).trans (still_forgetOpenRecall _ _))) e.frame
    next => exact h.still (still_withRif s fun hq => hq)

theorem IdleLaw.deliverAnswer (h : IdleLaw s) (id : FrameId) (a : RecallAnswer) : IdleLaw (s.deliverAnswer id a) := by
  have h1 : IdleLaw (s.newEvent.forgetRecall id) := h.still ((still_newEvent s).trans (still_withRif _ fun hq => hq))
  unfold State.deliverAnswer
  dsimp only
  refine IdleLaw.still ?_ (still_leaveCheck _)
  split
  · exact h1
  · rcases idleLaw_iff.mp h1 with hm | ho
    · obtain ⟨m, hc⟩ := calm_recallResult (s.newEvent.forgetRecall id) id a
      exact .of_calm hm hc
    · rw [ho.recallResult]
      exact h1

theorem IdleLaw.execRecallAnswered (h : IdleLaw s) (id : FrameId) : ∃ t, Machine.execRecallAnswered id s = .next t ∧ IdleLaw t := by
  refine ⟨_, rfl, ?_⟩
  split
  · exact h
  · split
    · split
      · split
        · exact h.still (still_markRecall s _ _)
        · exact IdleLaw.deliverAnswer (s := s.dropQueued id) (h.still (still_withRif s fun hq => by simp [hq])) _ _
      · exact h.deliverAnswer _ _
    · exact h
    · exact h.deliverAnswer _ _

/-! ### Expiries -/

theorem IdleLaw.expire (h : IdleLaw s) (e : Timer) {act : State → State} (ha : ∀ t, IdleLaw t → IdleLaw (act t)) :
    IdleLaw (s.expire e act) := by
  unfold State.expire
  split
  · exact ha _ (h.still (still_at s _))
  · exact h

/-- A timer that no station off the riser runs. -/
theorem IdleLaw.expireMember (h : IdleLaw s) {e : Timer} (hnone : Off s → e = none) {act : State → State}
    (ha : ∀ t, t.member = true → IdleLaw (act t)) : IdleLaw (s.expire e act) := by
  unfold State.expire
  split
  · rcases idleLaw_iff.mp h with hm | ho
    · exact ha _ hm
    · cases hnone ho
  · exact h

theorem joined_of_dialTest {u : UnitNum} {w : Byte} (h : s.dialTest u w = .accepted) : s.stc.state = .joined := by
  unfold State.dialTest at h
  split at h
  case h_6 hs => exact hs
  all_goals cases h

theorem IdleLaw.deskPress (h : IdleLaw s) : IdleLaw s.deskPress := by
  by_cases hs : s.stc.state = .joined
  · exact .of_member ((Calm.refl s).deskPress.member.trans (by simp [State.member, hs]))
  · rw [State.deskPress, if_neg fun hd => hs (joined_of_dialTest hd.2)]
    exact h

theorem IdleLaw.doorPress (h : IdleLaw s) : IdleLaw s.doorPress := by
  by_cases hs : s.stc.state = .joined
  · exact .of_member ((Calm.refl s).doorPress.member.trans (by simp [State.member, hs]))
  · rw [State.doorPress, if_pos hs]
    exact h

theorem IdleLaw.debounceExpires (h : IdleLaw s) (k : Key) : IdleLaw (s.debounceExpires k) := by
  have h1 : IdleLaw { s with oku := s.oku.setKey k { active := !(s.oku.key k).active, timer := none } } := h.still (still_withOku s _)
  unfold State.debounceExpires
  dsimp only
  generalize ({ s with oku := s.oku.setKey k { active := !(s.oku.key k).active, timer := none } } : State) = u at h1 ⊢
  unfold State.keyEvent
  split
  · exact h1.keep (Calm.refl u).offHook.state fun ho => by
      rw [ho.offHook]
      exact ho
  · exact h1.keep (Calm.refl u).onHook.state fun ho => by
      rw [ho.onHook]
      exact ho
  · exact h1.doorPress
  · exact (h1.still (still_newEvent u)).deskPress
  · exact h1

/-! ### PATH and the requests -/

theorem still_withPath (s : State) {p : Path} (he : p.enables = s.path.enables) (hr : p.recs = s.path.recs) : Still s { s with path := p } :=
  ⟨rfl, rfl, rfl, hr, he, rfl, rfl, fun _ => id⟩

theorem Off.detectorChanges (h : Off s) (x : Half) (n : Channel) (b : Bool) : Off (s.detectorChanges x n b) := by
  have h0 : Off { s with path := s.path.setDetector x n b } := h.still (by cases x <;> exact still_withPath s rfl rfl)
  have hstep : ∀ (t : State) (i : Ref), Off t → Off (match t.path.record i with
      | some r => { t with path := t.path.setRec i (some (t.path.detectorAt t.sport.config.settle t.now x n b r)) }
      | none => t) := fun t i ht => by
    rw [ht.record]
    exact ht
  exact hstep _ 3 (hstep _ 2 (hstep _ 1 (hstep _ 0 h0)))

theorem IdleLaw.serve (h : IdleLaw s) (n : Nat) (fs : List Byte) {run : State → State}
    (hr : IdleLaw s.openTransaction → IdleLaw (run s.openTransaction)) : IdleLaw (s.serve n fs run) := by
  have h1 : IdleLaw s.openTransaction := h.still (still_withSport s _)
  unfold State.serve
  split
  · exact hr h1
  · exact h1.still (still_reply _ _)

theorem member_of_callRefusal (h : s.stc.state.callRefusal = none) : s.member = true := by
  cases hs : s.stc.state <;> simp [hs, StationState.callRefusal, State.member] at h ⊢

/-- Only a member acts on a request that names a context (R122, R134, R165). -/
theorem IdleLaw.onContext (h : IdleLaw s) (fs : List Byte) {run : State → Ref → Ctx → State}
    (hr : s.member = true → ∀ i x, IdleLaw (run s i x)) : IdleLaw (s.onContext fs run) := by
  unfold State.onContext
  split
  · exact h.still (still_reply s _)
  next hs =>
    have hm := member_of_callRefusal hs
    repeat' split
    · exact hr hm _ _
    · exact h.still (still_reply s _)
    · exact h.still (still_reply s _)

theorem IdleLaw.acceptConfig (h : IdleLaw s) (r : ConfigRecord) : IdleLaw (s.acceptConfig r) := by
  unfold State.acceptConfig
  dsimp only
  split
  next hs =>
    have hs : s.stc.state = .unconfigured := hs
    rcases idleLaw_iff.mp h with hm | ho
    · simp [State.member, hs] at hm
    · refine (Off.still ?_ (still_post _ _)).idleLaw
      exact ⟨ho.ctxs, ho.smu, ho.record, ho.enable, rfl, rfl, fun _ => ho.queue (by rw [hs]; rfl)⟩
  next => exact h.keep rfl fun ho => ⟨ho.ctxs, ho.smu, ho.record, ho.enable, rfl, rfl, ho.queue⟩

theorem IdleLaw.dial (h : IdleLaw s) (u : UnitNum) (w : Byte) : IdleLaw (s.dial u w) := by
  unfold State.dial
  split
  next hd =>
    split
    next i _ =>
      have hm : s.member = true := by simp [State.member, joined_of_dialTest hd]
      exact (IdleLaw.of_member (((Calm.refl s.newEvent).dialOpen i u w).member.trans hm)).still (still_withSport _ _)
    · exact h.still (still_reply s _)
  next => exact h.still (still_reply s _)

end IdleCommands

end Sys2Proof.Machine
end


section
/-! PROOFS. The context laws: role limit, contexts, alerting set and door requests through every step (R101, R102, R127, R131, R165). -/

namespace Sys2Proof.Machine

section IdleExec

variable {s t : State} {i : Ref}

theorem IdleLaw.calmMember (hm : s.member = true) (h : Calm s t) : IdleLaw t := .of_member (h.member.trans hm)

theorem idleLaw_powerOn (s : State) : IdleLaw s.powerOn := by
  refine Off.idleLaw ⟨ctx_reset, rfl, fun i => ?_, fun n => ?_, rfl, rfl, fun _ => rfl⟩
  · exact record_clear State.reset.path i
  · exact enable_clear State.reset.path n

theorem still_setFault (s : State) (f : FaultKind) (x : FaultInput) : Still s { s with oku := s.oku.setFault f x } := still_withOku s _

theorem still_sampleFault (s : State) (f : FaultKind) (b : Bool) : Still s (s.sampleFault f b) := by
  unfold State.sampleFault
  dsimp only
  split
  · split
    · exact still_withOku s _
    · split
      · exact still_withOku s _
      · exact (still_withOku s _).trans ((still_withOku _ _).trans (still_post _ _))
  · exact still_withOku s _

theorem IdleLaw.execOpening (h : IdleLaw s) (o : Option ArbKey) (n : Nat) : ∃ t, Machine.execOpening o n s = .next t ∧ IdleLaw t := by
  refine ⟨_, rfl, ?_⟩
  split
  · split
    · split
      · exact h.still (still_withRif s fun hq => by rw [hq]; rfl)
      · exact h
    · exact h
  · exact h

theorem IdleLaw.execSupply (h : IdleLaw s) (b : Bool) {r : Rif} (hq : r.queue = s.rif.queue) :
    IdleLaw { s with pins := { s.pins with supply := b }, rif := r } :=
  h.still ⟨rfl, rfl, rfl, rfl, rfl, rfl, rfl, fun _ h => hq.trans h⟩

theorem IdleLaw.execSupplyFalls (h : IdleLaw s) : ∃ t, Machine.execSupplyFalls s = .next t ∧ IdleLaw t := by
  refine ⟨_, rfl, ?_⟩
  split
  · exact h.execSupply _ (by split <;> rfl)
  · exact h

theorem IdleLaw.execSupplyRises (h : IdleLaw s) : ∃ t, Machine.execSupplyRises s = .next t ∧ IdleLaw t := by
  refine ⟨_, rfl, ?_⟩
  split
  · exact h
  · exact h.execSupply _ (by split <;> rfl)

theorem IdleLaw.execConfigure (h : IdleLaw s) (fs : List Byte) : ∃ t, Machine.execConfigure fs s = .next t ∧ IdleLaw t := by
  refine ⟨_, rfl, h.serve _ _ fun h1 => ?_⟩
  split
  · exact h1.still (still_reply _ _)
  · split
    · exact (h1.acceptConfig _).still (still_reply _ _)
    · exact h1.still (still_reply _ _)

theorem IdleLaw.execJoin (h : IdleLaw s) (fs : List Byte) : ∃ t, Machine.execJoin fs s = .next t ∧ IdleLaw t := by
  refine ⟨_, rfl, h.serve _ _ fun h1 => ?_⟩
  split
  · exact h1.still (still_reply _ _)
  next hs =>
    have hs : s.stc.state = .configured := hs
    split
    · rcases idleLaw_iff.mp h1 with hm | ho
      · simp [State.member, hs] at hm
      · exact ((ho.enterLearning _).idleLaw).still (still_reply _ _)
    · exact ((off_enterIsolated _).idleLaw).still (still_reply _ _)
  · exact h1.still (still_reply _ _)
  · exact h1.still (still_reply _ _)

theorem member_enterLeaving (s : State) : s.enterLeaving.member = true := by
  unfold State.enterLeaving
  dsimp only
  rw [((Calm.refl _).leaveCheck).member]
  simp [State.member, State.moveTo]

theorem IdleLaw.execRestart (h : IdleLaw s) (fs : List Byte) : ∃ t, Machine.execRestart fs s = .next t ∧ IdleLaw t := by
  refine ⟨_, rfl, h.serve _ _ fun h1 => ?_⟩
  split
  · exact h1.still (still_reply _ _)
  · exact h1.still (still_reply _ _)
  · exact ((off_enterConfigured _ _).idleLaw).still (still_reply _ _)
  · exact ((off_enterConfigured _ _).idleLaw).still (still_reply _ _)
  · exact (IdleLaw.of_member (member_enterLeaving _)).still (still_reply _ _)
  · exact h1.still (still_reply _ _)

theorem IdleLaw.execDial (h : IdleLaw s) (fs : List Byte) : ∃ t, Machine.execDial fs s = .next t ∧ IdleLaw t := by
  refine ⟨_, rfl, h.serve _ _ fun h1 => ?_⟩
  split
  · exact h1.dial _ _
  · exact h1.still (still_reply _ _)

theorem IdleLaw.execAnswer (h : IdleLaw s) (fs : List Byte) : ∃ t, Machine.execAnswer fs s = .next t ∧ IdleLaw t := by
  refine ⟨_, rfl, h.serve _ _ fun h1 => h1.onContext _ fun hm i x => ?_⟩
  split
  · exact (IdleLaw.calmMember hm ((Calm.refl _).acceptAnswer i)).still (still_reply _ _)
  · exact h1.still (still_reply _ _)

theorem IdleLaw.execHangup (h : IdleLaw s) (fs : List Byte) : ∃ t, Machine.execHangup fs s = .next t ∧ IdleLaw t := by
  refine ⟨_, rfl, h.serve _ _ fun h1 => h1.onContext _ fun hm i x => ?_⟩
  split
  · exact (IdleLaw.calmMember hm ((Calm.refl _).hangUp i x)).still (still_reply _ _)
  · exact h1.still (still_reply _ _)

theorem IdleLaw.execOpenDoor (h : IdleLaw s) (fs : List Byte) : ∃ t, Machine.execOpenDoor fs s = .next t ∧ IdleLaw t := by
  refine ⟨_, rfl, h.serve _ _ fun h1 => h1.onContext _ fun hm i x => ?_⟩
  split
  · exact (IdleLaw.calmMember hm ((Calm.refl _).requestDoor i _)).still (still_reply _ _)
  · exact h1.still (still_reply _ _)

theorem IdleLaw.execSetDnd (h : IdleLaw s) (fs : List Byte) : ∃ t, Machine.execSetDnd fs s = .next t ∧ IdleLaw t := by
  refine ⟨_, rfl, h.serve _ _ fun h1 => ?_⟩
  split
  · exact h1.still (still_reply _ _)
  · split
    · exact h1.still (still_reply _ _)
    · exact h1.still (still_withSport _ _)

theorem IdleLaw.execClearFault (h : IdleLaw s) (fs : List Byte) : ∃ t, Machine.execClearFault fs s = .next t ∧ IdleLaw t := by
  refine ⟨_, rfl, h.serve _ _ fun h1 => ?_⟩
  split
  · exact h1.still (still_reply _ _)
  · dsimp only
    split
    · exact h1.still (still_reply _ _)
    · split
      · exact h1.still (still_reply _ _)
      · exact h1.still ((still_setFault _ _ _).trans (still_reply _ _))

theorem IdleLaw.execReadLine (h : IdleLaw s) (fs : List Byte) : ∃ t, Machine.execReadLine fs s = .next t ∧ IdleLaw t := by
  refine ⟨_, rfl, h.serve _ _ fun h1 => ?_⟩
  split
  · exact h1.still (still_withSport _ _)
  · exact h1.still (still_withSport _ _)

theorem IdleLaw.execReadContext (h : IdleLaw s) (fs : List Byte) : ∃ t, Machine.execReadContext fs s = .next t ∧ IdleLaw t := by
  refine ⟨_, rfl, h.serve _ _ fun h1 => ?_⟩
  split
  · exact h1.still (still_withSport _ _)
  · exact h1.still (still_withSport _ _)

theorem IdleLaw.execNoticeRemoved (h : IdleLaw s) : ∃ t, Machine.execNoticeRemoved s = .next t ∧ IdleLaw t := by
  refine ⟨_, rfl, ?_⟩
  split
  · split
    · exact h.still (still_withSport s _)
    · exact h
  · exact h

theorem IdleLaw.execOverflowFlagCleared (h : IdleLaw s) : ∃ t, Machine.execOverflowFlagCleared s = .next t ∧ IdleLaw t := by
  refine ⟨_, rfl, ?_⟩
  split
  · split
    · exact h.still (still_withSport s _)
    · exact h
  · exact h

/-- Every command keeps the idle law. -/
theorem idleLaw_exec (h : IdleLaw s) (c : Instr) : ∃ t, exec c s = .next t ∧ IdleLaw t := by
  cases c with
  | powerOnReset => exact ⟨_, rfl, idleLaw_powerOn s⟩
  | supplyFalls => exact h.execSupplyFalls
  | supplyRises => exact h.execSupplyRises
  | supplyLossTimerExpiry =>
    refine ⟨_, rfl, ?_⟩
    split
    next e _ =>
      have h1 : IdleLaw (s.at e).loseSupply := h.still ⟨rfl, rfl, rfl, rfl, rfl, rfl, rfl, fun _ => id⟩
      exact h1.riserLost
    next => exact h
  | returnTimerExpiry =>
    refine ⟨_, rfl, ?_⟩
    split
    next e _ =>
      have h1 : IdleLaw (s.at e).regainSupply := h.still ((still_at s e).trans (still_withRif _ fun hq => hq))
      exact h1.riserReturned
    next => exact h
  | polarityFound b =>
    refine ⟨_, rfl, ?_⟩
    split
    · exact h.still (still_withRif s fun hq => hq)
    · exact h
  | opening o n => exact h.execOpening o n
  | readBackMismatch =>
    refine ⟨_, rfl, ?_⟩
    split
    · exact (off_conflict s).idleLaw
    · exact h
  | frameSpoiled x r => exact h.execFrameSpoiled x r
  | recallAnswered id => exact h.execRecallAnswered id
  | unsuitedFrameTaken x kind b =>
    refine ⟨_, rfl, ?_⟩
    split
    · exact (off_conflict s).idleLaw
    · exact h
  | snapshotTaken x hs ws =>
    exact ⟨_, rfl, h.taking _ _ (fun _ ht => ht.learnSnapshot hs ws) fun _ hm => idleLaw_snapshotTaken hm x hs ws⟩
  | reclaimTaken x c => exact ⟨_, rfl, h.takes _ _ fun t hm => .of_calm hm (freesCopy_reclaimTaken t x c).calm⟩
  | joinTaken x r u w => exact ⟨_, rfl, h.takes _ _ fun _ hm => idleLaw_joinTaken hm x r u w⟩
  | leaveTaken x => exact ⟨_, rfl, h.takes _ _ fun _ hm => idleLaw_leaveTaken hm x⟩
  | seekTaken x u => exact ⟨_, rfl, h.takes _ _ fun t hm => .calmMember hm ((Calm.refl t).seekTaken x u)⟩
  | offerTaken x u w => exact ⟨_, rfl, h.takes _ _ fun _ hm => idleLaw_offerTaken hm x u w⟩
  | ringTaken x c u w r p ms => exact ⟨_, rfl, h.takes _ _ fun t hm => .calmMember hm ((Calm.refl t).ringAny x c u w r p ms)⟩
  | answerTaken x c w => exact ⟨_, rfl, h.takes _ _ fun t hm => .calmMember hm ((Calm.refl t).answerTaken x c w)⟩
  | refuseTaken x c r => exact ⟨_, rfl, h.takes _ _ fun t hm => .calmMember hm ((Calm.refl t).refuseTaken x c r)⟩
  | claimTaken x c b w => exact ⟨_, rfl, h.takes _ _ fun t hm => .of_calm hm (calm_claimTaken t x c b w)⟩
  | waitTaken x c w => exact ⟨_, rfl, h.takes _ _ fun t hm => .of_calm hm (calm_waitCopy t x c w)⟩
  | releaseTaken x c r => exact ⟨_, rfl, h.takes _ _ fun t hm => .of_calm hm (freesCopy_releaseTaken t x c r).calm⟩
  | openTaken x c => exact ⟨_, rfl, h.takes _ _ fun _ hm => idleLaw_openTaken hm x c⟩
  | openedTaken x c r => exact ⟨_, rfl, h.takes _ _ fun t hm => .calmMember hm ((Calm.refl t).openedTaken x c r)⟩
  | learnTimerExpiry => exact ⟨_, rfl, h.expire _ fun _ _ => .of_member (member_becomeJoined _ _)⟩
  | staggerTimerExpiry =>
    refine ⟨_, rfl, h.expire _ fun t ht => ?_⟩
    have h1 : IdleLaw t.stopStagger := ht.still (still_withStc t rfl)
    unfold State.staggerExpires
    split
    · exact h1.still (still_queueFrame _ _)
    · exact h1
  | auditExpiry c =>
    refine ⟨_, rfl, h.expireMember (fun ho => ho.auditExpiry c) fun t hm => .of_member ?_⟩
    unfold State.auditExpires State.queueReclaim
    split
    · exact (((Calm.refl (t.setAudit c .overdue)).queueFrame _).member).trans hm
    · exact hm
  | seekWindowExpiry u =>
    refine ⟨_, rfl, ?_⟩
    split
    next r hr =>
      rcases idleLaw_iff.mp h with hm | ho
      · exact h.expireMember (fun ho => by rw [ho.seekOf] at hr; cases hr) fun t ht => .calmMember (s := t.newEvent) ht ((Calm.refl _).endSeek r)
      · rw [ho.seekOf] at hr; cases hr
    next => exact h
  | ringTimerExpiry i =>
    exact ⟨_, rfl, h.expireMember (fun ho => ho.ctxTimer i _) fun t hm => .calmMember (s := t.newEvent) hm ((Calm.refl _).ringExpires i)⟩
  | waitTimerExpiry i =>
    exact ⟨_, rfl, h.expireMember (fun ho => ho.ctxTimer i _) fun t hm => .calmMember hm ((Calm.refl t).clearOrigin i _ _)⟩
  | talkTimerExpiry i =>
    exact ⟨_, rfl, h.expireMember (fun ho => ho.ctxTimer i _) fun t hm => .calmMember hm ((Calm.refl t).clearOrigin i _ _)⟩
  | alertLimitExpiry i =>
    exact ⟨_, rfl, h.expireMember (fun ho => ho.ctxTimer i _) fun t hm => .calmMember hm ((Calm.refl t).endNow i _)⟩
  | pathWaitExpiry i =>
    exact ⟨_, rfl, h.expireMember (fun ho => ho.ctxTimer i _) fun t hm => .calmMember hm ((Calm.refl t).clearAnswer i _)⟩
  | carrierDetectorChange x n b =>
    refine ⟨_, rfl, ?_⟩
    split
    · exact h
    · refine h.keep ?_ fun ho => ho.detectorChanges x n b
      unfold State.detectorChanges State.eachRef
      dsimp only
      repeat' split
      all_goals rfl
  | settleTimerExpiry i =>
    refine ⟨_, rfl, h.expireMember (fun ho => ho.recTimer i _) fun t hm => .of_member (Eq.trans (member_congr ?_) hm)⟩
    unfold State.settleExpires
    split
    · exact ((Calm.refl _).reportClears i _ _).state.trans (by unfold State.modifyRec; split <;> rfl)
    · unfold State.modifyRec
      split <;> rfl
  | unmuteTimerExpiry i =>
    refine ⟨_, rfl, h.expireMember (fun ho => ho.recTimer i _) fun t hm => .of_member (Eq.trans (member_congr ?_) hm)⟩
    exact (((Calm.refl _).pathUp i).postPath i _).state.trans (by unfold State.modifyRec; split <;> rfl)
  | carrierLossTimerExpiry i n =>
    refine ⟨_, rfl, h.expireMember (fun ho => ho.recTimer i _) fun t hm => .of_member (Eq.trans (member_congr ?_) hm)⟩
    exact ((Calm.refl _).reportClears i _ _).state.trans (by unfold State.modifyRec; split <;> rfl)
  | muteTimerExpiry i =>
    exact ⟨_, rfl, h.expireMember (fun ho => ho.recTimer i _) fun t hm => .calmMember hm ((Calm.refl t).muteExpires i)⟩
  | keyInputChange key b => exact ⟨_, rfl, h.still ⟨rfl, rfl, rfl, rfl, rfl, rfl, rfl, fun _ => id⟩⟩
  | debounceTimerExpiry key => exact ⟨_, rfl, h.expire _ fun _ ht => ht.debounceExpires key⟩
  | replyWaitExpiry i =>
    refine ⟨_, rfl, h.expire _ fun t ht => ht.keep ((Calm.refl t).replyExpires i).state fun ho => ?_⟩
    rw [State.replyExpires, ho.ctxs]
    exact ho.still (still_withOku t _)
  | strikePulseExpiry => exact ⟨_, rfl, h.expire _ fun t ht => ht.still (still_withOku t _)⟩
  | ringerPhaseExpiry =>
    refine ⟨_, rfl, ?_⟩
    split
    · exact h
    · exact h.expire _ fun t ht => ht.still (still_withOku t _)
  | faultQualifies f =>
    refine ⟨_, rfl, ?_⟩
    split
    · exact h
    · exact h.still (still_sampleFault s f true)
  | configure fs => exact h.execConfigure fs
  | join fs => exact h.execJoin fs
  | restart fs => exact h.execRestart fs
  | dial fs => exact h.execDial fs
  | answer fs => exact h.execAnswer fs
  | hangup fs => exact h.execHangup fs
  | openDoor fs => exact h.execOpenDoor fs
  | setDnd fs => exact h.execSetDnd fs
  | clearFault fs => exact h.execClearFault fs
  | purge fs =>
    exact ⟨_, rfl, h.serve _ _ fun h1 => IdleLaw.still (s := s.openTransaction.purgeLines)
      (h1.still ⟨rfl, rfl, rfl, rfl, rfl, rfl, rfl, fun _ => id⟩) (still_reply _ _)⟩
  | readNotice fs => exact ⟨_, rfl, h.serve _ _ fun h1 => h1.still (still_withSport _ _)⟩
  | noticeRemoved => exact h.execNoticeRemoved
  | readStatus fs => exact ⟨_, rfl, h.serve _ _ fun h1 => h1.still (still_withSport _ _)⟩
  | overflowFlagCleared => exact h.execOverflowFlagCleared
  | readSlots fs => exact ⟨_, rfl, h.serve _ _ fun h1 => h1.still (still_withSport _ _)⟩
  | readWaits fs => exact ⟨_, rfl, h.serve _ _ fun h1 => h1.still (still_withSport _ _)⟩
  | readLine fs => exact h.execReadLine fs
  | readContext fs => exact h.execReadContext fs
  | unknownRequest c fs =>
    refine ⟨_, rfl, ?_⟩
    split
    · exact h
    · exact h.still (still_withSport s _)
  | transactionDiscarded => exact ⟨_, rfl, h.still (still_withSport s _)⟩
  | faultSample x y =>
    exact ⟨_, rfl, h.still ((still_clock s (s.now + 1) s.eventNo s.pins).trans ((still_sampleFault _ .strike x).trans
      (still_sampleFault _ .ringer y)))⟩

theorem idleLaw_step (h : IdleLaw s) (hstep : step s = .next t) : IdleLaw t := by
  unfold step at hstep
  split at hstep
  · cases hstep
    exact h
  next c cs _ =>
    obtain ⟨u, hexec, hu⟩ := idleLaw_exec (s := { s with pending := cs }) (h.still ⟨rfl, rfl, rfl, rfl, rfl, rfl, rfl, fun _ => id⟩) c
    rw [hexec] at hstep
    cases hstep
    exact hu

/-! ### The laws of the contexts -/

/-- The flags of the context laws: each is followed with no law of PATH but what mutes. -/
def Laws.ofCtx (role fits alert door : Prop) : Laws where
  role := role
  fits := fits
  alert := alert
  door := door
  mute := alert ∨ door
  path := False
  cut := 4
  fits_of_path := False.elim
  mute_of_alert := .inl
  mute_of_door := .inr

variable {role fits alert door : Prop}

/-- The context laws, and the path law where the alerting set or the door requests need it, give the followed laws. -/
theorem follows_ofCtx (hrole : role → s.WithinRole) (hfits : fits → ContextLaw s) (halert : alert → AlertLaw s) (hdoor : door → DoorLaw s)
    (hpath : alert ∨ door → PathLaw s) : Follows (Laws.ofCtx role fits alert door) s :=
  ⟨hrole, hfits, halert, hdoor, fun hk => (hpath hk).mute, False.elim, False.elim, False.elim, False.elim⟩

theorem grounds_ofCtx (hlock : role → LockLaw s) (hidle : role → IdleLaw s) (hpath : alert ∨ door → PathLaw s) :
    Grounds (Laws.ofCtx role fits alert door) s :=
  ⟨False.elim, hpath, fun hk => hlock (hk.resolve_right id), fun hk => hidle (hk.resolve_right id)⟩

theorem roleLaw_step (h : RoleLaw s) (hstep : step s = .next t) : RoleLaw t := by
  obtain ⟨hlock, hidle, hrole⟩ := h
  have hlock' : LockLaw t := keptByStep_of_keeps (law := LockLaw) (fun _ _ h => h) (fun _ _ h => h.lock) s t hlock hstep
  have hf := follows_step (k := Laws.ofCtx True False False False)
    (follows_ofCtx (fun _ => hrole) False.elim False.elim False.elim (by simp)) (grounds_ofCtx (fun _ => hlock) (fun _ => hidle) (by simp)) hstep
  exact ⟨hlock', idleLaw_step hidle hstep, hf.role trivial⟩

theorem contextLaw_step (h : ContextLaw s) (hstep : step s = .next t) : ContextLaw t :=
  (follows_step (k := Laws.ofCtx False True False False)
    (follows_ofCtx False.elim (fun _ => h) False.elim False.elim (by simp)) (grounds_ofCtx False.elim False.elim (by simp)) hstep).fits trivial

theorem alertLaw_step (h : AlertLaw s) (hp : PathLaw s) (hstep : step s = .next t) : AlertLaw t :=
  (follows_step (k := Laws.ofCtx False False True False)
    (follows_ofCtx False.elim False.elim (fun _ => h) False.elim fun _ => hp) (grounds_ofCtx False.elim False.elim fun _ => hp) hstep).alert trivial

theorem doorLaw_step (h : DoorLaw s) (hp : PathLaw s) (hstep : step s = .next t) : DoorLaw t :=
  (follows_step (k := Laws.ofCtx False False False True)
    (follows_ofCtx False.elim False.elim False.elim (fun _ => h) fun _ => hp) (grounds_ofCtx False.elim False.elim fun _ => hp) hstep).door trivial

end IdleExec

/-- Settles O59: each of the laws is one of those that every command keeps together (`follows_step`), and the idle law by whether the
station is a member (`idleLaw_step`). -/
theorem contextLawsAreKept : Obligations.ContextLawsAreKept :=
  ⟨fun _ _ h hstep => roleLaw_step h hstep, fun _ _ h hstep => contextLaw_step h hstep,
    fun _ _ h hp _ _ hstep => alertLaw_step h hp hstep, fun _ _ h hp _ _ hstep => doorLaw_step h hp hstep⟩

end Sys2Proof.Machine
end

section
/-! PROOFS. One context at a RESTART: what its clearing leaves, and what that costs in frames and notices (R75, R121, R125, R140). -/

namespace Sys2Proof.Machine

/-! ### The outcomes of a clearing -/

/-- Context i waits in CLEARING, with cause k, for `w`. -/
def ClearsTo (i : Ref) (y : Ctx) (k : Cause) (w : Awaits) (t : State) : Prop :=
  ∃ z, t.ctx i = some z ∧ Clearing y k false z ∧ z.awaits = w

/-- Context i waits in CLEARING for its RELEASE, which is queued (R121 step 5, R140). -/
def Releases (i : Ref) (y : Ctx) (k : Cause) (t : State) : Prop :=
  ClearsTo i y k .release t ∧ Entry.fresh (.release y.cid (causeByte (some k))) ∈ t.rif.queue

/-- Context i waits in CLEARING for its path, which mutes (R121 step 4, R156). -/
def Mutes (i : Ref) (y : Ctx) (k : Cause) (now : Nat) (t : State) : Prop :=
  ClearsTo i y k .pathOff t
    ∧ ∃ r, t.path.record i = some r ∧ r.stage = .mute ∧ r.muteTimer = some (now + Config.muteMs)

/-- The RELEASE of context i falls due: by its rows (R121 step 5). -/
def ReleaseRows (i : Ref) (y : Ctx) (k : Cause) (s t : State) : Prop :=
  if y.announced ∨ y.side = .answer then Releases i y k t
  else if s.queued ⟨.ring, .call y.cid⟩ then ClearsTo i y k .ringFate t
  else t.ctx i = none

/-- From a to u context i entered its final CLEARING, and no frame was queued. -/
structure EntersClearing (i : Ref) (y : Ctx) (k : Cause) (a u : State) : Prop where
  ctx : u.ctx i = some (y.cleared k)
  state : u.stc.state = a.stc.state
  queue : u.rif.queue = a.rif.queue
  now : u.now = a.now

theorem releaseFrame_cleared_getD (y : Ctx) (k : Cause) :
    (y.cleared k).releaseFrame = .release y.cid (causeByte (some (y.cause.getD k))) := rfl

section Outcome

variable {a u : State} {i : Ref} {y : Ctx} {k : Cause}

theorem entersClearing_enterClearing (hy : a.ctx i = some y) (k : Cause) : EntersClearing i y k a (a.enterClearing i k true) where
  ctx := ctx_enterClearing k hy
  state := congrArg Stc.state (enterClearing_stc ..)
  queue := enterClearing_queue ..
  now := enterClearing_now ..

theorem EntersClearing.recallCall (h : EntersClearing i y k a u) (c : CallId) : EntersClearing i y k a (u.recallCall c) where
  ctx := (ctx_recallCall u c i).trans h.ctx
  state := (congrArg Stc.state (recallCall_stc u c)).trans h.state
  queue := (recallCall_queue u c).trans h.queue
  now := (recallCall_now u c).trans h.now

theorem EntersClearing.teardown (h : EntersClearing i y k a u) : EntersClearing i y k a (u.teardown i) where
  ctx := (State.ctx_congr (teardown_ctxs u i) i).trans h.ctx
  state := ((Calm.refl u).teardown i).state.trans h.state
  queue := (congrArg Rif.queue (teardown_rif u i)).trans h.queue
  now := ((Calm.refl u).teardown i).now.trans h.now

theorem EntersClearing.awaits (h : EntersClearing i y k a u) (w : Awaits) : ClearsTo i y (y.cause.getD k) w (u.setAwaits i w) :=
  ⟨_, by rw [State.setAwaits, modifyCtx_live h.ctx, State.ctx_setCtx, if_pos rfl], clearing_cleared k y w, rfl⟩

theorem EntersClearing.accepts (h : EntersClearing i y k a u) (hs : a.stc.state.sends = true) (hc : a.rif.count .call < 8) (z : Ctx) :
    u.accepts z.releaseFrame = true :=
  accepts_release z (by rwa [h.state]) (by rw [Rif.count, h.queue]; exact hc)

/-- With room for it the RELEASE joins the queue (R47, R121, R140). -/
theorem releases_queueFrame (hacc : u.accepts (y.cleared k).releaseFrame = true) :
    Releases i y (y.cause.getD k)
      ((u.queueFrame (y.cleared k).releaseFrame).setCtx i (some { y.cleared k with awaits := .release })) := by
  refine ⟨⟨_, by rw [State.ctx_setCtx, if_pos rfl], clearing_cleared k y .release, rfl⟩, ?_⟩
  rw [State.setCtx_rif, queueFrame_accepted hacc, releaseFrame_cleared_getD]
  exact List.mem_append_right _ List.mem_cons_self

theorem EntersClearing.queueRelease (h : EntersClearing i y k a u) (hs : a.stc.state.sends = true) (hc : a.rif.count .call < 8) :
    Releases i y (y.cause.getD k) (u.queueRelease i) := by
  have hacc := h.accepts hs hc (y.cleared k)
  rw [queueRelease_accepted h.ctx hacc]
  exact releases_queueFrame hacc

theorem EntersClearing.sendRelease (h : EntersClearing i y k a u) (hs : a.stc.state.sends = true) (hc : a.rif.count .call < 8) :
    ReleaseRows i y (y.cause.getD k) a (u.sendRelease i) := by
  have hring : u.queued ⟨.ring, .call (y.cleared k).cid⟩ = a.queued ⟨.ring, .call y.cid⟩ := by
    unfold State.queued; rw [h.queue]; rfl
  have hacc := h.accepts hs hc (y.cleared k)
  unfold ReleaseRows
  split
  next hann =>
    rw [sendRelease_accepted h.ctx hann hacc]
    exact releases_queueFrame hacc
  next hann =>
    have hnot : ¬ ((y.cleared k).announced = true ∨ (y.cleared k).side = .answer) := hann
    simp only [State.sendRelease, h.ctx, if_neg hnot, hring]
    split
    · exact h.awaits .ringFate
    · exact ctx_freeCtx u i

/-- The teardown of a lit path mutes it; behind a dark one the RELEASE falls due (R121 step 4, R140 step 3, R156). -/
theorem EntersClearing.teardownThenRelease (h : EntersClearing i y k a u) (hs : a.stc.state.sends = true) (hc : a.rif.count .call < 8) :
    if u.path.lit i = true then Mutes i y (y.cause.getD k) a.now (u.teardownThenRelease i)
    else ReleaseRows i y (y.cause.getD k) a (u.teardownThenRelease i) := by
  split
  next hl =>
    cases hr : u.path.record i with
    | none => rw [Path.lit_none hr] at hl; cases hl
    | some r =>
      rw [teardownThenRelease_lit hl]
      refine ⟨h.teardown.awaits .pathOff, r.muting u.now, ?_, rfl, by rw [← h.now]; rfl⟩
      rw [State.setAwaits, State.modifyCtx_path, teardown_lit hr hl, State.record_reckonOwner]
      exact (record_mutedPath r i).trans (if_pos rfl)
  next hl =>
    have hdark : u.teardownThenRelease i = (u.teardown i).sendRelease i :=
      if_pos (by rw [State.pathDark, Bool.eq_false_iff.mpr hl]; rfl)
    rw [hdark]
    exact h.teardown.sendRelease hs hc

end Outcome

/-! ### The visit -/

/-- The rows of an ORIGIN or ANSWER-side context by its state, once its clearing began (R121, R140). -/
def ClearRows (i : Ref) (y : Ctx) (k : Cause) (s t : State) : Prop :=
  if y.state ∈ [CtxState.settling, .talk] ∧ s.path.lit i = true then Mutes i y k s.now t else ReleaseRows i y k s t

section Visit

variable {a : State} {i : Ref} {y : Ctx}

theorem restartCtx_clearing (hs : y.state = .clearing) (hy : a.ctx i = some y) :
    (a.restartCtx i y).ctx i = some { y with reversible := false } := by
  rw [State.restartCtx, if_pos hs]
  split
  · rw [State.makeFinal, modifyCtx_live hy, State.ctx_setCtx, if_pos rfl]
  next hr => rw [hy, ← Bool.eq_false_iff.mpr hr]

theorem restartCtx_origin (hs : y.state ≠ .clearing) (hy : a.ctx i = some y) (hside : y.side = .origin) :
    a.restartCtx i y = a.clearOrigin i .restart true := by
  simp only [State.restartCtx, if_neg hs, State.clearCall, hy, hside]

theorem restartCtx_answer (hs : y.state ≠ .clearing) (hy : a.ctx i = some y) (hside : y.side = .answer) :
    a.restartCtx i y = a.clearAnswer i .restart := by
  simp only [State.restartCtx, if_neg hs, State.clearCall, hy, hside]

theorem clearRows_clearOrigin (hy : a.ctx i = some y) (hs : a.stc.state.sends = true) (hc : a.rif.count .call < 8) (k : Cause) :
    ClearRows i y (y.cause.getD k) a (a.clearOrigin i k true) := by
  have hclear : EntersClearing i y k a (a.clearedAt i y k) := (entersClearing_enterClearing hy k).recallCall y.cid
  have hlit : (a.clearedAt i y k).path.lit i = a.path.lit i := by rw [clearedAt_path]
  by_cases hst : y.state = .settling ∨ y.state = .talk
  · have heq : a.clearOrigin i k true = (a.clearedAt i y k).teardownThenRelease i := by
      simp only [State.clearOrigin, hy]
      exact if_pos hst
    have hrows := hclear.teardownThenRelease hs hc
    rw [hlit, ← heq] at hrows
    simpa [ClearRows, hst] using hrows
  · rw [clearOrigin_bare hy ⟨fun h => hst (.inl h), fun h => hst (.inr h)⟩, ClearRows, if_neg (by simpa using fun h => absurd h hst)]
    exact hclear.sendRelease hs hc

/-- The frames of the call that an ORIGIN clearing found queued are under recall (R121 step 3). -/
theorem recalls_clearOrigin (hy : a.ctx i = some y) (k : Cause) {f : FrameKind} (hf : f ∈ [FrameKind.ring, .claim, .wait])
    (hq : a.queued ⟨f, .call y.cid⟩ = true) : (a.clearOrigin i k true).recallOpen ⟨f, .call y.cid⟩ := by
  have hopen : (a.clearedAt i y k).recallOpen ⟨f, .call y.cid⟩ := recallOpen_recallCall hf (by rwa [queued_enterClearing])
  have hadds : Adds (fun _ => True) (a.clearedAt i y k) (a.clearOrigin i k true) := by
    refine Adds.of_spares (i := i) fun j hj => ?_
    simp only [State.clearOrigin, hy]
    split
    · exact (Spares.refl _ _).teardownThenRelease trivial hj
    · exact (Spares.refl _ _).sendRelease trivial hj
  exact hadds.recallOpen hopen

theorem clearRows_clearAnswer (hy : a.ctx i = some y) (hs : a.stc.state.sends = true) (hc : a.rif.count .call < 8) (k : Cause)
    (hst : y.state = .settling ∨ y.state = .talk) : ClearRows i y (y.cause.getD k) a (a.clearAnswer i k) := by
  have heq : a.clearAnswer i k = (a.enterClearing i k true).teardownThenRelease i := by
    rcases hst with h | h <;> simp only [State.clearAnswer, hy, h]
  have hrows := (entersClearing_enterClearing hy k).teardownThenRelease hs hc
  rw [enterClearing_path, ← heq] at hrows
  simpa [ClearRows, hst] using hrows

theorem clearAnswer_answering (hy : a.ctx i = some y) (hst : y.state = .answering) (k : Cause) :
    if a.queued ⟨.answer, .call y.cid⟩ = true then
      ClearsTo i y (y.cause.getD k) .answerRecall (a.clearAnswer i k)
        ∧ (a.queued ⟨.answer, .call y.cid⟩ = true → (a.clearAnswer i k).recallOpen ⟨.answer, .call y.cid⟩)
    else (a.clearAnswer i k).ctx i = none := by
  have hclear := entersClearing_enterClearing hy k
  have heq : a.clearAnswer i k = (a.enterClearing i k true).awaitAnswerRecall i y.cid := by
    simp only [State.clearAnswer, hy, hst]
  have hqueued := queued_enterClearing a i k true ⟨.answer, .call y.cid⟩
  rw [heq, State.awaitAnswerRecall, hqueued]
  split
  next hq =>
    have hopen := recallOpen_askRecall (hqueued.trans hq)
    refine ⟨⟨_, ?_, clearing_cleared k y .answerRecall, rfl⟩, fun _ => hopen.of_rif (State.modifyCtx_rif ..)⟩
    rw [State.setAwaits, modifyCtx_live ((ctx_askRecall _ _ i).trans hclear.ctx), State.ctx_setCtx, if_pos rfl]
  next => exact ctx_freeCtx _ i

/-- A context at a RESTART, seen from its own visit (R75, R125, R144). -/
theorem restartedCtx_visit (hy : a.ctx i = some y) (hfit : y.Fits) (hs : a.stc.state.sends = true) (hc : a.rif.count .call < 8) :
    RestartedCtx i y a (a.restartCtx i y) := by
  obtain ⟨hhas, -⟩ := hfit
  by_cases hclear : y.state = .clearing
  · exact ⟨fun _ h => absurd hclear h, by simpa only [hclear] using restartCtx_clearing hclear hy⟩
  cases hside : y.side with
  | origin =>
    rw [restartCtx_origin hclear hy hside]
    have hrows := clearRows_clearOrigin hy hs hc .restart
    have hrecall := fun f hf => recalls_clearOrigin (f := f) hy .restart hf
    refine ⟨fun _ _ => ⟨hrecall _ (by simp), hrecall _ (by simp), hrecall _ (by simp)⟩, ?_⟩
    cases hst : y.state <;> simp only [hside, hst, Side.has, Bool.false_eq_true] at hhas
    case clearing => exact absurd hst hclear
    all_goals rw [ClearRows, hst] at hrows; exact hrows
  | answer =>
    rw [restartCtx_answer hclear hy hside]
    refine ⟨fun h => absurd (hside.symm.trans h) (by decide), ?_⟩
    cases hst : y.state <;> simp only [hside, hst, Side.has, Bool.false_eq_true] at hhas
    case clearing => exact absurd hst hclear
    case alerting =>
      have heq : a.clearAnswer i .restart = a.endNow i .restart := by simp only [State.clearAnswer, hy, hst]
      rw [heq]
      exact ⟨ctx_endNow .., alerting_endNow ..⟩
    case answering => exact clearAnswer_answering hy hst .restart
    case awaitPath =>
      have heq : a.clearAnswer i .restart = (a.enterClearing i .restart true).queueRelease i := by
        simp only [State.clearAnswer, hy, hst]
      rw [heq]
      exact (entersClearing_enterClearing hy .restart).queueRelease hs hc
    case settling =>
      have hrows := clearRows_clearAnswer hy hs hc .restart (.inl hst)
      rw [ClearRows, hst] at hrows
      exact hrows
    case talk =>
      have hrows := clearRows_clearAnswer hy hs hc .restart (.inr hst)
      rw [ClearRows, hst] at hrows
      exact hrows

end Visit

end Sys2Proof.Machine
end

section
/-! PROOFS. What a context's clearing at a RESTART costs in frames and notices, and what its visit leaves of the station (R75, R121,
R140, R180). -/

namespace Sys2Proof.Machine

/-! ### The cost in frames and notices -/

/-- From a to t at most n frames of calls joined the queue, and at most m notices. -/
structure Spends (n m : Nat) (a t : State) : Prop where
  frames : t.rif.count .call ≤ a.rif.count .call + n
  notices : t.sport.notices.length ≤ a.sport.notices.length + m

section Spends

variable {n m n' m' : Nat} {a s t : State} {i : Ref}

theorem Spends.trans (h : Spends n m a s) (k : Spends n' m' s t) : Spends (n + n') (m + m') a t where
  frames := k.frames.trans (by have := h.frames; omega)
  notices := k.notices.trans (by have := h.notices; omega)

theorem Spends.mono (h : Spends n m a t) (hn : n ≤ n') (hm : m ≤ m') : Spends n' m' a t where
  frames := h.frames.trans (Nat.add_le_add_left hn _)
  notices := h.notices.trans (Nat.add_le_add_left hm _)

theorem spends_of_same (hq : t.rif.queue = a.rif.queue) (hs : t.sport = a.sport) : Spends 0 0 a t where
  frames := by rw [Rif.count, hq]; exact le_refl _
  notices := by rw [hs]; exact le_refl _

theorem spends_of_queue (hq : t.rif.queue = a.rif.queue) (hn : t.sport.notices.length ≤ a.sport.notices.length + m) : Spends 0 m a t where
  frames := by rw [Rif.count, hq]; exact le_refl _
  notices := hn

variable (a i)

theorem spends_post (x : Notice) : Spends 0 1 a (a.post x) := spends_of_queue (by rw [State.post_rif]) (notices_post_le a x)

theorem spends_queueFrame (f : Frame) : Spends 1 0 a (a.queueFrame f) where
  frames := count_queueFrame_le a f .call
  notices := by rw [State.queueFrame_sport]; exact le_refl _

theorem spends_modifyCtx (f : Ctx → Ctx) : Spends 0 0 a (a.modifyCtx i f) :=
  spends_of_same (by rw [State.modifyCtx_rif]) (State.modifyCtx_sport ..)

theorem spends_freeCtx : Spends 0 1 a (a.freeCtx i) :=
  spends_of_queue (by rw [freeCtx_rif]) (by rw [State.freeCtx, State.setCtx_sport]; exact notices_postEnd_le a i)

theorem spends_enterClearing (k : Cause) : Spends 0 1 a (a.enterClearing i k true) :=
  spends_of_queue (enterClearing_queue ..) (notices_enterClearing_le a i k)

theorem spends_recallCall (c : CallId) : Spends 0 0 a (a.recallCall c) := spends_of_same (recallCall_queue a c) (recallCall_sport a c)

theorem spends_endNow (k : Cause) : Spends 0 1 a (a.endNow i k) := by
  have hduties : Spends 0 0 a ((a.modifyCtx i fun c => (c.stopTimers).firstCause k).dropDuties i) := spends_of_same (by simp) (by simp)
  exact hduties.trans (spends_freeCtx _ i)

theorem spends_teardown : Spends 0 1 a (a.teardown i) := by
  refine spends_of_queue (by rw [teardown_rif]) ?_
  unfold State.teardown
  split
  · dsimp only
    split
    · exact notices_reckonOwner_le _
    · exact notices_reckonOwner_le _
  · exact Nat.le_succ _

theorem spends_queueRelease : Spends 1 2 a (a.queueRelease i) := by
  unfold State.queueRelease
  split
  · dsimp only
    split
    · exact ((spends_queueFrame a _).trans (spends_modifyCtx _ i _)).mono (le_refl 1) (Nat.zero_le 2)
    · exact ((spends_post a _).trans (spends_freeCtx _ i)).mono (Nat.zero_le 1) (le_refl 2)
  · exact (spends_of_same rfl rfl).mono (Nat.zero_le 1) (Nat.zero_le 2)

theorem spends_sendRelease : Spends 1 2 a (a.sendRelease i) := by
  unfold State.sendRelease
  split
  · split
    · exact spends_queueRelease a i
    · split
      · exact (spends_modifyCtx a i _).mono (Nat.zero_le 1) (Nat.zero_le 2)
      · exact (spends_freeCtx a i).mono (Nat.zero_le 1) (by decide)
  · exact (spends_of_same rfl rfl).mono (Nat.zero_le 1) (Nat.zero_le 2)

theorem spends_teardownThenRelease : Spends 1 3 a (a.teardownThenRelease i) := by
  unfold State.teardownThenRelease
  split
  · exact (spends_teardown a i).trans (spends_sendRelease _ i)
  · exact ((spends_teardown a i).trans (spends_modifyCtx _ i _)).mono (Nat.zero_le 1) (by decide)

theorem spends_clearOrigin (k : Cause) : Spends 1 4 a (a.clearOrigin i k true) := by
  unfold State.clearOrigin
  split
  next c hc =>
    have hclear := (spends_enterClearing a i k).trans (spends_recallCall _ c.cid)
    dsimp only
    split
    · exact hclear.trans (spends_teardownThenRelease _ i)
    · exact (hclear.trans (spends_sendRelease _ i)).mono (le_refl 1) (by decide)
  · exact (spends_of_same rfl rfl).mono (Nat.zero_le 1) (Nat.zero_le 4)

theorem spends_awaitAnswerRecall (c : CallId) : Spends 0 1 a (a.awaitAnswerRecall i c) := by
  unfold State.awaitAnswerRecall
  split
  · exact ((spends_of_same (by simp) (by simp) : Spends 0 0 a (a.askRecall _)).trans (spends_modifyCtx _ i _)).mono (le_refl 0)
      (Nat.zero_le 1)
  · exact spends_freeCtx a i

theorem spends_clearAnswer (k : Cause) : Spends 1 4 a (a.clearAnswer i k) := by
  have hclear := spends_enterClearing a i k
  unfold State.clearAnswer
  split
  · split
    · exact (hclear.trans (spends_awaitAnswerRecall _ i _)).mono (Nat.zero_le 1) (by decide)
    · exact hclear.trans (spends_teardownThenRelease _ i)
    · exact hclear.trans (spends_teardownThenRelease _ i)
    · exact (hclear.trans (spends_queueRelease _ i)).mono (le_refl 1) (by decide)
    · exact (spends_endNow a i k).mono (Nat.zero_le 1) (by decide)
    · exact (spends_of_same rfl rfl).mono (Nat.zero_le 1) (Nat.zero_le 4)
  · exact (spends_of_same rfl rfl).mono (Nat.zero_le 1) (Nat.zero_le 4)

theorem spends_restartCtx (y : Ctx) : Spends 1 4 a (a.restartCtx i y) := by
  have hnothing : Spends 1 4 a a := (spends_of_same rfl rfl).mono (Nat.zero_le 1) (Nat.zero_le 4)
  unfold State.restartCtx
  split
  · split
    · exact (spends_modifyCtx a i _).mono (Nat.zero_le 1) (Nat.zero_le 4)
    · exact hnothing
  · unfold State.clearCall
    split
    · split
      · exact spends_clearOrigin a i .restart
      · exact spends_clearAnswer a i .restart
    · exact hnothing

end Spends

/-! ### CLEARING or free -/

/-- Context i is in CLEARING, or free. -/
def GoneOrClearing (i : Ref) (t : State) : Prop := ∀ z, t.ctx i = some z → z.state = .clearing

section GoneOrClearing

variable {a t : State} {i : Ref} {y : Ctx}

theorem GoneOrClearing.of_free (h : t.ctx i = none) : GoneOrClearing i t := fun z hz => by rw [h] at hz; cases hz

theorem GoneOrClearing.of_live (h : t.ctx i = some y) (hs : y.state = .clearing) : GoneOrClearing i t := fun z hz => by
  rw [h] at hz
  cases hz
  exact hs

theorem GoneOrClearing.congr (h : GoneOrClearing i a) (ht : t.ctx i = a.ctx i) : GoneOrClearing i t := fun z hz => h z (ht ▸ hz)

theorem GoneOrClearing.setAwaits (h : GoneOrClearing i t) (w : Awaits) : GoneOrClearing i (t.setAwaits i w) := fun z hz => by
  rw [ctx_setAwaits] at hz
  obtain ⟨x, hx, rfl⟩ := Option.map_eq_some_iff.mp hz
  exact h x hx

theorem GoneOrClearing.queueRelease (h : GoneOrClearing i t) : GoneOrClearing i (t.queueRelease i) := by
  unfold State.queueRelease
  split
  · dsimp only
    split
    · exact (h.congr (ctx_queueFrame t _ i)).setAwaits .release
    · exact .of_free (ctx_freeCtx _ i)
  · exact h

theorem GoneOrClearing.sendRelease (h : GoneOrClearing i t) : GoneOrClearing i (t.sendRelease i) := by
  unfold State.sendRelease
  split
  · split
    · exact h.queueRelease
    · split
      · exact h.setAwaits .ringFate
      · exact .of_free (ctx_freeCtx _ i)
  · exact h

theorem GoneOrClearing.teardownThenRelease (h : GoneOrClearing i t) : GoneOrClearing i (t.teardownThenRelease i) := by
  have hdown : GoneOrClearing i (t.teardown i) := h.congr (State.ctx_congr (teardown_ctxs t i) i)
  unfold State.teardownThenRelease
  split
  · exact hdown.sendRelease
  · exact hdown.setAwaits .pathOff

theorem goneOrClearing_enterClearing (hy : a.ctx i = some y) (k : Cause) : GoneOrClearing i (a.enterClearing i k true) :=
  .of_live (ctx_enterClearing k hy) rfl

theorem goneOrClearing_clearOrigin (hy : a.ctx i = some y) (k : Cause) : GoneOrClearing i (a.clearOrigin i k true) := by
  have hclear : GoneOrClearing i (a.clearedAt i y k) := .of_live (ctx_clearedAt hy k) rfl
  simp only [State.clearOrigin, hy]
  split
  · exact hclear.teardownThenRelease
  · exact hclear.sendRelease

theorem goneOrClearing_clearAnswer (hy : a.ctx i = some y) (hside : Side.answer.has y.state = true) (hs : y.state ≠ .clearing)
    (k : Cause) : GoneOrClearing i (a.clearAnswer i k) := by
  have hclear := goneOrClearing_enterClearing hy k
  cases hst : y.state <;> simp only [hst, Side.has, Bool.false_eq_true] at hside <;> simp only [State.clearAnswer, hy, hst]
  case clearing => exact absurd hst hs
  case alerting => exact .of_free (ctx_endNow ..)
  case answering =>
    unfold State.awaitAnswerRecall
    split
    · exact (hclear.congr (ctx_askRecall _ _ i)).setAwaits .answerRecall
    · exact .of_free (ctx_freeCtx _ i)
  case awaitPath => exact hclear.queueRelease
  all_goals exact hclear.teardownThenRelease

theorem goneOrClearing_restartCtx (hy : a.ctx i = some y) (hfit : y.Fits) : GoneOrClearing i (a.restartCtx i y) := by
  obtain ⟨hhas, -⟩ := hfit
  by_cases hs : y.state = .clearing
  · exact .of_live (restartCtx_clearing hs hy) hs
  cases hside : y.side with
  | origin => rw [restartCtx_origin hs hy hside]; exact goneOrClearing_clearOrigin hy .restart
  | answer => rw [restartCtx_answer hs hy hside]; exact goneOrClearing_clearAnswer hy (hside ▸ hhas) hs .restart

end GoneOrClearing

/-! ### CALL_ENDED -/

section Said

variable {a : State} {i : Ref} {y : Ctx}

theorem endSaid_clearAnswer (hy : a.ctx i = some y) (hside : Side.answer.has y.state = true) (hs : y.state ≠ .clearing) (k : Cause) :
    EndSaid i y k a (a.clearAnswer i k) := by
  have hsaid := endSaid_enterClearing hy k
  have hcalm := Calm.refl (a.enterClearing i k true)
  cases hst : y.state <;> simp only [hst, Side.has, Bool.false_eq_true] at hside <;> simp only [State.clearAnswer, hy, hst]
  case clearing => exact absurd hst hs
  case alerting => exact endSaid_endNow hy k
  case answering => exact hsaid.mono (hcalm.awaitAnswerRecall i y.cid).posted
  case awaitPath => exact hsaid.mono (hcalm.queueRelease i).posted
  all_goals exact hsaid.mono (hcalm.teardownThenRelease i).posted

/-- Every context that a RESTART clears or ends says CALL_ENDED (R125, R144). -/
theorem endSaid_restartCtx (hy : a.ctx i = some y) (hfit : y.Fits) (hs : y.state ≠ .clearing) :
    EndSaid i y .restart a (a.restartCtx i y) := by
  obtain ⟨hhas, -⟩ := hfit
  cases hside : y.side with
  | origin => rw [restartCtx_origin hs hy hside]; exact endSaid_clearOrigin hy .restart
  | answer => rw [restartCtx_answer hs hy hside]; exact endSaid_clearAnswer hy (hside ▸ hhas) hs .restart

theorem Spares.restartCtx {ks : FrameKind → Prop} {s : State} {j : Ref} (hr : ks .release) (h : Spares ks j a s) (hij : j ≠ i) (c : Ctx) :
    Spares ks j a (s.restartCtx i c) := by
  unfold State.restartCtx
  split
  · split
    · exact h.makeFinal hij
    · exact h
  · exact h.clearCall hr hij .restart

end Said

end Sys2Proof.Machine
end

section
/-! PROOFS. At a station without paths each context of a RESTART posts its CALL_ENDED and nothing else (R75, R125, R144, R180). -/

namespace Sys2Proof.Machine

/-- The CALL_ENDED notice of context i at a RESTART, none where it clears already or posted its own before (R125, R144). -/
def State.restartNotice (s : State) (i : Ref) : Option Notice :=
  (s.ctx i).bind fun y => if y.endPosted ∨ y.state = .clearing then none else some (.callEnded i y.cid (some (y.cause.getD .restart)))

theorem restartNotices_eq (s : State) : s.restartNotices = refs.filterMap s.restartNotice := rfl

/-- The CALL_ENDED notice of a context that ends with cause k, none where it posted its own before (R123). -/
def Ctx.endNotices (y : Ctx) (i : Ref) (k : Cause) : List Notice :=
  if y.endPosted then [] else [.callEnded i y.cid (some (y.cause.getD k))]

/-! ### What a context says once, and nothing behind it -/

section Says

variable {a u : State} {i : Ref} {y : Ctx} {k : Cause}

theorem toList_restartNotice (hy : a.ctx i = some y) (hs : y.state ≠ .clearing) :
    (a.restartNotice i).toList = y.endNotices i .restart := by
  rw [State.restartNotice, hy, Option.bind_some, Ctx.endNotices]
  by_cases h : y.endPosted = true <;> simp [h, hs]

theorem restartNotice_clearing (hy : a.ctx i = some y) (hs : y.state = .clearing) : a.restartNotice i = none := by
  rw [State.restartNotice, hy, Option.bind_some, if_pos (.inr hs)]

theorem postsInTurn_enterClearing (hy : a.ctx i = some y) (k : Cause) :
    PostsInTurn (y.endNotices i k) a (a.enterClearing i k true) := by
  have hctx : ((a.modifyCtx i fun c => { (c.stopTimers).firstCause k with
      state := .clearing, reversible := !true, forward := if c.forward = .seeking then .none else c.forward }).dropDuties i).ctx i
        = some { (y.stopTimers).firstCause k with
            state := .clearing, reversible := !true, forward := if y.forward = .seeking then .none else y.forward } := by
    simp [State.ctx_modifyCtx, hy]
  have hfree := postsInTurn_freeCtx hctx
  rw [State.enterClearing, if_pos rfl]
  exact PostsInTurn.from_sport (hfree.of_sport (State.setCtx_sport ..).symm) (by simp)

theorem postsInTurn_endNow_cause (hy : a.ctx i = some y) (k : Cause) : PostsInTurn (y.endNotices i k) a (a.endNow i k) := by
  have hctx : ((a.modifyCtx i fun c => (c.stopTimers).firstCause k).dropDuties i).ctx i = some ((y.stopTimers).firstCause k) := by
    simp [State.ctx_modifyCtx, hy]
  exact (postsInTurn_freeCtx hctx).from_sport (by simp)

theorem EntersClearing.freeCtx_sport (h : EntersClearing i y k a u) : (u.freeCtx i).sport = u.sport := by
  rw [State.freeCtx, postEnd_eq h.ctx]
  rfl

theorem EntersClearing.queueRelease_sport (h : EntersClearing i y k a u) (hs : a.stc.state.sends = true) (hc : a.rif.count .call < 8) :
    (u.queueRelease i).sport = u.sport := by
  rw [queueRelease_accepted h.ctx (h.accepts hs hc _), State.setCtx_sport, State.queueFrame_sport]

theorem EntersClearing.sendRelease_sport (h : EntersClearing i y k a u) (hs : a.stc.state.sends = true) (hc : a.rif.count .call < 8) :
    (u.sendRelease i).sport = u.sport := by
  simp only [State.sendRelease, h.ctx]
  split
  · exact h.queueRelease_sport hs hc
  · split
    · exact State.modifyCtx_sport ..
    · exact h.freeCtx_sport

theorem EntersClearing.awaitAnswerRecall_sport (h : EntersClearing i y k a u) (c : CallId) : (u.awaitAnswerRecall i c).sport = u.sport := by
  unfold State.awaitAnswerRecall
  split
  · rw [State.setAwaits, State.modifyCtx_sport, State.askRecall_sport]
  · exact h.freeCtx_sport

end Says

/-! ### Without a path -/

/-- From a to t context i's notices were posted, and PATH stands. -/
def SaysAlone (ns : List Notice) (a t : State) : Prop := PostsInTurn ns a t ∧ t.path = a.path

section Pathless

variable {a u t : State} {i : Ref} {y : Ctx} {ns : List Notice}

theorem SaysAlone.quiet (h : SaysAlone ns a u) (hs : t.sport = u.sport) (hp : t.path = u.path) : SaysAlone ns a t :=
  ⟨h.1.of_sport hs, hp.trans h.2⟩

/-- Without a path there is nothing to tear down (R121 step 4, R140 step 3). -/
theorem teardownThenRelease_of_pathless (hr : u.path.record i = none) : u.teardownThenRelease i = u.sendRelease i := by
  have hdark : u.pathDark i = true := by rw [State.pathDark, Path.lit_none hr]; rfl
  have hdown : u.teardown i = u := by simp only [State.teardown, hr]
  rw [State.teardownThenRelease, if_pos hdark, hdown]

theorem saysAlone_enterClearing (hy : a.ctx i = some y) (k : Cause) : SaysAlone (y.endNotices i k) a (a.enterClearing i k true) :=
  ⟨postsInTurn_enterClearing hy k, enterClearing_path ..⟩

theorem path_awaitAnswerRecall (s : State) (i : Ref) (c : CallId) : (s.awaitAnswerRecall i c).path = s.path := by
  unfold State.awaitAnswerRecall
  split
  · rw [State.setAwaits, State.modifyCtx_path, State.askRecall_path]
  · exact freeCtx_path _ i

theorem saysAlone_clearOrigin (hy : a.ctx i = some y) (hr : a.path.record i = none) (hs : a.stc.state.sends = true)
    (hc : a.rif.count .call < 8) (k : Cause) : SaysAlone (y.endNotices i k) a (a.clearOrigin i k true) := by
  have hclear : EntersClearing i y k a (a.clearedAt i y k) := (entersClearing_enterClearing hy k).recallCall y.cid
  have hsays : SaysAlone (y.endNotices i k) a (a.clearedAt i y k) :=
    (saysAlone_enterClearing hy k).quiet (recallCall_sport ..) (recallCall_path ..)
  have heq : a.clearOrigin i k true = (a.clearedAt i y k).sendRelease i := by
    have hnone : (a.clearedAt i y k).path.record i = none := by rw [clearedAt_path, hr]
    simp only [State.clearOrigin, hy]
    split
    · exact teardownThenRelease_of_pathless hnone
    · rfl
  rw [heq]
  exact hsays.quiet (hclear.sendRelease_sport hs hc) (sendRelease_path _ i)

theorem saysAlone_clearAnswer (hy : a.ctx i = some y) (hside : Side.answer.has y.state = true) (hst : y.state ≠ .clearing)
    (hr : a.path.record i = none) (hs : a.stc.state.sends = true) (hc : a.rif.count .call < 8) (k : Cause) :
    SaysAlone (y.endNotices i k) a (a.clearAnswer i k) := by
  have hclear := entersClearing_enterClearing hy k
  have hsays := saysAlone_enterClearing hy k
  have hnone : (a.enterClearing i k true).path.record i = none := by rw [enterClearing_path, hr]
  have hrelease := hsays.quiet (hclear.sendRelease_sport hs hc) (sendRelease_path _ i)
  rw [← teardownThenRelease_of_pathless hnone] at hrelease
  cases h : y.state <;> simp only [h, Side.has, Bool.false_eq_true] at hside <;> simp only [State.clearAnswer, hy, h]
  case clearing => exact absurd h hst
  case alerting => exact ⟨postsInTurn_endNow_cause hy k, endNow_path ..⟩
  case answering => exact hsays.quiet (hclear.awaitAnswerRecall_sport y.cid) (path_awaitAnswerRecall ..)
  case awaitPath => exact hsays.quiet (hclear.queueRelease_sport hs hc) (path_queueRelease ..)
  all_goals exact hrelease

/-- One context of a RESTART at a station without paths (R75, R125, R144). -/
theorem saysAlone_restartCtx (hy : a.ctx i = some y) (hfit : y.Fits) (hr : a.path.record i = none) (hs : a.stc.state.sends = true)
    (hc : a.rif.count .call < 8) : SaysAlone (a.restartNotice i).toList a (a.restartCtx i y) := by
  obtain ⟨hhas, -⟩ := hfit
  by_cases hst : y.state = .clearing
  · have hnil : SaysAlone [] a a := ⟨PostsInTurn.nil a, rfl⟩
    rw [restartNotice_clearing hy hst, Option.toList_none, State.restartCtx, if_pos hst]
    split
    · exact hnil.quiet (State.modifyCtx_sport ..) (State.modifyCtx_path ..)
    · exact hnil
  · rw [toList_restartNotice hy hst]
    cases hside : y.side with
    | origin => rw [restartCtx_origin hst hy hside]; exact saysAlone_clearOrigin hy hr hs hc .restart
    | answer => rw [restartCtx_answer hst hy hside]; exact saysAlone_clearAnswer hy (hside ▸ hhas) hst hr hs hc .restart

end Pathless

end Sys2Proof.Machine
end

section
/-! PROOFS. The pass of a RESTART over the contexts, and the station on its way to LEAVING (R75, R77, R97). -/

namespace Sys2Proof.Machine

/-! ### What a visit gave a context, the other visits leave it -/

section Spared

variable {ks : FrameKind → Prop} {a b s t : State} {i : Ref} {y : Ctx} {k : Cause}

theorem ClearsTo.spared {w : Awaits} (h : ClearsTo i y k w b) (h2 : Spares ks i b t) : ClearsTo i y k w t := by
  unfold ClearsTo
  rw [h2.ctx]
  exact h

theorem Releases.spared (h : Releases i y k b) (h2 : Spares ks i b t) : Releases i y k t :=
  ⟨h.1.spared h2, h2.adds.mem h.2⟩

theorem Mutes.spared {now : Nat} (h : Mutes i y k now b) (h2 : Spares ks i b t) : Mutes i y k now t :=
  ⟨h.1.spared h2, by rw [h2.record]; exact h.2⟩

variable (h1 : Spares ks i s a) (h2 : Spares ks i b t)
include h1 h2

theorem ReleaseRows.around (h : ReleaseRows i y k a b) (hring : ¬ ks .ring) : ReleaseRows i y k s t := by
  unfold ReleaseRows at h ⊢
  rw [h1.adds.queued hring] at h
  split
  next hann => exact Releases.spared (by rwa [if_pos hann] at h) h2
  next hann =>
    rw [if_neg hann] at h
    split
    next hq => exact ClearsTo.spared (by rwa [if_pos hq] at h) h2
    next hq => exact h2.ctx.trans (by rwa [if_neg hq] at h)

theorem ClearRows.around (h : ClearRows i y k a b) (hring : ¬ ks .ring) (hlit : a.path.lit i = s.path.lit i) (hnow : a.now = s.now) :
    ClearRows i y k s t := by
  unfold ClearRows at h ⊢
  rw [hlit, hnow] at h
  split
  next hmute => exact Mutes.spared (by rwa [if_pos hmute] at h) h2
  next hmute => exact ReleaseRows.around h1 h2 (by rwa [if_neg hmute] at h) hring

/-- A context at a RESTART, seen from the whole pass (R75). -/
theorem RestartedCtx.around (h : RestartedCtx i y a b) (hks : ∀ f ∈ [FrameKind.ring, .claim, .wait, .answer], ¬ ks f)
    (hlit : a.path.lit i = s.path.lit i) (hnow : a.now = s.now) : RestartedCtx i y s t := by
  obtain ⟨hrecall, hstate⟩ := h
  have hopen : ∀ f ∈ [FrameKind.ring, .claim, .wait, .answer],
      (a.queued ⟨f, .call y.cid⟩ = true → b.recallOpen ⟨f, .call y.cid⟩) →
        s.queued ⟨f, .call y.cid⟩ = true → t.recallOpen ⟨f, .call y.cid⟩ := fun f hf h hq =>
    h2.adds.recallOpen (h ((h1.adds.queued (hks f hf)).trans hq))
  refine ⟨fun hside hs => ?_, ?_⟩
  · obtain ⟨hring, hclaim, hwait⟩ := hrecall hside hs
    exact ⟨hopen _ (by simp) hring, hopen _ (by simp) hclaim, hopen _ (by simp) hwait⟩
  have hrows : ClearRows i y (y.cause.getD .restart) a b → ClearRows i y (y.cause.getD .restart) s t := fun hr =>
    hr.around h1 h2 (hks .ring (by simp)) hlit hnow
  unfold ClearRows at hrows
  cases hst : y.state <;> simp only [hst] at hstate ⊢ hrows
  case clearing => exact h2.ctx.trans hstate
  case alerting => exact ⟨h2.ctx.trans hstate.1, h2.alerting.trans hstate.2⟩
  case answering =>
    rw [h1.adds.queued (hks .answer (by simp))] at hstate
    split
    next hq =>
      rw [if_pos hq] at hstate
      exact ⟨ClearsTo.spared hstate.1 h2, fun _ => h2.adds.recallOpen (hstate.2 hq)⟩
    next hq => exact h2.ctx.trans (by rwa [if_neg hq] at hstate)
  case awaitPath => exact Releases.spared hstate h2
  all_goals exact hrows hstate

end Spared

/-! ### The pass -/

/-- What a RESTART queues besides recalls: RELEASE and LEAVE. -/
def restartKinds (k : FrameKind) : Prop := k = .release ∨ k = .leave

/-- The contexts below n have been visited: each cost one frame and four notices at most, and the laws of PATH hold (R75). -/
structure RestartPass (s : State) (n : Nat) (a : State) : Prop where
  calm : Calm s a
  spends : Spends n (4 * n) s a
  follows : Follows Laws.ofPath a

/-- Every record is lit while no installation cuts PATH (R147). -/
theorem lit_of_follows {s : State} (h : Follows Laws.ofPath s) (i : Ref) : s.path.lit i = (s.path.record i).isSome := by
  cases hr : s.path.record i with
  | none => exact Path.lit_none hr
  | some r =>
    obtain ⟨x, -, hx⟩ := h.stands trivial i r hr
    refine by_contra fun hl => ?_
    obtain ⟨hcut, -⟩ := hx.dark (eq_false_of_ne_true hl)
    exact absurd hcut (Nat.not_le_of_lt i.isLt)

section Pass

variable {s a : State} {n : Nat} {i : Ref} {y : Ctx}

theorem restartPass_start (h : Follows Laws.ofPath s) : RestartPass s 0 s := ⟨Calm.refl s, spends_of_same rfl rfl, h⟩

theorem RestartPass.skip (h : RestartPass s n a) : RestartPass s (n + 1) a :=
  ⟨h.calm, h.spends.mono (Nat.le_succ n) (by omega), h.follows⟩

theorem RestartPass.visit (h : RestartPass s n a) (hy : a.ctx i = some y) : RestartPass s (n + 1) (a.restartCtx i y) :=
  ⟨h.calm.restartCtx i y, h.spends.trans (spends_restartCtx a i y), h.follows.restartCtx hy⟩

theorem RestartPass.sends (h : RestartPass s n a) (hs : s.stc.state.sends = true) : a.stc.state.sends = true := by
  rwa [h.calm.state]

theorem RestartPass.room (h : RestartPass s i a) (hc : s.rif.count .call ≤ 4) : a.rif.count .call < 8 := by
  have := h.spends.frames
  omega

theorem restartPass_around (h : Follows Laws.ofPath s) (i : Ref) :
    ∃ a, RestartPass s i a ∧ Spares restartKinds i s a
      ∧ Spares restartKinds i (State.visit State.restartCtx a i) (s.eachCtx State.restartCtx) := by
  obtain ⟨a, ha, hbefore, -, hafter⟩ := eachCtx_around (ks := restartKinds) (M := RestartPass s) (restartPass_start h)
    (fun _ _ ht _ => ht.skip)
    (fun k t y ht hy => ⟨ht.visit hy, fun j hj => (Spares.refl j t).restartCtx (.inl rfl) hj y⟩) i
  exact ⟨a, ha, hbefore, hafter⟩

/-- Each context of a RESTART, behind the whole pass (R75, R125, R144). -/
theorem restartedCtx_pass (h : Follows Laws.ofPath s) (hs : s.stc.state.sends = true) (hc : s.rif.count .call ≤ 4)
    (hy : s.ctx i = some y) : RestartedCtx i y s (s.eachCtx State.restartCtx) := by
  obtain ⟨a, ha, hbefore, hafter⟩ := restartPass_around h i
  have hya : a.ctx i = some y := hbefore.ctx.trans hy
  have hlit : a.path.lit i = s.path.lit i := by rw [lit_of_follows ha.follows, lit_of_follows h, hbefore.record]
  rw [visit_live hya] at hafter
  refine (restartedCtx_visit hya (ha.follows.fits trivial i y hya) (ha.sends hs) (ha.room hc)).around hbefore hafter ?_ hlit
    ha.calm.now
  simp [restartKinds]

/-- The contexts from n on stand. -/
def KeptFrom (s : State) (n : Nat) (t : State) : Prop := ∀ j : Ref, n ≤ j.val → t.ctx j = s.ctx j

theorem KeptFrom.skip (h : KeptFrom s n a) : KeptFrom s (n + 1) a := fun j hj => h j (Nat.le_of_succ_le hj)

theorem KeptFrom.visit (h : KeptFrom s i a) (y : Ctx) : KeptFrom s (i + 1) (a.restartCtx i y) := fun j hj => by
  have hne : j ≠ i := by rintro rfl; omega
  rw [((Spares.refl (ks := restartKinds) j a).restartCtx (.inl rfl) hne y).ctx]
  exact h j (Nat.le_of_succ_le hj)

theorem ref_lt_succ {j i : Ref} (h : j.val < i.val + 1) : j = i ∨ j.val < i.val :=
  (Nat.lt_succ_iff_lt_or_eq.mp h).symm.imp_left Fin.ext

/-- Behind a RESTART every context is in CLEARING or free (R75). -/
theorem goneOrClearing_pass (h : ContextLaw s) (i : Ref) : GoneOrClearing i (s.eachCtx State.restartCtx) := by
  have hend := eachCtx_end (M := fun n t => KeptFrom s n t ∧ ∀ j : Ref, j.val < n → GoneOrClearing j t) (f := State.restartCtx)
    (s := s) ⟨fun _ _ => rfl, fun _ hj => absurd hj (Nat.not_lt_zero _)⟩ ?_ ?_
  · exact hend.2 i i.isLt
  · refine fun i t ⟨hkept, hgone⟩ hfree => ⟨hkept.skip, fun j hj => ?_⟩
    obtain rfl | hj := ref_lt_succ hj
    · exact .of_free hfree
    · exact hgone j hj
  · refine fun i t y ⟨hkept, hgone⟩ hy => ⟨hkept.visit y, fun j hj => ?_⟩
    obtain rfl | hj := ref_lt_succ hj
    · exact goneOrClearing_restartCtx hy (h j y ((hkept j le_rfl).symm.trans hy))
    · have hne : j ≠ i := by rintro rfl; omega
      exact (hgone j hj).congr ((Spares.refl (ks := restartKinds) j t).restartCtx (.inl rfl) hne y).ctx

/-- The contexts below n have said CALL_ENDED, where they do not clear already (R125, R144). -/
def SaidBelow (s : State) (n : Nat) (t : State) : Prop :=
  ∀ (j : Ref) y, j.val < n → s.ctx j = some y → y.state ≠ .clearing → EndSaid j y .restart s t

/-- With no notice waiting, every CALL_ENDED of a RESTART finds room (R125, R144, R180). -/
theorem endSaid_pass (h : Follows Laws.ofPath s) (hnil : s.sport.notices = []) (hy : s.ctx i = some y) (hst : y.state ≠ .clearing) :
    EndSaid i y .restart s (s.eachCtx State.restartCtx) := by
  have hend := eachCtx_end (M := fun n t => RestartPass s n t ∧ KeptFrom s n t ∧ SaidBelow s n t) (f := State.restartCtx)
    (s := s) ⟨restartPass_start h, fun _ _ => rfl, fun _ _ hj => absurd hj (Nat.not_lt_zero _)⟩ ?_ ?_
  · exact hend.2.2 i y i.isLt hy hst
  · refine fun i t ⟨hpass, hkept, hsaid⟩ hfree => ⟨hpass.skip, hkept.skip, fun j z hj hz hzst => ?_⟩
    obtain rfl | hj := ref_lt_succ hj
    · rw [← hkept j le_rfl, hfree] at hz
      cases hz
    · exact hsaid j z hj hz hzst
  · refine fun i t y ⟨hpass, hkept, hsaid⟩ hy => ⟨hpass.visit hy, hkept.visit y, fun j z hj hz hzst => ?_⟩
    obtain rfl | hj := ref_lt_succ hj
    · rw [← hkept j le_rfl, hy] at hz
      cases hz
      have hroom : t.sport.notices.length < Config.noticeCap := by
        have hspent := hpass.spends.notices
        have hcap : Config.noticeCap = 16 := rfl
        rw [hnil, List.length_nil] at hspent
        omega
      exact fun hp _ => endSaid_restartCtx hy (hpass.follows.fits trivial j y hy) hzst hp hroom
    · exact (hsaid j z hj hz hzst).mono ((Calm.refl t).restartCtx i y).posted

/-- The CALL_ENDED notices of a RESTART at a station without paths, in ascending context index (R75, R125, R144). -/
theorem postsInTurn_pass (h : Follows Laws.ofPath s) (hs : s.stc.state.sends = true) (hc : s.rif.count .call ≤ 4)
    (hr : ∀ i : Ref, s.path.record i = none) : PostsInTurn s.restartNotices s (s.eachCtx State.restartCtx) := by
  have hnext : ∀ i : Ref, (refs.take (i + 1)).filterMap s.restartNotice
      = (refs.take i).filterMap s.restartNotice ++ (s.restartNotice i).toList := fun i => by
    have hrefs : refs.take (i + 1) = refs.take i ++ [i] := by revert i; decide
    rw [hrefs, List.filterMap_append]
    cases h : s.restartNotice i <;> simp [h]
  have hend := eachCtx_end (f := State.restartCtx) (s := s)
    (M := fun n t => RestartPass s n t ∧ KeptFrom s n t ∧ SaysAlone ((refs.take n).filterMap s.restartNotice) s t)
    ⟨restartPass_start h, fun _ _ => rfl, PostsInTurn.nil s, rfl⟩ ?_ ?_
  · exact hend.2.2.1
  · refine fun i t ⟨hpass, hkept, hsays⟩ hfree => ⟨hpass.skip, hkept.skip, ?_⟩
    have hnone : s.restartNotice i = none := by rw [State.restartNotice, ← hkept i le_rfl, hfree]; rfl
    rw [hnext, hnone, Option.toList_none, List.append_nil]
    exact hsays
  · refine fun i t y ⟨hpass, hkept, hposts, hpath⟩ hy => ⟨hpass.visit hy, hkept.visit y, ?_⟩
    have hsame : t.restartNotice i = s.restartNotice i := by rw [State.restartNotice, State.restartNotice, hkept i le_rfl]
    obtain ⟨hsaid, hsaidPath⟩ := saysAlone_restartCtx hy (hpass.follows.fits trivial i y hy) (by rw [hpath, hr]) (hpass.sends hs)
      (hpass.room hc)
    rw [hnext, ← hsame]
    exact ⟨hposts.trans hsaid, hsaidPath.trans hpath⟩

theorem adds_pass (s : State) : Adds restartKinds s (s.eachCtx State.restartCtx) :=
  eachCtx_keeps (P := Adds restartKinds s) (Adds.refl _ s) fun t j y ht _ =>
    ht.trans (.of_spares (i := j) fun k hk => (Spares.refl k t).restartCtx (.inl rfl) hk y)

theorem calm_pass (s : State) : Calm s (s.eachCtx State.restartCtx) := (Calm.refl s).eachCtx fun _ i y ht => ht.restartCtx i y

end Pass

end Sys2Proof.Machine
end

section
/-! PROOFS. RESTART (R62, R63, R75, R77, R97, R121, R125, R140, R144). -/

namespace Sys2Proof.Machine

/-! ### Before and behind the pass -/

/-- A RESTART before its pass: the stagger stopped, the recalls of the own SNAPSHOT and JOIN asked (R75). -/
def State.leavingStart (s : State) : State := ((s.stopStagger).askRecall ⟨.snapshot, .bare⟩).askRecall s.joinFrame.ident

/-- An OFFER still to come is dropped (R97). -/
def State.dropPendingOffer (s : State) : State := if s.udir.offer = .pending then s.setOffer .none else s

/-- A RESTART behind its pass: the OFFER is dropped, and the station is in LEAVING (R75, R97). -/
def State.leavingMove (s : State) : State := s.dropPendingOffer.moveTo .leaving .restartRequested

theorem enterLeaving_eq (s : State) : s.enterLeaving = (s.leavingStart.eachCtx State.restartCtx).leavingMove.leaveCheck := rfl

section Start

variable (s : State)

@[simp] theorem leavingStart_ctxs : s.leavingStart.ctxs = s.ctxs := by simp [State.leavingStart]
@[simp] theorem leavingStart_path : s.leavingStart.path = s.path := by simp [State.leavingStart]
@[simp] theorem leavingStart_sport : s.leavingStart.sport = s.sport := by simp [State.leavingStart]
@[simp] theorem leavingStart_queue : s.leavingStart.rif.queue = s.rif.queue := by simp [State.leavingStart]
@[simp] theorem leavingStart_stc : s.leavingStart.stc = { s.stc with stagger := none } := by simp [State.leavingStart, State.stopStagger]
@[simp] theorem ctx_leavingStart (i : Ref) : s.leavingStart.ctx i = s.ctx i := State.ctx_congr (leavingStart_ctxs s) i

theorem calm_leavingStart : Calm s.stopStagger s.leavingStart := ((Calm.refl _).askRecall _).askRecall _

theorem alike_leavingStart : Alike s s.leavingStart :=
  (alike_withStc s { s.stc with stagger := none }).trans ((alike_askRecall _ _).trans (alike_askRecall _ _))

theorem spares_leavingStart (i : Ref) : Spares restartKinds i s s.leavingStart :=
  (((Spares.refl i s).of_rif rfl rfl rfl rfl : Spares restartKinds i s s.stopStagger).askRecall _).askRecall _

theorem restartNotices_leavingStart : s.leavingStart.restartNotices = s.restartNotices := by
  unfold State.restartNotices
  simp only [ctx_leavingStart]

theorem recallOpen_leavingStart {s : State} {id : FrameId} (hid : id = ⟨.snapshot, .bare⟩ ∨ id = s.joinFrame.ident)
    (hq : s.queued id = true) : s.leavingStart.recallOpen id := by
  rcases hid with rfl | rfl
  · exact (Adds.askRecall (ks := restartKinds) _ _).recallOpen (recallOpen_askRecall hq)
  · exact recallOpen_askRecall ((queued_askRecall _ _ _).trans hq)

end Start

section Move

variable (u : State)

theorem dropPendingOffer_eq : u.dropPendingOffer = u ∨ u.dropPendingOffer = u.setOffer .none := by
  unfold State.dropPendingOffer
  split
  · exact .inr rfl
  · exact .inl rfl

theorem calm_dropPendingOffer : Calm u u.dropPendingOffer := by
  rcases dropPendingOffer_eq u with h | h
  · rw [h]; exact Calm.refl u
  · rw [h]; exact (Calm.refl u).setOffer _

@[simp] theorem dropPendingOffer_stc : u.dropPendingOffer.stc = u.stc := by rcases dropPendingOffer_eq u with h | h <;> simp [h]
@[simp] theorem dropPendingOffer_rif : u.dropPendingOffer.rif = u.rif := by rcases dropPendingOffer_eq u with h | h <;> simp [h]
@[simp] theorem dropPendingOffer_ctxs : u.dropPendingOffer.ctxs = u.ctxs := by rcases dropPendingOffer_eq u with h | h <;> simp [h]
@[simp] theorem dropPendingOffer_path : u.dropPendingOffer.path = u.path := by rcases dropPendingOffer_eq u with h | h <;> simp [h]
@[simp] theorem dropPendingOffer_oku : u.dropPendingOffer.oku = u.oku := by rcases dropPendingOffer_eq u with h | h <;> simp [h]
@[simp] theorem dropPendingOffer_sport : u.dropPendingOffer.sport = u.sport := by rcases dropPendingOffer_eq u with h | h <;> simp [h]

@[simp] theorem leavingMove_stc : u.leavingMove.stc = { u.stc with state := .leaving, locked := true } := by
  rw [State.leavingMove, moveTo_stc, dropPendingOffer_stc]
  rfl

@[simp] theorem leavingMove_ctxs : u.leavingMove.ctxs = u.ctxs := by simp [State.leavingMove, State.moveTo]
@[simp] theorem leavingMove_path : u.leavingMove.path = u.path := by simp [State.leavingMove, State.moveTo]
@[simp] theorem leavingMove_oku : u.leavingMove.oku = u.oku := by simp [State.leavingMove, State.moveTo]
@[simp] theorem leavingMove_rif : u.leavingMove.rif = u.rif := by simp [State.leavingMove, State.moveTo]
@[simp] theorem leavingMove_smu : u.leavingMove.smu = u.smu := by
  simp only [State.leavingMove, State.moveTo, State.post_smu]
  exact (calm_dropPendingOffer u).smu

@[simp] theorem leavingMove_lines : u.leavingMove.udir.lines = u.udir.lines := by
  rw [State.leavingMove, moveTo_udir]
  exact (calm_dropPendingOffer u).lines

theorem sameFixtures_leavingMove : SameFixtures u u.leavingMove := (calm_dropPendingOffer u).sameFixtures.trans (sameFixtures_moveTo _ _ _)

theorem postsInTurn_leavingMove : PostsInTurn [.station u.stc.state .leaving .restartRequested] u u.leavingMove := by
  have hposts := postsInTurn_moveTo u.dropPendingOffer .leaving .restartRequested
  rw [dropPendingOffer_stc] at hposts
  exact hposts.from_sport (dropPendingOffer_sport u).symm

theorem notices_leavingMove : u.sport.notices <+: u.leavingMove.sport.notices := by
  have hposted := ((Calm.refl { u.dropPendingOffer with stc := { u.dropPendingOffer.stc with state := .leaving, locked := true } }).post
    (.station u.dropPendingOffer.stc.state .leaving .restartRequested)).posted
  rwa [dropPendingOffer_sport] at hposted

theorem posted_leavingMove : Posted (.station u.stc.state .leaving .restartRequested) u.leavingMove := by
  have hposted : Posted _ u.leavingMove := posted_post _ _
  rwa [dropPendingOffer_stc] at hposted

theorem spares_leavingEnd (i : Ref) : Spares restartKinds i u u.leavingMove.leaveCheck := by
  have hmove : Spares restartKinds i u u.leavingMove :=
    (Spares.refl i u).of_rif (State.ctx_congr (leavingMove_ctxs u) i) (by rw [leavingMove_path]) (by rw [leavingMove_oku]) (leavingMove_rif u)
  rcases leaveCheck_eq u.leavingMove with h | h
  · rw [h]; exact hmove
  · rw [h]; exact hmove.queueFrame .leave (.inr rfl)

end Move

/-! ### LEAVING is entered -/

section Leaving

variable (s : State)

theorem enterLeaving_stc :
    s.enterLeaving.stc.state = .leaving ∧ s.enterLeaving.stc.locked = true ∧ s.enterLeaving.stc.stagger = none := by
  have hstagger : (s.leavingStart.eachCtx State.restartCtx).stc.stagger = none :=
    (congrArg (fun x => x.2.2.2.2.1) (calm_pass s.leavingStart).stc).trans (by rw [leavingStart_stc]; rfl)
  rw [enterLeaving_eq, leaveCheck_stc, leavingMove_stc]
  exact ⟨rfl, rfl, hstagger⟩

theorem enterLeaving_copy : s.enterLeaving.smu = s.smu ∧ s.enterLeaving.udir.lines = s.udir.lines := by
  have hcalm := (calm_leavingStart s).trans (calm_pass _)
  rw [enterLeaving_eq, leaveCheck_smu, leavingMove_smu, leaveCheck_udir, leavingMove_lines]
  exact ⟨hcalm.smu, hcalm.lines⟩

theorem enterLeaving_fixtures : SameFixtures s s.enterLeaving := by
  have hstop : SameFixtures s s.stopStagger := ⟨rfl, rfl, rfl, rfl, rfl, rfl, rfl, rfl, rfl, rfl, rfl, rfl, rfl, rfl, rfl⟩
  rw [enterLeaving_eq]
  exact (hstop.trans ((calm_leavingStart s).trans (calm_pass _)).sameFixtures).trans
    ((sameFixtures_leavingMove _).trans (Calm.refl _).leaveCheck.sameFixtures)

theorem state_pass : (s.leavingStart.eachCtx State.restartCtx).stc.state = s.stc.state :=
  (calm_pass s.leavingStart).state.trans (by rw [leavingStart_stc])

theorem posted_enterLeaving : Posted (.station s.stc.state .leaving .restartRequested) s.enterLeaving := by
  rw [enterLeaving_eq, ← state_pass]
  exact (posted_leavingMove _).of_sport (leaveCheck_sport _)

variable {s}

theorem goneOrClearing_enterLeaving (h : ContextLaw s) (i : Ref) : GoneOrClearing i s.enterLeaving := by
  have hstart : ContextLaw s.leavingStart := fun j y hy => h j y ((ctx_leavingStart s j).symm.trans hy)
  rw [enterLeaving_eq]
  exact (goneOrClearing_pass hstart i).congr ((ctx_leaveCheck _ i).trans (State.ctx_congr (leavingMove_ctxs _) i))

theorem recallOpen_enterLeaving {id : FrameId} (hid : id = ⟨.snapshot, .bare⟩ ∨ id = s.joinFrame.ident) (hq : s.queued id = true) :
    s.enterLeaving.recallOpen id := by
  have hpass := (adds_pass s.leavingStart).recallOpen (recallOpen_leavingStart hid hq)
  rw [enterLeaving_eq]
  exact recallOpen_leaveCheck (hpass.of_rif (leavingMove_rif _))

/-- With no context and no JOIN or LEAVE queued the LEAVE is queued at once (R77). -/
theorem enterLeaving_leaves (hl : s.liveCount = 0) (hnone : ∀ e ∈ s.rif.queue, e.frame.kind ≠ .join ∧ e.frame.kind ≠ .leave) :
    s.enterLeaving.rif.queue = s.rif.queue ++ [Entry.fresh .leave] := by
  have hfree : ∀ i, s.leavingStart.ctx i = none := fun i => (ctx_leavingStart s i).trans (liveCount_eq_zero_iff.mp hl i)
  have hqueue : s.leavingStart.leavingMove.rif.queue = s.rif.queue := by rw [leavingMove_rif, leavingStart_queue]
  have hcount : s.leavingStart.leavingMove.rif.count .stc = 0 := by
    rw [Rif.count, hqueue]
    refine List.countP_eq_zero.mpr fun e he hk => ?_
    obtain ⟨hjoin, hleave⟩ := hnone e he
    exact (frameCategory_stc.mp (of_decide_eq_true hk)).elim hjoin hleave
  have hlive : s.leavingStart.leavingMove.liveCount = 0 :=
    liveCount_eq_zero_iff.mpr fun i => (State.ctx_congr (leavingMove_ctxs _) i).trans (hfree i)
  rw [enterLeaving_eq, eachCtx_of_free hfree, leaveCheck_due (by rw [leavingMove_stc]) hlive hcount, hqueue]

/-! ### The contexts and their notices -/

section Pathed

variable (hp : PathLaw s) (hl : SlotLaw s.smu) (hx : ContextLaw s) (hst : s.stc.state = .joined) (hc : s.rif.count .call ≤ 4)
include hp hl hx

theorem follows_leavingStart : Follows Laws.ofPath s.leavingStart := (hp.follows hl hx).alike (alike_leavingStart s)

theorem endSaid_enterLeaving {i : Ref} {y : Ctx} (hy : s.ctx i = some y) (hcl : y.state ≠ .clearing) (hnil : s.sport.notices = []) :
    EndSaid i y .restart s s.enterLeaving := by
  have hsaid := endSaid_pass (follows_leavingStart hp hl hx) (by rw [leavingStart_sport, hnil]) ((ctx_leavingStart s i).trans hy) hcl
  rw [enterLeaving_eq]
  refine (hsaid.from_sport (leavingStart_sport s).symm).mono ?_
  rw [leaveCheck_sport]
  exact notices_leavingMove _

include hst hc

theorem restartedCtx_enterLeaving {i : Ref} {y : Ctx} (hy : s.ctx i = some y) : RestartedCtx i y s s.enterLeaving := by
  have hpass := restartedCtx_pass (follows_leavingStart hp hl hx) (by rw [leavingStart_stc, hst]; rfl)
    (by rw [Rif.count, leavingStart_queue]; exact hc) ((ctx_leavingStart s i).trans hy)
  rw [enterLeaving_eq]
  refine hpass.around (spares_leavingStart s i) (spares_leavingEnd _ i) ?_ (by rw [leavingStart_path]) (calm_leavingStart s).now
  simp [restartKinds]

theorem postsInTurn_enterLeaving (hr : ∀ i : Ref, s.path.record i = none) :
    PostsInTurn (s.restartNotices ++ [.station .joined .leaving .restartRequested]) s s.enterLeaving := by
  have hpass := postsInTurn_pass (follows_leavingStart hp hl hx) (by rw [leavingStart_stc, hst]; rfl)
    (by rw [Rif.count, leavingStart_queue]; exact hc) (fun i => by rw [leavingStart_path]; exact hr i)
  have hmove := postsInTurn_leavingMove (s.leavingStart.eachCtx State.restartCtx)
  rw [state_pass, hst] at hmove
  rw [restartNotices_leavingStart] at hpass
  rw [enterLeaving_eq]
  exact ((hpass.trans hmove).of_sport (leaveCheck_sport _)).from_sport (leavingStart_sport s).symm

end Pathed

end Leaving

/-! ### The request -/

section Restart

variable {s : State}

theorem exec_restart_unconfigured (h : s.stc.state = .unconfigured) : exec (.restart []) s = .next (s.reply .notConfigured) := by
  simp only [exec, execRestart, serve_of_length (List.length_nil), State.openTransaction_stc, h, reply_openTransaction]

theorem exec_restart_configured (h : s.stc.state = .configured) : exec (.restart []) s = .next (s.reply .wrongState) := by
  simp only [exec, execRestart, serve_of_length (List.length_nil), State.openTransaction_stc, h, reply_openTransaction]

theorem exec_restart_leaving (h : s.stc.state = .leaving) : exec (.restart []) s = .next (s.reply .busy) := by
  simp only [exec, execRestart, serve_of_length (List.length_nil), State.openTransaction_stc, h, reply_openTransaction]

theorem exec_restart_offRiser (h : s.stc.state = .learning ∨ s.stc.state = .isolated) :
    exec (.restart []) s = .next ((s.openTransaction.enterConfigured .restartRequested).reply .accepted) := by
  rcases h with h | h <;> simp only [exec, execRestart, serve_of_length (List.length_nil), State.openTransaction_stc, h]

theorem exec_restart_joined (h : s.stc.state = .joined) :
    exec (.restart []) s = .next (s.openTransaction.enterLeaving.reply .accepted) := by
  simp only [exec, execRestart, serve_of_length (List.length_nil), State.openTransaction_stc, h]

end Restart

/-! ### The answer adds nothing -/

section Reply

variable {s t : State} (st : Status)

theorem State.nowConfigured.reply {p : StationState} {r : StationReason} (h : t.nowConfigured p r) : (t.reply st).nowConfigured p r := h

theorem SameFixtures.reply (h : SameFixtures s.openTransaction t) : SameFixtures s (t.reply st) := h

theorem GoneOrClearing.reply {i : Ref} (h : GoneOrClearing i t) : GoneOrClearing i (t.reply st) := h

theorem State.recallOpen.reply {id : FrameId} (h : t.recallOpen id) : (t.reply st).recallOpen id := h

theorem RestartedCtx.reply {i : Ref} {y : Ctx} (h : RestartedCtx i y s.openTransaction t) : RestartedCtx i y s (t.reply st) :=
  h.around (ks := restartKinds) ((Spares.refl i s).of_rif rfl rfl rfl rfl) ((Spares.refl i t).of_rif rfl rfl rfl rfl)
    (by simp [restartKinds]) rfl rfl

theorem EndSaid.reply {i : Ref} {y : Ctx} {k : Cause} (h : EndSaid i y k s.openTransaction t) : EndSaid i y k s (t.reply st) := h

theorem PostsInTurn.reply {ns : List Notice} (h : PostsInTurn ns s.openTransaction t) : PostsInTurn ns s (t.reply st) := h

end Reply

/-- Settles O46: outside JOINED by the request's rows; in JOINED each context is seen at its own visit of the pass, which the other
visits, the recalls before it and the change to LEAVING behind it leave alone. -/
theorem restartRequestRows : Obligations.RestartRequestRows := by
  refine fun s => ⟨exec_restart_unconfigured, exec_restart_configured, exec_restart_leaving, fun hst => ?_, fun hst hx => ?_⟩
  · exact ⟨_, exec_restart_offRiser hst, (enterConfigured_nowConfigured s.openTransaction _).reply _, rfl,
      (enterConfigured_fixtures s.openTransaction _).reply _⟩
  · have hjoined : s.openTransaction.stc.state = .joined := hst
    have hlaw : ContextLaw s.openTransaction := hx
    have hposted := posted_enterLeaving s.openTransaction
    rw [hjoined] at hposted
    obtain ⟨hstate, hlocked, hstagger⟩ := enterLeaving_stc s.openTransaction
    obtain ⟨hsmu, hlines⟩ := enterLeaving_copy s.openTransaction
    have hstc := State.reply_stc s.openTransaction.enterLeaving .accepted
    refine ⟨_, exec_restart_joined hst, (congrArg Stc.state hstc).trans hstate, (congrArg Stc.locked hstc).trans hlocked,
      (congrArg Stc.stagger hstc).trans hstagger, rfl, (State.reply_smu ..).trans hsmu,
      (congrArg Udir.lines (State.reply_udir ..)).trans hlines, fun i => (goneOrClearing_enterLeaving hlaw i).reply _,
      posted_reply hposted _, (enterLeaving_fixtures s.openTransaction).reply _, fun hq => ?_, fun hq => ?_, fun hp hl hc => ?_,
      fun hfree hnone => (congrArg Rif.queue (State.reply_rif ..)).trans (enterLeaving_leaves (s := s.openTransaction) hfree hnone)⟩
    · exact (recallOpen_enterLeaving (s := s.openTransaction) (.inl rfl) hq).reply _
    · exact (recallOpen_enterLeaving (s := s.openTransaction) (.inr rfl) hq).reply _
    · have hpath : PathLaw s.openTransaction := hp
      refine ⟨fun i y hy => ⟨?_, fun hcl hnil => ?_⟩, fun hr => ?_⟩
      · exact (restartedCtx_enterLeaving hpath hl hlaw hjoined hc hy).reply _
      · exact (endSaid_enterLeaving hpath hl hlaw hy hcl hnil).reply _
      · exact (postsInTurn_enterLeaving hpath hl hlaw hjoined hc hr).reply _

end Sys2Proof.Machine
end
